-- ==== Sys2Proof/Word.lean ====
section
/-! DEFINITION. The words of the 460D and the fixed-size tables its blocks own. -/

namespace Sys2Proof

/-- A byte of memory, a character, an 8-bit counter. -/
abbrev Byte := BitVec 8

/-- A memory word: 32 bits (00 section 4). -/
abbrev Word := BitVec 32

/-- Saturating increment: "a counter saturates at its maximum unless its description says that it wraps" (00 section 4). -/
def satInc {w : Nat} (b : BitVec w) : BitVec w :=
  if b = BitVec.allOnes w then b else b + 1

/-- Saturating addition of a small number, for the counters that time advances. -/
def satAdd {w : Nat} (b : BitVec w) (k : Nat) : BitVec w :=
  if 2 ^ w ≤ b.toNat + k then BitVec.allOnes w else BitVec.ofNat w (b.toNat + k)

/-- A table of exactly `n` like rows, with its size proved once. -/
structure Table (n : Nat) (α : Type) where
  rows : List α
  size : rows.length = n
deriving DecidableEq, Repr

namespace Table

variable {n : Nat} {α β γ : Type}

/-- The row of an index. -/
def get (t : Table n α) (i : Fin n) : α := t.rows.get (Fin.cast t.size.symm i)

/-- Row `i` of the table when it has one. -/
def get? (t : Table n α) (i : Nat) : Option α := t.rows[i]?

/-- The table with one row replaced. -/
def set (t : Table n α) (i : Fin n) (x : α) : Table n α :=
  ⟨t.rows.set i x, by rw [List.length_set, t.size]⟩

/-- The table with one row changed by `f`. -/
def modify (t : Table n α) (i : Fin n) (f : α → α) : Table n α := t.set i (f (t.get i))

/-- The table whose row `i` is `f i`. -/
def ofFn (f : Fin n → α) : Table n α :=
  ⟨(List.finRange n).map f, by rw [List.length_map, List.length_finRange]⟩

/-- Every row the same. -/
def const (n : Nat) (x : α) : Table n α := ⟨List.replicate n x, List.length_replicate⟩

/-- Every row changed by `f`. -/
def map (f : α → β) (t : Table n α) : Table n β :=
  ⟨t.rows.map f, by rw [List.length_map, t.size]⟩

/-- Two tables combined row by row. -/
def zip (f : α → β → γ) (t : Table n α) (u : Table n β) : Table n γ :=
  ⟨List.zipWith f t.rows u.rows, by rw [List.length_zipWith, t.size, u.size, Nat.min_self]⟩

/-- The indices whose row meets `p`, in ascending order. -/
def indices (t : Table n α) (p : α → Bool) : List (Fin n) :=
  (List.finRange n).filter (fun i => p (t.get i))

@[simp] theorem get_ofFn (f : Fin n → α) (i : Fin n) : (ofFn f).get i = f i := by
  simp only [get, ofFn, List.get_eq_getElem, List.getElem_map, List.getElem_finRange]
  rfl

@[simp] theorem get_const (x : α) (i : Fin n) : (const n x).get i = x := by
  simp [get, const]

@[simp] theorem get_map (f : α → β) (t : Table n α) (i : Fin n) : (t.map f).get i = f (t.get i) := by
  simp only [get, map, List.get_eq_getElem, List.getElem_map]
  rfl

@[simp] theorem get_zip (f : α → β → γ) (t : Table n α) (u : Table n β) (i : Fin n) :
    (zip f t u).get i = f (t.get i) (u.get i) := by
  simp only [get, zip, List.get_eq_getElem, List.getElem_zipWith]
  rfl

theorem get_set (t : Table n α) (i j : Fin n) (x : α) :
    (t.set i x).get j = if i = j then x else t.get j := by
  simp only [get, set, List.get_eq_getElem, List.getElem_set, Fin.ext_iff]
  rfl

@[simp] theorem get_set_self (t : Table n α) (i : Fin n) (x : α) : (t.set i x).get i = x := by
  simp [get_set]

@[simp] theorem get_set_ne (t : Table n α) {i j : Fin n} (h : i ≠ j) (x : α) :
    (t.set i x).get j = t.get j := by
  simp [get_set, h]

@[simp] theorem get_modify_self (t : Table n α) (i : Fin n) (f : α → α) :
    (t.modify i f).get i = f (t.get i) := get_set_self ..

@[simp] theorem get_modify_ne (t : Table n α) {i j : Fin n} (h : i ≠ j) (f : α → α) :
    (t.modify i f).get j = t.get j := get_set_ne t h _

/-- Two tables with the same rows are the same table. -/
theorem ext_get {t u : Table n α} (h : ∀ i, t.get i = u.get i) : t = u := by
  cases t with
  | mk tr ts =>
    cases u with
    | mk ur us =>
      have : tr = ur := by
        apply List.ext_getElem (ts.trans us.symm)
        intro k hk _
        exact h ⟨k, ts ▸ hk⟩
      subst this
      rfl

@[simp] theorem set_get (t : Table n α) (i : Fin n) : t.set i (t.get i) = t := by
  apply ext_get
  intro j
  by_cases h : i = j
  · subst h; simp
  · simp [h]

end Table

end Sys2Proof
end

