-- ==== Sys2Proof/Syntax.lean ====
section
/-! DEFINITION. The commands of the 460D: one constructor of `Instr` for each row of spec/opcode_table.json, with its operands. -/

namespace Sys2Proof

/-- The receive-only body lines (02). The subject of a line fault and the line's number in the window are 0, 1 and 2 in this order. -/
inductive Line where
  | front | rear | drive
deriving DecidableEq, Repr

/-- The three samples that a receiver takes near the middle of one bit time (R24). -/
structure Samples where
  a : Bool
  b : Bool
  c : Bool
deriving DecidableEq, Repr

/-- The samples of the eleven bit times of a body-line character, data bits least significant first (R24). -/
structure CharSamples where
  start : Samples
  d0 : Samples
  d1 : Samples
  d2 : Samples
  d3 : Samples
  d4 : Samples
  d5 : Samples
  d6 : Samples
  d7 : Samples
  mark : Samples
  stop : Samples
deriving DecidableEq, Repr

/-- A service-line character as sampled: data bits, parity bit and stop bit (R165). -/
structure ServiceChar where
  data : Byte
  parity : Bool
  stop : Bool
deriving DecidableEq, Repr

/-- What the configuration memory holds when a page write completes and the page is read back (R159, R188, R192):
the page that was written, or other bytes. -/
inductive PageOutcome where
  | stored
  | differs (bytes : List Byte)
deriving DecidableEq, Repr

/-- Whom a service request is addressed to: this device's physical address or the functional address 0x7F (R166). -/
inductive Target where
  | physical | functional
deriving DecidableEq, Repr

/-- The commands. Operands that only the outside knows (samples, pin levels, what a memory answered) are the command's own. -/
inductive Instr where
  -- resets and the START sequence (11)
  | powerOnReset (straps : BitVec 2)
  | supplyLowReset (straps : BitVec 2)
  | pinReset (straps : BitVec 2)
  | resetEnd
  | profileReadComplete (answered : Bool)
  | countersBlockRead (answered : Bool)
  | faultSlotsRead (answered : BitVec 32)
  -- signals and inputs (01)
  | stalenessExpiry (n : Fin 256)
  | logicalLevelChange (i : Fin 24)
  | debounceSettle (i : Fin 24)
  | speedRisingEdge (units : BitVec 16)
  | speedOverflow
  | holdExpiry
  -- body lines (02)
  | startEdge (l : Line)
  | startBitSample (l : Line) (x : Samples)
  | characterComplete (l : Line) (c : CharSamples)
  | breakEvent (l : Line)
  | brokenEvent (l : Line)
  | returnEvent (l : Line)
  | gapExpiry (l : Line)
  | silenceExpiry (l : Line)
  -- doors (03)
  | openTimeoutExpiry (d : Fin 6)
  | closeTimeoutExpiry (d : Fin 6)
  | disagreementExpiry (d : Fin 6)
  -- warnings (04)
  | onDelayExpiry (w : Fin 96)
  | offDelayExpiry (w : Fin 96)
  | warningCellRead (w : Fin 96)
  | ack (w : Fin 96)
  | set (w : Fin 96)
  | reset (w : Fin 96)
  -- indication (05)
  | blinkPhaseEnd
  | openLoadSenseChange (t : Fin 48) (openLoad : Bool)
  | openLoadExpiry (t : Fin 48)
  | clearExpiry (t : Fin 48)
  | lampRequestWrite (upper : Bool) (word : Word)
  | lampCheckExpiry
  | homingCompletion (g : Fin 12)
  | arrival (g : Fin 12)
  | hostGaugeTargetWrite (g : Fin 12) (word : Word)
  | toneEnd
  | repeatPeriodExpiry
  | chimeTestPhaseEnd
  -- the image window and its commands (06)
  | windowWrite (wordAddr : BitVec 22) (word : Word) (lanes : BitVec 4)
  | imageWordRead (wordAddr : BitVec 22)
  | hostSignalWrite (n : Fin 256) (word : Word)
  | capturedWriteGrant
  | imageWriteGrant
  | imageWriteComplete
  | clearFaultsCommand (upper : BitVec 24)
  | profileStore (upper : BitVec 24)
  | restart (upper : BitVec 24)
  | clearCauses (upper : BitVec 24)
  | clearStats (upper : BitVec 24)
  | parkNow (upper : BitVec 24)
  | attentionSummaryRead
  | attentionEnableWrite (word : Word)
  -- host supervision (07)
  | hostAliveWrite (word : Word)
  | graceExpiry
  | timeoutExpiry
  | timeoutExpiryInLost
  | pulseEnd
  -- fault memory and configuration memory (08, 11)
  | confirmExpiry (slot : Fin 32)
  | faultSlotWriteComplete (o : PageOutcome)
  | countersWriteComplete (o : PageOutcome)
  | profileStoreValidation
  | profilePageWriteComplete (o : PageOutcome)
  | restartReadComplete (answered : Bool)
  -- service line (09)
  | serviceStartEdge
  | serviceCharacter (c : ServiceChar)
  | quietExpiry
  | serviceGapExpiry
  | identify (target : Target) (tester : Byte) (params : List Byte)
  | readFaults (target : Target) (tester : Byte) (params : List Byte)
  | readFreeze (target : Target) (tester : Byte) (params : List Byte)
  | clearFaultsRequest (target : Target) (tester : Byte) (params : List Byte)
  | readSignals (target : Target) (tester : Byte) (params : List Byte)
  | readDoors (target : Target) (tester : Byte) (params : List Byte)
  | readLines (target : Target) (tester : Byte) (params : List Byte)
  | outputTest (target : Target) (tester : Byte) (params : List Byte)
  | stopTest (target : Target) (tester : Byte) (params : List Byte)
  | workshopStatus (target : Target) (tester : Byte) (params : List Byte)
  | replyTurnaround
  | responseCharacter (c : ServiceChar)
  | testerActiveExpiry
  | lampTestTimerExpiry
  -- mode (10)
  | ignitionOffExpiry
deriving DecidableEq, Repr

end Sys2Proof
end

