-- ==== Sys2Proof/Config.lean ====
section
/-! DEFINITION. What one 460D is configured with: fixed numbers of the spec, the free value, and the profile that adapts a
device to one vehicle (11.2, Table 12-7), as read field by field under R197. -/

namespace Sys2Proof

namespace Config

/-- The address that a response carries in the no-profile state, in which the unit "has no physical address" (R179) while
R167 puts the physical address into every response. The spec states no value there: log entry 14. -/
opaque freeAddress : Nat → Byte

/-- Window base selected by WB1 and WB0 (Table 0-2). -/
def windowBase (straps : BitVec 2) : Nat := (straps.toNat + 1) * 0x400000 - 0x4000

/-- Size of the image window, 16 KiB. -/
def windowSize : Nat := 0x4000

/-- What a byte of SRAM that nothing has written reads as. DESIGN CHOICE, unsafe: log entry 6. -/
def sramErased : Byte := 0x00

/-- What a byte of configuration memory that nothing has written reads as. PRESUMED, unsafe: log entry 7. -/
def cfgErased : Byte := 0xFF

/-- Capacity of the update queue (R125). -/
def queueMax : Nat := 32
/-- Queue length at which the urgent flag becomes set (R129). -/
def urgentAt : Nat := 24
/-- Queue length at which the urgent flag becomes clear, and up to which marked words are re-queued (R127, R129). -/
def calmAt : Nat := 8
/-- Capacity of the present set (R148). -/
def presentMax : Nat := 64
/-- GRACE period (R140) and tester-active time (R170), in ms. -/
def graceMs : Nat := 5000
/-- HRST pulse (R144), in ms. -/
def pulseMs : Nat := 100
/-- Open-load and clear times (R101), in ms. -/
def openLoadMs : Nat := 200
/-- Half period of the blink clock (R99), in ms. -/
def blinkMs : Nat := 500
/-- Tone length (R113), in ms. -/
def toneMs : Nat := 300
/-- Period of the REPEAT pattern (R113), in ms. -/
def repeatMs : Nat := 1500
/-- Gap and quiet limit of the service line (R165, R166), in ms. -/
def serviceGapMs : Nat := 20
/-- Turnaround of a response (R167), in ms. -/
def turnaroundMs : Nat := 3
/-- Units of the speed timer in a millisecond (R13). -/
def speedUnitsPerMs : Nat := 100
/-- Count at which the speed timer overflows (R14), in units of 10 us. -/
def speedOverflowAt : Nat := 65535
/-- Smallest valid profile length: the end of the fixed part (12.5). -/
def profileMin : Nat := 6856
/-- Largest valid profile length (R189). -/
def profileMax : Nat := 8192
/-- The ACK word that the host writes to a warning cell (12.1). -/
def ackWord : Word := 0x00000A01
/-- The SET word of a HOST_SET warning (12.1). -/
def setWord : Word := 0x00000A02
/-- The RESET word of a HOST_SET warning (12.1). -/
def resetWord : Word := 0x00000A03
/-- Functional address of the service line (R166). -/
def functionalAddress : Byte := 0x7F
/-- Family code of IDENTIFY (Table 12-6). -/
def familyCode : Byte := 0x46

end Config

/-- Where an entry of the signal table is fed from (Table 1-1). -/
inductive Source where
  | none
  | discrete (input : Fin 24)
  | speed
  | line (slot : Fin 64) (start : Nat) (length : Nat) (signed : Bool)
  | host
deriving DecidableEq, Repr

/-- Profile fields of a signal entry (Table 1-1). `freshness` is the limit in force: 0, or 10 to 60 000 (R3). -/
structure SignalCfg where
  source : Source := .none
  freshness : Nat := 0
  low : BitVec 16 := 0
  high : BitVec 16 := 0
  substitutes : Bool := false
  substitute : BitVec 16 := 0
  reportStale : Bool := false
  reportInvalid : Bool := false
deriving DecidableEq, Repr

/-- Which filtered change is a wake edge (Table 1-5). -/
inductive WakeEdge where
  | rising | falling | either
deriving DecidableEq, Repr

/-- Profile fields of a discrete input (Table 1-5). -/
structure InputCfg where
  activeLow : Bool := false
  wake : Bool := false
  edge : WakeEdge := .rising
  debounce : Nat := 0
deriving DecidableEq, Repr

/-- Bit rate of a body line (Table 2-1). -/
inductive BitRate where
  | b9600 | b19200 | b38400 | b62500
deriving DecidableEq, Repr

/-- Profile settings of a body line (Table 2-1). `silence` is the code, 0 to 8. -/
structure LineCfg where
  rate : BitRate := .b9600
  gap : Nat := 1
  silence : Nat := 0
  wake : Bool := false
deriving DecidableEq, Repr

/-- Key and expected length of a used slot (Table 2-3). -/
structure SlotCfg where
  line : Line
  node : BitVec 5
  kind : BitVec 3
  length : Nat
deriving DecidableEq, Repr

/-- Profile fields of a door (Table 3-1). A binding is a signal index or unbound. -/
structure DoorCfg where
  present : Bool := false
  ramp : Bool := false
  controller : Option (Fin 256) := none
  closed : Option (Fin 256) := none
  locked : Option (Fin 256) := none
  rampOut : Option (Fin 256) := none
  tolerance : Nat := 0
  openTimeout : Nat := 500
  closeTimeout : Nat := 500
deriving DecidableEq, Repr

/-- The fault kinds (Table 8-1), in the order of their numbers in Table 12-5. -/
inductive FaultKind where
  | signalStale | signalInvalid | lineSilent | lineBreak | doorDisagree | doorSlowOpen | doorSlowClose
  | doorControllerFault | lampOpen | hostLost | profileBad | configMemory | supplyLow
deriving DecidableEq, Repr

/-- Condition of a warning with the fields its kind uses (Table 4-1). -/
inductive Condition where
  | unused
  | above (signal : Fin 256) (threshold : BitVec 16) (hysteresis : Nat)
  | below (signal : Fin 256) (threshold : BitVec 16) (hysteresis : Nat)
  | equal (signal : Fin 256) (threshold : BitVec 16)
  | qualityBad (signal : Fin 256)
  | doorOpen (mask : BitVec 8)
  | doorFault (mask : BitVec 8)
  | faultKind (kind : FaultKind)
  | hostSet
deriving DecidableEq, Repr

/-- Motion gate of a warning (Table 4-1). -/
inductive Gate where
  | always | whenMoving | whenStopped
deriving DecidableEq, Repr

/-- Class of a warning (Table 4-1). -/
inductive WarnClass where
  | stop | caution | info
deriving DecidableEq, Repr

/-- Chime pattern of a warning (Table 4-1). -/
inductive Pattern where
  | none | single | repeating | continuous
deriving DecidableEq, Repr

/-- Profile fields of a warning (Table 4-1). -/
structure WarnCfg where
  condition : Condition := .unused
  gate : Gate := .always
  onDelay : Nat := 0
  offDelay : Nat := 0
  cls : WarnClass := .stop
  priority : Nat := 0
  latching : Bool := false
  pattern : Pattern := .none
deriving DecidableEq, Repr

/-- A source of a telltale's function set (Table 5-2). -/
inductive LampSource where
  | warning (w : Fin 96)
  | signal (n : Fin 256)
  | doorAnyOpen
  | doorOpen (d : Fin 6)
  | hostRequest
  | hostLost
deriving DecidableEq, Repr

/-- Profile fields of a telltale (Table 5-1). -/
structure LampCfg where
  sources : List LampSource := []
  blinkUnack : Bool := false
  activeLow : Bool := false
  sensing : Bool := false
deriving DecidableEq, Repr

/-- Mode of a gauge, with what BOUND needs (Table 5-3). -/
inductive GaugeMode where
  | off
  | bound (signal : Fin 256) (rawZero rawFull : BitVec 16)
  | host
deriving DecidableEq, Repr

/-- Profile fields of a gauge (Table 5-3). -/
structure GaugeCfg where
  mode : GaugeMode := .off
  full : Nat := 1
  rate : Nat := 1
  park : Nat := 0
  overtravel : Nat := 0
deriving DecidableEq, Repr

/-- The profile as the blocks read it (Table 12-7), every number taken to its limit (R197). -/
structure Profile where
  identity : Word := 0
  version : BitVec 16 := 0
  address : Option Byte := none
  hrst : Bool := false
  supTimeout : Nat := 50
  lines : Table 3 LineCfg := Table.const 3 {}
  k : Word := 0
  reference : Option (Fin 256) := none
  movingThreshold : BitVec 16 := 0
  stopHold : Nat := 0
  ignition : Option (Fin 256) := none
  ackInput : Option (Fin 256) := none
  serviceSwitch : Option (Fin 256) := none
  parkingBrake : Option (Fin 256) := none
  confirm : Nat := 0
  heal : Nat := 0
  freeze : List (Fin 256) := []
  lampCheck : Nat := 0
  ignitionOff : Nat := 0
  slots : Table 64 (Option SlotCfg) := Table.const 64 none
  signals : Table 256 SignalCfg := Table.const 256 {}
  inputs : Table 24 InputCfg := Table.const 24 {}
  doors : Table 6 DoorCfg := Table.const 6 {}
  warnings : Table 96 WarnCfg := Table.const 96 {}
  lamps : Table 48 LampCfg := Table.const 48 {}
  gauges : Table 12 GaugeCfg := Table.const 12 {}
deriving DecidableEq, Repr

namespace Config

/-- The profile in use while none is in force: no source, slot, door, warning, telltale source or gauge in use (R191), and the
fault memory's confirm time 0, heal limit 0 and empty freeze list (R162). -/
def emptyProfile : Profile := {}

end Config

end Sys2Proof
end

