-- ==== Sys2Proof/Machine/State.lean ====
section
/-! DEFINITION. The state of the 460D as plain data, block by block (00 section 2), the outcomes a command cannot have, and the
state right after a POWER-ON reset. -/

namespace Sys2Proof.Machine

/-- Why a command would stop the machine. The spec gives every row an effect, a drop or nothing, so there is no reason to
stop: the type has no constructor. Safe: nothing is shut out. -/
inductive Fault
deriving DecidableEq, Repr

/-- Why a command would have no meaning in the model. -/
inductive Refusal where
  /-- Raised by exec's arm of a command that has no meaning yet. Safe: no next state is claimed. No arm raises it. -/
  | notModelled (mnemonic : String)
deriving DecidableEq, Repr

/-! ## Signal unit and input unit (01) -/

/-- Quality of a signal (Table 1-2). -/
inductive Quality where
  | never | good | invalid | stale | substituted
deriving DecidableEq, Repr

/-- Runtime fields of a signal entry (01 section 1.1). `due`: the age has passed the limit while GOOD or INVALID and the
staleness expiry has not been taken yet (R4). -/
structure Signal where
  value : BitVec 16 := 0
  quality : Quality := .never
  age : BitVec 16 := 0
  sequence : BitVec 8 := 0
  due : Bool := false
deriving DecidableEq, Repr

/-- Motion state (R16). -/
inductive Motion where
  | unknown | stopped | moving
deriving DecidableEq, Repr

/-- The signal table, the motion state and the hold timer. -/
structure SignalUnit where
  entries : Table 256 Signal := Table.const 256 {}
  motion : Motion := .unknown
  hold : Option Nat := none
deriving DecidableEq, Repr

/-- Filtered state of a discrete input (R10). -/
inductive Filtered where
  | unsettled | inactive | active
deriving DecidableEq, Repr

/-- A discrete input: its pin, its filter, and whether the filter was restarted by a wake resume and has not settled since (R23). -/
structure Input where
  high : Bool := false
  filtered : Filtered := .unsettled
  stable : Option Nat := none
  resettle : Bool := false
deriving DecidableEq, Repr

/-- The filters and the speed timer (R13): TIMING or WAITING, the count running or stopped, in units of 10 us. `edgeAt`: the units of the
present millisecond that had passed at the last edge taken in it (log entry 33). -/
structure InputUnit where
  inputs : Table 24 Input := Table.const 24 {}
  timing : Bool := false
  running : Bool := false
  count : Nat := 0
  edgeAt : Nat := 0
deriving DecidableEq, Repr

/-! ## Body lines and acceptance (02) -/

/-- Receive state of a line (02 section 2.3). -/
inductive Receive where
  | idle | hunt | headerSeen | data | check
deriving DecidableEq, Repr

/-- Line state (Table 2-4). -/
inductive LineState where
  | never | active | silent | broken
deriving DecidableEq, Repr

/-- Discard reasons (Table 2-2). -/
inductive Discard where
  | noise | framing | truncated | long | check | length | brk
deriving DecidableEq, Repr

/-- Counts of a line (Table 2-6). -/
structure LineCounts where
  accepted : BitVec 16 := 0
  ignored : BitVec 16 := 0
  noise : BitVec 16 := 0
  framing : BitVec 16 := 0
  truncated : BitVec 16 := 0
  long : BitVec 16 := 0
  check : BitVec 16 := 0
  length : BitVec 16 := 0
  brk : BitVec 16 := 0
  breaks : BitVec 16 := 0
  collisions : BitVec 16 := 0
deriving DecidableEq, Repr

/-- A line's receiver and monitor. `taken` holds the data characters of the frame in progress, first character first. -/
structure LineRx where
  receive : Receive := .idle
  node : BitVec 5 := 0
  kind : BitVec 3 := 0
  length : Nat := 0
  xor : Byte := 0
  taken : List Byte := []
  gap : Option Nat := none
  inChar : Bool := false
  hunting : Bool := false
  everAccepted : Bool := false
  silentMark : Bool := false
  broken : Bool := false
  silence : Option Nat := none
  counts : LineCounts := {}
deriving DecidableEq, Repr

/-- Owner of the shared receiver (02 section 2.4). -/
inductive Owner where
  | none | front | rear
deriving DecidableEq, Repr

/-- Runtime fields of a slot (Table 2-3). Byte b of the last data is bits 8b to 8b + 7 (R38). -/
structure Slot where
  data : BitVec 96 := 0
  arrivals : BitVec 16 := 0
  ever : Bool := false
deriving DecidableEq, Repr

/-- The receivers, the line monitors, the hold of the shared receiver and the acceptance table. `firstChar`: the owner's first
character of the hold has not completed (R34). -/
structure LineUnit where
  lines : Table 3 LineRx := Table.const 3 {}
  owner : Owner := .none
  collision : Bool := false
  firstChar : Bool := false
  slots : Table 64 Slot := Table.const 64 {}
deriving DecidableEq, Repr

/-! ## Door unit (03) -/

/-- State of a door (Table 3-2). -/
inductive DoorState where
  | unknown | closedLocked | closed | opening | opened | closing | reversing | fault
deriving DecidableEq, Repr

/-- Source of a door's state (Table 3-2). -/
inductive DoorSource where
  | none | controller | degraded
deriving DecidableEq, Repr

/-- Fault cause of a door (Table 3-2). -/
inductive DoorCause where
  | none | code | disagree | slowOpen | slowClose
deriving DecidableEq, Repr

/-- Purpose of a running door timer (R56, R58). -/
inductive DoorPurpose where
  | disagree | openMotion | closeMotion
deriving DecidableEq, Repr

/-- Runtime fields of a door (Table 3-2). -/
structure Door where
  state : DoorState := .unknown
  source : DoorSource := .none
  cause : DoorCause := .none
  timer : Option (DoorPurpose × Nat) := none
  countsOpen : Bool := false
  openCycles : BitVec 32 := 0
  obstructions : BitVec 32 := 0
deriving DecidableEq, Repr

/-- The door table and the door summary (R63). -/
structure DoorUnit where
  doors : Table 6 Door := Table.const 6 {}
  openCount : Nat := 0
  allLocked : Bool := false
deriving DecidableEq, Repr

/-! ## Warning unit (04) -/

/-- State of a warning (Table 4-2). -/
inductive WarnState where
  | inactive | pending | activeUnack | activeAck
deriving DecidableEq, Repr

/-- Purpose of a running delay timer (Table 4-2). -/
inductive DelayKind where
  | onDelay | offDelay
deriving DecidableEq, Repr

/-- Runtime fields of a warning (Table 4-2). -/
structure Warning where
  state : WarnState := .inactive
  raw : Bool := false
  present : Bool := false
  latched : Bool := false
  timer : Option (DelayKind × Nat) := none
  number : BitVec 8 := 0
  time : BitVec 32 := 0
  armed : Bool := false
  chimed : Bool := false
  hostSet : Bool := false
deriving DecidableEq, Repr

/-- Level of the ack input (R85). -/
inductive AckLevel where
  | unknown | low | high
deriving DecidableEq, Repr

/-- The warning table, the activation clock, the ack input's level and the void-ack count. -/
structure WarningUnit where
  rows : Table 96 Warning := Table.const 96 {}
  clock : BitVec 32 := 0
  ackLevel : AckLevel := .unknown
  voidAcks : BitVec 16 := 0
deriving DecidableEq, Repr

/-! ## Indication unit (05) -/

/-- Commanded state of a telltale (R97). -/
inductive LampState where
  | off | on | blink
deriving DecidableEq, Repr

/-- A telltale: commanded state, open-load timers and presence (R101), and the level its open-load sense reports. -/
structure Lamp where
  commanded : LampState := .off
  faultTimer : Option Nat := none
  clearTimer : Option Nat := none
  lampOpen : Bool := false
  senseOpen : Bool := false
deriving DecidableEq, Repr

/-- The blink clock (R99): stopped, or in its on-phase or off-phase for some ms. -/
inductive Blink where
  | stopped
  | onPhase (ms : Nat)
  | offPhase (ms : Nat)
deriving DecidableEq, Repr

/-- State of a gauge (R104). -/
inductive GaugeState where
  | unhomed | homing | ready | parked | test
deriving DecidableEq, Repr

/-- Sweep phase of a gauge in TEST (R110). -/
inductive Sweep where
  | down | up | back
deriving DecidableEq, Repr

/-- Runtime fields of a gauge (05 section 5.5). `moving`: a movement's arrival is still to be taken (R106). `shown`: the position
of the last arrival or state change, which is what the actual word carries (R111). -/
structure Gauge where
  state : GaugeState := .unhomed
  position : Nat := 0
  target : Nat := 0
  requested : Nat := 0
  sweep : Option Sweep := none
  homing : Option Nat := none
  moving : Bool := false
  shown : Nat := 0
deriving DecidableEq, Repr

/-- Where the pattern of the selected warning stands (R113); the ms of REPEAT count from the start of its period. -/
inductive ChimePhase where
  | silent
  | singleTone (ms : Nat)
  | repeatTone (ms : Nat)
  | repeatSilence (ms : Nat)
  | steady
deriving DecidableEq, Repr

/-- Phase of the CHIME output test (R114): the tone of 300 ms, the REPEAT pattern for 3 s, the steady tone for 1 s. -/
inductive ChimeTest where
  | tone (ms : Nat)
  | repeated (ms : Nat)
  | steady (ms : Nat)
deriving DecidableEq, Repr

/-- The chime arbiter (R112 to R114). -/
structure Chime where
  selection : Option (Fin 96) := none
  phase : ChimePhase := .silent
  test : Option ChimeTest := none
deriving DecidableEq, Repr

/-- Telltales, gauges and chime. -/
structure IndicationUnit where
  lamps : Table 48 Lamp := Table.const 48 {}
  blink : Blink := .stopped
  requestLow : Word := 0
  requestHigh : Word := 0
  lampCheck : Option Nat := none
  gauges : Table 12 Gauge := Table.const 12 {}
  chime : Chime := {}
deriving DecidableEq, Repr

/-! ## Memory path (06) -/

/-- Attention causes, in the order of their bits (Table 12-2). -/
inductive Cause where
  | warning | door | fault | command | host | tester | profile | updateOverflow | protection | wake
deriving DecidableEq, Repr

/-- Result values (Table 6-2). -/
inductive ResultValue where
  | idle | inProgress | done | refused
deriving DecidableEq, Repr

/-- Reasons of a refused command (Table 6-2). -/
inductive Reason where
  | none | busy | notAllowed | badCode | profileInvalid | memoryError
deriving DecidableEq, Repr

/-- The result word's items (06 section 6.6). -/
structure Result where
  value : ResultValue := .idle
  code : Byte := 0
  reason : Reason := .none
deriving DecidableEq, Repr

/-- A host access that needs SRAM, as host forwarding requests the M-port for it (R129): a read with the word that it returns, which is
the word as it stood when the read was taken (R120), or a write of the enabled lanes of a word at a byte address. -/
inductive Forwarded where
  | read (word : Word)
  | write (addr : Nat) (word : Word) (lanes : BitVec 4)
deriving DecidableEq, Repr

/-- A host access that the P-port holds until the arbiter grants it the M-port: a captured write (R122), or a forwarded access that
found the M-port taken (R129). -/
inductive HeldAccess where
  | signal (n : Fin 256) (word : Word)
  | gauge (g : Fin 12) (word : Word)
  | forwarded (access : Forwarded)
deriving DecidableEq, Repr

/-- A captured write, whose grant is a row of its own. -/
def HeldAccess.captured : HeldAccess → Bool
  | .signal _ _ => true
  | .gauge _ _ => true
  | .forwarded _ => false

/-- The memory path. Offsets are byte offsets from the window base. `awaited` is none while no image initialisation runs, and
otherwise the offsets that left the resync set, or were kept in flight, and whose write is still to complete (R128). -/
structure MemoryPath where
  straps : BitVec 2 := 0
  windowOpen : Bool := false
  queue : List (Nat × Word) := []
  resync : List Nat := []
  inFlight : Option (Nat × Word) := none
  urgent : Bool := false
  awaited : Option (List Nat) := none
  held : Option HeldAccess := none
  readData : Word := 0
  command : Option Byte := none
  result : Result := {}
  violations : BitVec 16 := 0
  overruns : BitVec 16 := 0
  attnPending : BitVec 10 := 0
  attnEnable : BitVec 10 := 0
deriving DecidableEq, Repr

/-! ## Host supervision unit (07) -/

/-- Supervision state (Table 7-1). -/
inductive SupState where
  | starting | normal | lost
deriving DecidableEq, Repr

/-- Purpose of the running supervision timer (Table 7-1). -/
inductive SupTimer where
  | grace | timeout
deriving DecidableEq, Repr

/-- State of the host supervision unit (Table 7-1). HRST is asserted while the pulse timer runs. -/
structure Supervision where
  state : SupState := .starting
  reference : Option Byte := none
  timer : Option (SupTimer × Nat) := none
  run : Nat := 0
  pulse : Option Nat := none
  spent : Bool := false
deriving DecidableEq, Repr

/-! ## Fault memory (08) -/

/-- A fault code: a kind and a subject (08 section 8.1). -/
structure FaultCode where
  kind : FaultKind
  subject : Byte
deriving DecidableEq, Repr

/-- State of a record (Table 8-2). -/
inductive RecordState where
  | pending | active | passive
deriving DecidableEq, Repr

/-- A moment: drive cycle and ms in cycle (08 section 8.3). -/
structure Moment where
  cycle : BitVec 24
  ms : BitVec 32
deriving DecidableEq, Repr

/-- A signal entry of a freeze frame (R154). -/
structure FreezeEntry where
  signal : Byte
  value : BitVec 16
  quality : Quality
deriving DecidableEq, Repr

/-- A freeze frame; its drive cycle and time are those of first seen (R154). -/
structure Frame where
  motion : Motion
  openCount : Nat
  entries : List FreezeEntry
deriving DecidableEq, Repr

/-- A fault record (Table 8-2). -/
structure Record where
  code : FaultCode
  state : RecordState := .pending
  occurrence : Byte := 0
  healing : Byte := 0
  first : Option Moment := none
  last : Option Moment := none
  frame : Option Frame := none
  timer : Option Nat := none
  seen : Bool := true
deriving DecidableEq, Repr

/-- Who requested the clear in progress (R160). -/
inductive Requester where
  | command | service
deriving DecidableEq, Repr

/-- The fault memory. -/
structure FaultMemory where
  present : List FaultCode := []
  records : Table 32 (Option Record) := Table.const 32 none
  overflow : BitVec 16 := 0
  full : Bool := false
  clearing : Bool := false
  outstanding : List (Fin 32) := []
  requester : Option Requester := none
  writeQueue : List (Fin 32) := []
  loaded : Bool := false
  heldReports : List FaultCode := []
deriving DecidableEq, Repr

/-! ## Service unit (09) -/

/-- Line state of the service unit (09 section 9.1). -/
inductive ServiceState where
  | idle | receiving | skip | reply
deriving DecidableEq, Repr

/-- The output tests (09 section 9.4). -/
inductive TestKind where
  | none | lamp | gaugeSweep | chime
deriving DecidableEq, Repr

/-- Outcome of the last test (R177). -/
inductive TestOutcome where
  | none | completed | stopped | levelLost | stopWarning | mode | restart
deriving DecidableEq, Repr

/-- The service unit. `freeUses` counts the free values used (log entry 14). `wakeChar`: the character whose start edge woke the
device is still on the wire; it is not received (R178, log entry 39). -/
structure ServiceUnit where
  line : ServiceState := .idle
  received : List Byte := []
  gap : Option Nat := none
  response : List Byte := []
  sent : Nat := 0
  transmitting : Bool := false
  wakeChar : Bool := false
  turnaround : Option Nat := none
  address : Option Byte := none
  testerActive : Bool := false
  testerTimer : Option Nat := none
  switchOn : Bool := false
  standing : Bool := false
  brakeOn : Bool := false
  level : Bool := false
  test : TestKind := .none
  testDuration : Nat := 0
  testTimer : Option Nat := none
  lastOutcome : TestOutcome := .none
  echoLosses : BitVec 16 := 0
  freeUses : Nat := 0
deriving DecidableEq, Repr

/-! ## Mode unit (10) -/

/-- Operating mode (10). -/
inductive Mode where
  | start | run | parking | parked
deriving DecidableEq, Repr

/-- The ignition as judged (R180). -/
inductive Ignition where
  | unknown | off | on
deriving DecidableEq, Repr

/-- A set of wake kinds (10 section 10). -/
structure WakeSet where
  ignition : Bool := false
  input : Bool := false
  service : Bool := false
  front : Bool := false
deriving DecidableEq, Repr

/-- The reset cause set (R190). -/
structure ResetCauses where
  powerOn : Bool := false
  pin : Bool := false
  supplyLow : Bool := false
deriving DecidableEq, Repr

/-- The mode unit. `inReset`: the cause of the last full reset still lasts (R190). -/
structure ModeUnit where
  mode : Mode := .start
  inReset : Bool := true
  cycleOpen : Bool := false
  cycle : BitVec 24 := 0
  time : BitVec 32 := 0
  ignition : Ignition := .unknown
  offTimer : Option Nat := none
  wakePending : WakeSet := {}
  wakeCause : WakeSet := {}
  causes : ResetCauses := {}
deriving DecidableEq, Repr

/-! ## Configuration memory controller (11) -/

/-- The operation that the controller has in progress (R187). `counts`: the write of a slot was begun after the clear in progress
was taken (R161). A store's write number 0 is the marked page 0, numbers 1 to pages - 1 are those pages, and number `pages` is
the true page 0 (R192); `storeRead`: the page of that write is still to be read from the staging area (R129, R192). -/
inductive Operation where
  | none
  | startProfileRead
  | startCountersRead
  | startSlotsRead
  | restartRead
  | countersWrite (snapshot : List Byte) (retried : Bool)
  | slotWrite (slot : Fin 32) (snapshot : List Byte) (retried : Bool) (counts : Bool)
  | storeRead (profile : Profile) (pages : Nat) (number : Nat)
  | storeWrite (profile : Profile) (pages : Nat) (number : Nat) (snapshot : List Byte) (retried : Bool)
  | storeAbort (snapshot : List Byte)
deriving DecidableEq, Repr

/-- A profile store in progress (R192). -/
inductive Store where
  | none
  | validating
  | waiting (profile : Profile) (pages : Nat)
  | writing
deriving DecidableEq, Repr

/-- The configuration memory controller. `torn` lists the 64-byte pages whose write a reset cut off (R190). -/
structure Controller where
  operation : Operation := .none
  countersPending : Bool := false
  store : Store := .none
  restartWaiting : Bool := false
  torn : List Nat := []
deriving DecidableEq, Repr

/-- What is in force (R191). -/
inductive ProfStatus where
  | notYet | inForce | noProfile
deriving DecidableEq, Repr

/-! ## The whole machine -/

/-- The state of the 460D with its two memories and the queue of commands that are waiting. -/
structure State where
  pending : List Instr := []
  profile : Profile := Config.emptyProfile
  profStatus : ProfStatus := .notYet
  loadBuffer : Option Profile := none
  sig : SignalUnit := {}
  inp : InputUnit := {}
  rx : LineUnit := {}
  door : DoorUnit := {}
  warn : WarningUnit := {}
  ind : IndicationUnit := {}
  path : MemoryPath := {}
  sup : Supervision := {}
  fm : FaultMemory := {}
  svc : ServiceUnit := {}
  mode : ModeUnit := {}
  ctrl : Controller := {}
  sram : List Host.Cell := []
  cfg : List Host.Cell := []
deriving DecidableEq, Repr

/-- The machine right after a POWER-ON reset, its cause still lasting (R190): every block as its chapter gives it after a full
reset, no memory written, no command waiting (log entry 5). -/
def State.reset : State :=
  { mode := { causes := { powerOn := true } } }

end Sys2Proof.Machine
end

