-- ==== Sys2Proof/Machine/Flags.lean ====
section
/-! DEFINITION. Flags and encodings: the numbers of chapter 12 for every enumerated field, the flags that are functions of the
state (line state, display order, telltale pins, ATN), and the image word of every window offset. -/

namespace Sys2Proof

/-- Number of a line: 0 FRONT, 1 REAR, 2 DRIVE (12.2). -/
def Line.toFin : Line → Fin 3
  | .front => 0
  | .rear => 1
  | .drive => 2

/-- Number of a fault kind (Table 12-5). -/
def FaultKind.toNat : FaultKind → Nat
  | .signalStale => 1
  | .signalInvalid => 2
  | .lineSilent => 3
  | .lineBreak => 4
  | .doorDisagree => 5
  | .doorSlowOpen => 6
  | .doorSlowClose => 7
  | .doorControllerFault => 8
  | .lampOpen => 9
  | .hostLost => 10
  | .profileBad => 11
  | .configMemory => 12
  | .supplyLow => 13

/-- Fault kind of a number, 1 to 13 (Table 12-5). -/
def FaultKind.ofNat? : Nat → Option FaultKind
  | 1 => some .signalStale
  | 2 => some .signalInvalid
  | 3 => some .lineSilent
  | 4 => some .lineBreak
  | 5 => some .doorDisagree
  | 6 => some .doorSlowOpen
  | 7 => some .doorSlowClose
  | 8 => some .doorControllerFault
  | 9 => some .lampOpen
  | 10 => some .hostLost
  | 11 => some .profileBad
  | 12 => some .configMemory
  | 13 => some .supplyLow
  | _ => none

/-- Number of a warning class (Table 12-1). -/
def WarnClass.toNat : WarnClass → Nat
  | .stop => 0
  | .caution => 1
  | .info => 2

end Sys2Proof

namespace Sys2Proof.Machine

/-- Signal encoding of a quality (Table 12-1). -/
def Quality.toNat : Quality → Nat
  | .never => 0
  | .good => 1
  | .invalid => 2
  | .stale => 3
  | .substituted => 4

/-- Quality of a number (Table 12-1); a number not listed reads as NEVER (log entry 31). -/
def Quality.decode : Nat → Quality
  | 1 => .good
  | 2 => .invalid
  | 3 => .stale
  | 4 => .substituted
  | _ => .never

/-- "GOOD or SUBSTITUTED", what R52, R72, R96 and R107 call usable. -/
def Quality.usable : Quality → Bool
  | .good => true
  | .substituted => true
  | .never => false
  | .invalid => false
  | .stale => false

/-- Status encoding of the motion state (Table 12-3). -/
def Motion.toNat : Motion → Nat
  | .unknown => 0
  | .stopped => 1
  | .moving => 2

/-- Motion state of a number (Table 12-3); 3 reads as UNKNOWN (log entry 31). -/
def Motion.decode : Nat → Motion
  | 1 => .stopped
  | 2 => .moving
  | _ => .unknown

/-- Line state encoding (Table 12-4). -/
def LineState.toNat : LineState → Nat
  | .never => 0
  | .active => 1
  | .silent => 2
  | .broken => 3

/-- Door state encoding (Table 12-1). -/
def DoorState.toNat : DoorState → Nat
  | .unknown => 0
  | .closedLocked => 1
  | .closed => 2
  | .opening => 3
  | .opened => 4
  | .closing => 5
  | .reversing => 6
  | .fault => 7

/-- Door source encoding (Table 12-1). -/
def DoorSource.toNat : DoorSource → Nat
  | .none => 0
  | .controller => 1
  | .degraded => 2

/-- Door fault cause encoding (Table 12-1). -/
def DoorCause.toNat : DoorCause → Nat
  | .none => 0
  | .code => 1
  | .disagree => 2
  | .slowOpen => 3
  | .slowClose => 4

/-- Warning state encoding (Table 12-1). -/
def WarnState.toNat : WarnState → Nat
  | .inactive => 0
  | .pending => 1
  | .activeUnack => 2
  | .activeAck => 3

/-- Gauge state encoding (Table 12-2). -/
def GaugeState.toNat : GaugeState → Nat
  | .unhomed => 0
  | .homing => 1
  | .ready => 2
  | .parked => 3
  | .test => 4

/-- Result value encoding (Table 12-2). -/
def ResultValue.toNat : ResultValue → Nat
  | .idle => 0
  | .inProgress => 1
  | .done => 2
  | .refused => 3

/-- Refusal reason encoding (Table 12-2). -/
def Reason.toNat : Reason → Nat
  | .none => 0
  | .busy => 1
  | .notAllowed => 2
  | .badCode => 3
  | .profileInvalid => 4
  | .memoryError => 5

/-- Bit of an attention cause (Table 12-2). -/
def Cause.bit : Cause → Nat
  | .warning => 0
  | .door => 1
  | .fault => 2
  | .command => 3
  | .host => 4
  | .tester => 5
  | .profile => 6
  | .updateOverflow => 7
  | .protection => 8
  | .wake => 9

/-- The set holding one attention cause. -/
def Cause.mask (c : Cause) : BitVec 10 := 1#10 <<< c.bit

/-- Mode encoding (Table 12-3). -/
def Mode.toNat : Mode → Nat
  | .start => 0
  | .run => 1
  | .parking => 2
  | .parked => 3

/-- Supervision encoding (Table 12-3). -/
def SupState.toNat : SupState → Nat
  | .starting => 0
  | .normal => 1
  | .lost => 2

/-- Running-test encoding (Table 12-3). -/
def TestKind.toNat : TestKind → Nat
  | .none => 0
  | .lamp => 1
  | .gaugeSweep => 2
  | .chime => 3

/-- Last-outcome encoding (Table 12-6). -/
def TestOutcome.toNat : TestOutcome → Nat
  | .none => 0
  | .completed => 1
  | .stopped => 2
  | .levelLost => 3
  | .stopWarning => 4
  | .mode => 5
  | .restart => 6

/-- Record state encoding (Table 12-5). -/
def RecordState.toNat : RecordState → Nat
  | .pending => 1
  | .active => 2
  | .passive => 3

/-- Wake kinds as the four bits 21-18 of the status word, IGNITION lowest (Table 12-3). -/
def WakeSet.toNat (w : WakeSet) : Nat :=
  w.ignition.toNat + 2 * w.input.toNat + 4 * w.service.toNat + 8 * w.front.toNat

/-- Reset causes as the three bits 24-22 of the status word, POWER_ON lowest (Table 12-3). -/
def ResetCauses.toNat (c : ResetCauses) : Nat :=
  c.powerOn.toNat + 2 * c.pin.toNat + 4 * c.supplyLow.toNat

/-! ## Flags that are functions of the state -/

/-- Line state (Table 2-4). -/
def LineRx.state (l : LineRx) : LineState :=
  if l.broken then .broken
  else if l.silentMark then .silent
  else if l.everAccepted then .active
  else .never

/-- HEADER-SEEN, DATA and CHECK are the frame states (02 section 2.3). -/
def Receive.inFrame : Receive → Bool
  | .headerSeen => true
  | .data => true
  | .check => true
  | .idle => false
  | .hunt => false

/-- A warning in ACTIVE_UNACK or ACTIVE_ACK. -/
def WarnState.isActive : WarnState → Bool
  | .activeUnack => true
  | .activeAck => true
  | .inactive => false
  | .pending => false

/-- A gauge is homed while it is READY, PARKED or TEST (R104). -/
def GaugeState.homed : GaugeState → Bool
  | .ready => true
  | .parked => true
  | .test => true
  | .unhomed => false
  | .homing => false

/-- A profile is in force. -/
def State.inForce (s : State) : Bool := s.profStatus = .inForce

/-- The value of a signal entry. -/
def State.value (s : State) (n : Fin 256) : BitVec 16 := (s.sig.entries.get n).value

/-- The quality of a signal entry. -/
def State.quality (s : State) (n : Fin 256) : Quality := (s.sig.entries.get n).quality

/-- A bound signal that is GOOD and nonzero: the conditions of R174, the ignition of R180, the ramp of R63. -/
def State.goodNonzero (s : State) : Option (Fin 256) → Bool
  | none => false
  | some n => s.quality n = .good && s.value n ≠ 0

/-- The lexicographic key of R87 as one number: class, ACTIVE_UNACK before ACTIVE_ACK, higher priority, earlier activation
time, lower index. -/
def displayKey (cfg : WarnCfg) (w : Warning) (i : Fin 96) : Nat :=
  (((cfg.cls.toNat * 2 + (if w.state = .activeUnack then 0 else 1)) * 256 + (255 - cfg.priority)) * 2 ^ 32
    + w.time.toNat) * 96 + i.val

/-- Insertion in ascending order of a key. -/
def insertByKey {α : Type} (key : α → Nat) (x : α) : List α → List α
  | [] => [x]
  | y :: ys => if key x ≤ key y then x :: y :: ys else y :: insertByKey key x ys

/-- A list in ascending order of a key. -/
def sortByKey {α : Type} (key : α → Nat) : List α → List α
  | [] => []
  | x :: xs => insertByKey key x (sortByKey key xs)

/-- The display order (R87): the active warnings, first in the order first. -/
def State.displayOrder (s : State) : List (Fin 96) :=
  sortByKey (fun i => displayKey (s.profile.warnings.get i) (s.warn.rows.get i) i)
    (s.warn.rows.indices (fun w => w.state.isActive))

/-- ATN is asserted while an enabled cause is pending (R132). -/
def State.atn (s : State) : Bool := s.path.attnPending &&& s.path.attnEnable ≠ 0

/-- HRST is asserted while its pulse runs (R144). -/
def State.hrst (s : State) : Bool := s.sup.pulse.isSome

/-- A telltale is driven while ON, or while BLINK in the on-phase (R100). -/
def lampDriven (b : Blink) (l : Lamp) : Bool :=
  match l.commanded with
  | .on => true
  | .off => false
  | .blink =>
    match b with
    | .onPhase _ => true
    | .offPhase _ => false
    | .stopped => false

/-- Level of a telltale pin, high or low (R100). -/
def State.lampPin (s : State) (t : Fin 48) : Bool :=
  (lampDriven s.ind.blink (s.ind.lamps.get t)) != (s.profile.lamps.get t).activeLow

/-- Whether the chime output sounds (R113, R114). -/
def Chime.sounding (c : Chime) : Bool :=
  match c.test with
  | some (.tone _) => true
  | some (.repeated ms) => ms % Config.repeatMs < Config.toneMs
  | some (.steady _) => true
  | none =>
    match c.phase with
    | .silent => false
    | .singleTone _ => true
    | .repeatTone _ => true
    | .repeatSilence _ => false
    | .steady => true

/-! ## Window words (Tables 12-1 to 12-5) -/

/-- A number placed at a bit position of a word. -/
def field (lo v : Nat) : Word := BitVec.ofNat 32 (v * 2 ^ lo)

/-- A flag placed at a bit position of a word. -/
def flag (lo : Nat) (b : Bool) : Word := field lo b.toNat

/-- Signal cell word (Table 12-1). -/
def signalWord (e : Signal) : Word :=
  field 0 e.value.toNat ||| field 16 e.quality.toNat ||| field 24 e.sequence.toNat

/-- Door state word (Table 12-1). -/
def doorStateWord (d : Door) : Word :=
  field 0 d.state.toNat ||| field 4 d.source.toNat ||| field 8 d.cause.toNat ||| flag 12 d.countsOpen

/-- Word k of a door cell (R65). -/
def doorWord (d : Door) : Nat → Word
  | 0 => doorStateWord d
  | 2 => d.openCycles
  | 3 => d.obstructions
  | _ => 0

/-- Warning cell word (Table 12-1). -/
def warningWord (w : Warning) : Word :=
  field 0 w.state.toNat ||| flag 4 w.present ||| flag 5 w.latched ||| flag 6 w.hostSet ||| field 8 w.number.toNat

/-- Display-list entry k; the empty marker is 0 (R88, Table 12-1). -/
def State.displayWord (s : State) (k : Nat) : Word :=
  match s.displayOrder[k]? with
  | none => 0
  | some i =>
    let w := s.warn.rows.get i
    field 0 i.val ||| field 8 (s.profile.warnings.get i).cls.toNat ||| flag 10 (w.state = .activeAck) |||
      flag 11 w.present ||| flag 15 true

/-- Gauge actual word (R111, Table 12-2). -/
def gaugeActualWord (g : Gauge) : Word :=
  field 0 (if g.state.homed then g.shown else 0) ||| field 16 g.state.toNat

/-- Gauge target word (R111, Table 12-2). -/
def gaugeTargetWord (g : Gauge) : Word := field 0 g.requested

/-- Result word (Table 12-2). -/
def resultWord (r : Result) : Word :=
  field 0 r.value.toNat ||| field 8 r.code.toNat ||| field 16 r.reason.toNat

/-- Status word (Tables 6-4 and 12-3). -/
def State.statusWord (s : State) : Word :=
  flag 0 s.path.windowOpen ||| field 1 s.mode.mode.toNat ||| flag 3 s.inForce ||| field 4 s.sig.motion.toNat |||
  field 6 s.door.openCount ||| flag 9 s.door.allLocked ||| field 10 s.sup.state.toNat ||| flag 12 s.svc.testerActive |||
  flag 13 s.svc.level ||| field 14 s.svc.test.toNat ||| flag 16 s.fm.full ||| flag 17 s.fm.clearing |||
  field 18 s.mode.wakeCause.toNat ||| field 22 s.mode.causes.toNat

/-- Count word at 0x06A8: protection violations and void ACKs (R136). -/
def State.countWordA (s : State) : Word := field 0 s.path.violations.toNat ||| field 16 s.warn.voidAcks.toNat

/-- Count word at 0x06AC: command overruns and fault overflows (R136). -/
def State.countWordB (s : State) : Word := field 0 s.path.overruns.toNat ||| field 16 s.fm.overflow.toNat

/-- Two 16-bit counts in one word. -/
def countPair (lo hi : BitVec 16) : Word := field 0 lo.toNat ||| field 16 hi.toNat

/-- Word k of a line cell (Table 12-4); the collision field of DRIVE reads 0 because nothing raises its count (R36). -/
def lineWord (l : LineRx) : Nat → Word
  | 0 => field 0 l.state.toNat ||| flag 2 l.hunting
  | 1 => countPair l.counts.accepted l.counts.ignored
  | 2 => countPair l.counts.noise l.counts.framing
  | 3 => countPair l.counts.truncated l.counts.long
  | 4 => countPair l.counts.check l.counts.length
  | 5 => countPair l.counts.brk l.counts.breaks
  | 6 => countPair l.counts.collisions 0
  | _ => 0

/-- Ever-received flags of 32 slots from slot `base` on (Table 12-4). -/
def LineUnit.everWord (u : LineUnit) (base : Nat) : Word :=
  ((List.range 32).filter (fun k => ((u.slots.get? (base + k)).map Slot.ever).getD false)).foldl
    (fun w k => w ||| field k 1) 0

/-- Arrival-count word k of the line statistics region (Table 12-4). -/
def LineUnit.arrivalWord (u : LineUnit) (k : Nat) : Word :=
  countPair (((u.slots.get? (2 * k)).map Slot.arrivals).getD 0)
    (((u.slots.get? (2 * k + 1)).map Slot.arrivals).getD 0)

/-- Freeze entry word (Table 12-5). -/
def freezeWord (e : FreezeEntry) : Word :=
  field 0 e.value.toNat ||| field 16 e.signal.toNat ||| field 24 e.quality.toNat

/-- The two words of a moment, 0 while absent (Table 12-5). -/
def momentCycle (m : Option Moment) : Word := (m.map (fun x => x.cycle.setWidth 32)).getD 0

/-- Milliseconds of a moment, 0 while absent (Table 12-5). -/
def momentMs (m : Option Moment) : Word := (m.map Moment.ms).getD 0

/-- Word k of a record cell, 0 to 14; an empty slot shows zeros (R157, Table 12-5). -/
def recordWord (r : Option Record) (k : Nat) : Word :=
  match r with
  | none => 0
  | some r =>
    match k with
    | 0 => field 0 r.code.kind.toNat ||| field 8 r.code.subject.toNat ||| field 16 r.state.toNat ||| flag 24 r.frame.isSome
    | 1 => field 0 r.occurrence.toNat ||| field 8 r.healing.toNat
    | 2 => momentCycle r.first
    | 3 => momentMs r.first
    | 4 => momentCycle r.last
    | 5 => momentMs r.last
    | 6 =>
      match r.frame with
      | none => 0
      | some f => field 0 f.motion.toNat ||| field 4 f.openCount ||| field 8 f.entries.length
    | 7 | 8 | 9 | 10 =>
      match r.frame with
      | none => 0
      | some f =>
        match f.entries[k - 7]? with
        | none => 0
        | some e => freezeWord e
    | _ => 0

/-! ## Window offsets (Table 6-1) -/

def offDoor (d : Fin 6) (k : Nat) : Nat := 0x0400 + 16 * d.val + 4 * k
def offSignal (n : Fin 256) : Nat := 4 * n.val
def offWarning (w : Fin 96) : Nat := 0x0480 + 4 * w.val
def offDisplay (k : Nat) : Nat := 0x0600 + 4 * k
def offGaugeTarget (g : Fin 12) : Nat := 0x0620 + 8 * g.val
def offGaugeActual (g : Fin 12) : Nat := 0x0624 + 8 * g.val
def offCommand : Nat := 0x0690
def offResult : Nat := 0x0694
def offSummary : Nat := 0x0698
def offEnable : Nat := 0x069C
def offAlive : Nat := 0x06A0
def offStatus : Nat := 0x06A4
def offCountA : Nat := 0x06A8
def offCountB : Nat := 0x06AC
def offLine (l : Fin 3) (k : Nat) : Nat := 0x0700 + 32 * l.val + 4 * k
def offEver (s : Fin 64) : Nat := if s.val < 32 then 0x0760 else 0x0764
def offArrival (s : Fin 64) : Nat := 0x0780 + 4 * (s.val / 2)
def offRecord (n : Fin 32) (k : Nat) : Nat := 0x0800 + 64 * n.val + 4 * k
def offStaging : Nat := 0x2000

/-- The image words of the window: those of Table 6-1, 988 in all. -/
def isImageOffset (off : Nat) : Bool :=
  off % 4 = 0 &&
    (off < 0x0460 || (0x0480 ≤ off && off < 0x0680) || off = offResult || off = offStatus || off = offCountA ||
      off = offCountB || (0x0700 ≤ off && off < 0x1000))

/-- Every image word, lowest offset first. -/
def imageOffsets : List Nat := ((List.range 1024).map (4 * ·)).filter isImageOffset

/-- The word of an image offset, composed from the owners' live state as it stands (R120, chapter 12). -/
def State.imageWord (s : State) (off : Nat) : Word :=
  if off < 0x0400 then ((s.sig.entries.get? (off / 4)).map signalWord).getD 0
  else if off < 0x0460 then
    ((s.door.doors.get? ((off - 0x0400) / 16)).map (fun d => doorWord d ((off - 0x0400) % 16 / 4))).getD 0
  else if off < 0x0480 then 0
  else if off < 0x0600 then ((s.warn.rows.get? ((off - 0x0480) / 4)).map warningWord).getD 0
  else if off < 0x0620 then s.displayWord ((off - 0x0600) / 4)
  else if off < 0x0680 then
    ((s.ind.gauges.get? ((off - 0x0620) / 8)).map
      (fun g => if (off - 0x0620) % 8 < 4 then gaugeTargetWord g else gaugeActualWord g)).getD 0
  else if off = offResult then resultWord s.path.result
  else if off = offStatus then s.statusWord
  else if off = offCountA then s.countWordA
  else if off = offCountB then s.countWordB
  else if off < 0x0700 then 0
  else if off < 0x0760 then
    ((s.rx.lines.get? ((off - 0x0700) / 32)).map (fun l => lineWord l ((off - 0x0700) % 32 / 4))).getD 0
  else if off = 0x0760 then s.rx.everWord 0
  else if off = 0x0764 then s.rx.everWord 32
  else if off < 0x0780 then 0
  else if off < 0x0800 then s.rx.arrivalWord ((off - 0x0780) / 4)
  else if off < 0x1000 then
    ((s.fm.records.get? ((off - 0x0800) / 64)).map (fun r => recordWord r ((off - 0x0800) % 64 / 4))).getD 0
  else 0

end Sys2Proof.Machine
end

