-- ==== Sys2Proof/Machine/Operands.lean ====
section
/-! DEFINITION. Operand forms: what a receiver makes of samples, the field of a LINE signal, the speed value, a service
character, the words the host writes, the position a BOUND gauge shows, and the numbers of a response. -/

namespace Sys2Proof

/-- Majority of three samples (R24). -/
def Samples.majority (x : Samples) : Bool := (x.a && x.b) || (x.a && x.c) || (x.b && x.c)

/-- The three samples agree (R24). -/
def Samples.agree (x : Samples) : Bool := x.a == x.b && x.b == x.c

/-- Three equal samples. -/
def Samples.all (b : Bool) : Samples := ⟨b, b, b⟩

/-- The data bits, least significant first. -/
def CharSamples.dataBits (c : CharSamples) : List Samples := [c.d0, c.d1, c.d2, c.d3, c.d4, c.d5, c.d6, c.d7]

/-- A character is noisy when the three samples of any bit, start and stop bits included, do not all agree (R24). -/
def CharSamples.noisy (c : CharSamples) : Bool :=
  !(([c.start] ++ c.dataBits ++ [c.mark, c.stop]).all Samples.agree)

/-- A character whose stop bit has a low majority and whose line returned high in time is a framing-error character (R25). -/
def CharSamples.framing (c : CharSamples) : Bool := !c.stop.majority

/-- A start bit with a high majority makes the edge a false start (R24). -/
def CharSamples.falseStart (c : CharSamples) : Bool := c.start.majority

/-- Neither noisy nor a framing-error character (R27). -/
def CharSamples.clean (c : CharSamples) : Bool := !c.noisy && !c.framing

/-- The data bits by majority, least significant first (R24). -/
def CharSamples.byte (c : CharSamples) : Byte :=
  c.dataBits.foldr (fun x b => (b <<< 1) ||| (if x.majority then 1 else 0)) 0

/-- The samples of a clean character with given data bits and mark bit. -/
def CharSamples.ofByte (b : Byte) (mark : Bool) : CharSamples :=
  { start := .all false
    d0 := .all (b.getLsbD 0)
    d1 := .all (b.getLsbD 1)
    d2 := .all (b.getLsbD 2)
    d3 := .all (b.getLsbD 3)
    d4 := .all (b.getLsbD 4)
    d5 := .all (b.getLsbD 5)
    d6 := .all (b.getLsbD 6)
    d7 := .all (b.getLsbD 7)
    mark := .all mark
    stop := .all true }

/-- Number of ones among the data bits. -/
def onesOf (b : Byte) : Nat := ((List.range 8).filter (fun i => b.getLsbD i)).length

/-- A service character is good when its stop bit is high and the number of ones among data and parity bits is even (R165). -/
def ServiceChar.good (c : ServiceChar) : Bool := c.stop && (onesOf c.data + c.parity.toNat) % 2 = 0

/-- The good service character carrying a byte. -/
def ServiceChar.ofByte (b : Byte) : ServiceChar := ⟨b, onesOf b % 2 = 1, true⟩

/-- Exclusive-or of a frame's characters (R166). -/
def xorAll (l : List Byte) : Byte := l.foldl (· ^^^ ·) 0

end Sys2Proof

namespace Sys2Proof.Machine

/-- The field of a LINE signal (R38): bits `start` to `start + length - 1` of the slot's data, unsigned clamped to 32 767 or
two's complement. -/
def lineField (data : BitVec 96) (start length : Nat) (signed : Bool) : BitVec 16 :=
  let raw := data.toNat / 2 ^ start % 2 ^ length
  if signed then
    if 0 < length ∧ 2 ^ (length - 1) ≤ raw then BitVec.ofInt 16 ((raw : Int) - 2 ^ length) else BitVec.ofNat 16 raw
  else BitVec.ofNat 16 (min raw 32767)

/-- The last data of a slot from a frame's data characters; bytes beyond them are 0 (R37). -/
def packData (bytes : List Byte) : BitVec 96 :=
  BitVec.ofNat 96 (bytes.foldr (fun b acc => b.toNat + 256 * acc) 0)

/-- The speed value of a period (R15): K divided by the period, clamped to 32 767. -/
def speedValue (k : Word) (period : Nat) : BitVec 16 := BitVec.ofNat 16 (min (k.toNat / period) 32767)

/-- In the plausible range, both limits included (R2). -/
def inRange (c : SignalCfg) (v : BitVec 16) : Bool := c.low.toInt ≤ v.toInt && v.toInt ≤ c.high.toInt

/-- The stale policy's value at the expiry (R4). -/
def expiryQuality (c : SignalCfg) : Quality := if c.substitutes then .substituted else .stale

/-- LINE and HOST entries age (R3). -/
def sourceAges : Source → Bool
  | .line _ _ _ _ => true
  | .host => true
  | .none => false
  | .discrete _ => false
  | .speed => false

/-- Gauge position for a signal value (R107): the quotient truncated towards zero and clamped to 0 to full scale. -/
def boundTarget (full : Nat) (rawZero rawFull v : BitVec 16) : Nat :=
  if rawZero = rawFull then
    if v.toInt < rawZero.toInt then 0 else full
  else
    min (Int.tdiv ((full : Int) * (v.toInt - rawZero.toInt)) (rawFull.toInt - rawZero.toInt)).toNat full

/-- The logical level of an input: active or not (R9). -/
def logicalActive (c : InputCfg) (x : Input) : Bool := x.high != c.activeLow

/-- The silence limit of a code in ms; code 0 is disabled (Table 2-5). -/
def silenceLimit : Nat → Option Nat
  | 0 => none
  | 1 => some 10
  | 2 => some 20
  | 3 => some 50
  | 4 => some 100
  | 5 => some 200
  | 6 => some 500
  | 7 => some 1000
  | _ => some 2000

/-- The four bytes of a word, lowest address first (00 section 4). -/
def wordBytes (w : Word) : List Byte :=
  [w.setWidth 8, (w >>> 8).setWidth 8, (w >>> 16).setWidth 8, (w >>> 24).setWidth 8]

/-- A little-endian word of four bytes. -/
def bytesWord (b0 b1 b2 b3 : Byte) : Word :=
  field 0 b0.toNat ||| field 8 b1.toNat ||| field 16 b2.toNat ||| field 24 b3.toNat

/-- The low `k` bytes of a number, least significant first (12, multi-byte fields are little-endian). -/
def leBytes : Nat → Nat → List Byte
  | 0, _ => []
  | k + 1, v => BitVec.ofNat 8 v :: leBytes k (v / 256)

/-- The shape of a host word address inside the window: its byte offset from the base, if it lies inside. -/
def State.windowOffset (s : State) (wordAddr : BitVec 22) : Option Nat :=
  let a := wordAddr.toNat * 4
  let base := Config.windowBase s.path.straps
  if base ≤ a ∧ a < base + Config.windowSize then some (a - base) else none

/-- The word address of a window offset. -/
def State.windowWordAddr (s : State) (off : Nat) : BitVec 22 :=
  BitVec.ofNat 22 ((Config.windowBase s.path.straps + off) / 4)

end Sys2Proof.Machine
end

