-- ==== Sys2Proof/Machine/Ops.lean ====
section
/-! DEFINITION. Named operations that every block shares: replacing one block of the state, the two memories, the attention
sets, and the update queue with its resync set (06). -/

namespace Sys2Proof.Machine

/-! ## One block of the state replaced -/

def State.setPending (s : State) (x : List Instr) : State := { s with pending := x }
def State.setProfile (s : State) (x : Profile) : State := { s with profile := x }
def State.setProfStatus (s : State) (x : ProfStatus) : State := { s with profStatus := x }
def State.setLoadBuffer (s : State) (x : Option Profile) : State := { s with loadBuffer := x }
def State.setSig (s : State) (x : SignalUnit) : State := { s with sig := x }
def State.setInp (s : State) (x : InputUnit) : State := { s with inp := x }
def State.setRx (s : State) (x : LineUnit) : State := { s with rx := x }
def State.setDoor (s : State) (x : DoorUnit) : State := { s with door := x }
def State.setWarn (s : State) (x : WarningUnit) : State := { s with warn := x }
def State.setInd (s : State) (x : IndicationUnit) : State := { s with ind := x }
def State.setPath (s : State) (x : MemoryPath) : State := { s with path := x }
def State.setSup (s : State) (x : Supervision) : State := { s with sup := x }
def State.setFm (s : State) (x : FaultMemory) : State := { s with fm := x }
def State.setSvc (s : State) (x : ServiceUnit) : State := { s with svc := x }
def State.setMode (s : State) (x : ModeUnit) : State := { s with mode := x }
def State.setCtrl (s : State) (x : Controller) : State := { s with ctrl := x }
def State.setSram (s : State) (x : List Host.Cell) : State := { s with sram := x }
def State.setCfg (s : State) (x : List Host.Cell) : State := { s with cfg := x }

/-! ## The memories (00 section 4): canonical lists of (address, byte) -/

/-- The byte at an address; an unlisted address reads as `d`. -/
def readByte (d : Byte) : List Host.Cell → Nat → Byte
  | [], _ => d
  | (a, b) :: m, x => if x = a then b else readByte d m x

/-- The memory with one byte written; writing what an unlisted address reads as removes the entry. -/
def writeByte (d : Byte) : List Host.Cell → Nat → Byte → List Host.Cell
  | [], x, v => if v = d then [] else [(x, v)]
  | (a, b) :: m, x, v =>
    if x < a then (if v = d then (a, b) :: m else (x, v) :: (a, b) :: m)
    else if x = a then (if v = d then m else (x, v) :: m)
    else (a, b) :: writeByte d m x v

/-- Canonical form: addresses strictly rising, no entry equal to what an unlisted address reads as. -/
def Memory.wf (d : Byte) : List Host.Cell → Bool
  | [] => true
  | (a, b) :: m => b ≠ d && m.all (fun e => decide (a < e.1)) && Memory.wf d m

/-- Consecutive bytes written from an address on. -/
def writeBytes (d : Byte) : List Host.Cell → Nat → List Byte → List Host.Cell
  | m, _, [] => m
  | m, x, b :: bs => writeBytes d (writeByte d m x b) (x + 1) bs

/-- A byte of SRAM. -/
def State.sramByte (s : State) (a : Nat) : Byte := readByte Config.sramErased s.sram a

/-- A little-endian word of SRAM at a byte address. -/
def State.sramWord (s : State) (a : Nat) : Word :=
  bytesWord (s.sramByte a) (s.sramByte (a + 1)) (s.sramByte (a + 2)) (s.sramByte (a + 3))

/-- The lanes that the byte enables select, written at a byte address (06 section 6.1). -/
def writeLanes (m : List Host.Cell) (a : Nat) (w : Word) (lanes : BitVec 4) : List Host.Cell :=
  (List.range 4).foldl
    (fun m k => if lanes.getLsbD k then writeByte Config.sramErased m (a + k) ((w >>> (8 * k)).setWidth 8) else m) m

/-- A host or image write of a word to SRAM. -/
def State.writeSram (s : State) (a : Nat) (w : Word) (lanes : BitVec 4) : State :=
  s.setSram (writeLanes s.sram a w lanes)

/-- Byte address of a window offset. -/
def State.windowAddr (s : State) (off : Nat) : Nat := Config.windowBase s.path.straps + off

/-- A byte of configuration memory. -/
def State.cfgByte (s : State) (a : Nat) : Byte := readByte Config.cfgErased s.cfg a

/-- The bytes of a 64-byte page of configuration memory. -/
def State.cfgPage (s : State) (page : Nat) : List Byte := (List.range 64).map (fun k => s.cfgByte (64 * page + k))

/-! ## Attention (R132) -/

/-- A cause set in the pending set, whether or not it is enabled. -/
def MemoryPath.setCause (p : MemoryPath) (c : Cause) : MemoryPath := { p with attnPending := p.attnPending ||| c.mask }

/-- An owner sets an attention cause. -/
def State.setCause (s : State) (c : Cause) : State := s.setPath (s.path.setCause c)

/-! ## The update queue and the resync set (R125 to R129) -/

/-- The urgent flag after the queue's length went from `old` to `new` (R129); a length that stays keeps it (log entry 34). -/
def urgentAfter (u : Bool) (old new : Nat) : Bool :=
  if new = old then u else if Config.urgentAt ≤ new then true else if new ≤ Config.calmAt then false else u

/-- The memory path with another queue, its urgent flag following. -/
def MemoryPath.withQueue (p : MemoryPath) (q : List (Nat × Word)) : MemoryPath :=
  { p with queue := q, urgent := urgentAfter p.urgent p.queue.length q.length }

/-- An offered word replaces the word of its entry in place (R125 item 1). -/
def coalesce (q : List (Nat × Word)) (off : Nat) (w : Word) : List (Nat × Word) :=
  q.map (fun e => if e.1 = off then (off, w) else e)

/-- An image word offered to the memory path (R125). -/
def MemoryPath.offer (p : MemoryPath) (off : Nat) (w : Word) : MemoryPath :=
  if p.queue.any (fun e => e.1 = off) then { p with queue := coalesce p.queue off w }
  else if p.resync.contains off then p
  else if p.queue.length < Config.queueMax then p.withQueue (p.queue ++ [(off, w)])
  else
    let p' := { p with resync := insertByKey id off p.resync }
    if p.windowOpen then p'.setCause .updateOverflow else p'

/-- An owner offers the image word of an offset as its state now composes it. -/
def State.offer (s : State) (off : Nat) : State := s.setPath (s.path.offer off (s.imageWord off))

/-- The words among `offs` that an event changed, offered in the order of `offs`: `old` before the event, `s` after it (R125). Where no
rule orders one event's words, the order is the model's: log entry 48. -/
def State.offerChanged (old s : State) (offs : List Nat) : State :=
  offs.foldl (fun t o => if old.imageWord o = s.imageWord o then t else t.offer o) s

/-- A new status cell image when an item of it changed (R135). -/
def State.offerStatus (old s : State) : State :=
  if old.statusWord = s.statusWord then s else s.offer offStatus

/-- Marked words re-queued until the queue holds 8 entries or no mark is left (R127). -/
def State.requeue (s : State) : State :=
  let moved := s.path.resync.take (Config.calmAt - s.path.queue.length)
  let p := s.path.withQueue (s.path.queue ++ moved.map (fun o => (o, s.imageWord o)))
  s.setPath { p with
    resync := s.path.resync.drop (Config.calmAt - s.path.queue.length)
    awaited := s.path.awaited.map (fun a => a ++ moved) }

/-- A protection violation: dropped, counted, PROTECTION set (R124). -/
def State.violation (s : State) : State :=
  State.setCause (s.offerChanged (s.setPath { s.path with violations := satInc s.path.violations }) [offCountA]) .protection

/-! ## Small helpers -/

/-- A running timer one millisecond later. -/
def tickTimer (t : Option Nat) : Option Nat := t.map (· + 1)

/-- Whether a running timer has run for at least `limit`. -/
def reached (t : Option Nat) (limit : Nat) : Bool :=
  match t with
  | none => false
  | some e => limit ≤ e

/-- A state transformer applied for each element, in order. -/
def State.forEach {α : Type} (s : State) (l : List α) (f : State → α → State) : State := l.foldl f s

/-- A command of a device whose reset cause no longer lasts; while it lasts nothing happens (R190, log entry 4). -/
def State.live (s : State) (f : State → State) : State := if s.mode.inReset then s else f s

end Sys2Proof.Machine
end

