-- ==== Sys2Proof/Machine/Format.lean ====
section
/-! DEFINITION. The stored formats: the profile's validation (R189) and its reading field by field (R197, Table 12-7), what a store
writes of its bytes (R195), and the fault-slot and counters pages with their checks (R196, Table 12-5). -/

namespace Sys2Proof.Machine

/-! ## Numbers in an image, given by its bytes -/

/-- An unsigned 16-bit little-endian number of an image. -/
def rd16 (rd : Nat → Byte) (a : Nat) : Nat := (rd a).toNat + 256 * (rd (a + 1)).toNat

/-- An unsigned 32-bit little-endian number of an image. -/
def rd32 (rd : Nat → Byte) (a : Nat) : Nat := rd16 rd a + 65536 * rd16 rd (a + 2)

/-- A signal binding: an index, or 0xFFFF for unbound (R197). -/
def rdBinding (rd : Nat → Byte) (a : Nat) : Option (Fin 256) :=
  if h : rd16 rd a < 256 then some ⟨rd16 rd a, h⟩ else none

/-- A number taken to a range. -/
def clampTo (lo hi v : Nat) : Nat := max lo (min hi v)

/-- A byte as an index below `n`; validation has refused the others (R189). -/
def rdIndex (n : Nat) (hn : 0 < n) (b : Byte) : Fin n := ⟨b.toNat % n, Nat.mod_lt _ hn⟩

/-! ## Offsets of Table 12-7 -/

def atLine (l : Nat) : Nat := 0x000E + 4 * l
def atSlot (n : Nat) : Nat := 0x0038 + 4 * n
def atSignal (n : Nat) : Nat := 0x0138 + 16 * n
def atInput (n : Nat) : Nat := 0x1138 + 2 * n
def atDoor (n : Nat) : Nat := 0x1168 + 16 * n
def atWarning (n : Nat) : Nat := 0x11C8 + 16 * n
def atLamp (n : Nat) : Nat := 0x17C8 + 12 * n
def atGauge (n : Nat) : Nat := 0x1A08 + 16 * n

/-! ## Reading (R197) -/

/-- A line's settings. A wake enable other than 0 means yes: log entry 22. -/
def readLine (rd : Nat → Byte) (l : Fin 3) : LineCfg :=
  let a := atLine l.val
  { rate := match (rd a).toNat with
      | 1 => .b19200
      | 2 => .b38400
      | 3 => .b62500
      | _ => .b9600
    gap := clampTo 1 15 (rd (a + 1)).toNat
    silence := min 8 (rd (a + 2)).toNat
    wake := rd (a + 3) ≠ 0 }

/-- A slot's key and expected length. -/
def readSlot (rd : Nat → Byte) (n : Fin 64) : Option SlotCfg :=
  let a := atSlot n.val
  if (rd a).getLsbD 7 then
    some
      { line := match (rd a).toNat % 4 with
          | 0 => .front
          | 1 => .rear
          | _ => .drive
        node := (rd (a + 1)).setWidth 5
        kind := ((rd (a + 1)) >>> 5).setWidth 3
        length := (rd (a + 2)).toNat }
  else none

/-- A signal entry's fields; a freshness limit from 1 to 9 is taken as 10 and one above 60 000 as 60 000 (R3). -/
def readSignal (rd : Nat → Byte) (n : Fin 256) : SignalCfg :=
  let a := atSignal n.val
  let flags := rd (a + 1)
  let fresh := rd16 rd (a + 6)
  { source := match (rd a).toNat with
      | 1 => .discrete (rdIndex 24 (by decide) (rd (a + 2)))
      | 2 => .speed
      | 3 => .line (rdIndex 64 (by decide) (rd (a + 2))) (rd (a + 3)).toNat (rd (a + 4)).toNat (flags.getLsbD 3)
      | 4 => .host
      | _ => .none
    freshness := if fresh = 0 then 0 else clampTo 10 60000 fresh
    low := BitVec.ofNat 16 (rd16 rd (a + 8))
    high := BitVec.ofNat 16 (rd16 rd (a + 10))
    substitutes := flags.getLsbD 0
    substitute := BitVec.ofNat 16 (rd16 rd (a + 12))
    reportStale := flags.getLsbD 1
    reportInvalid := flags.getLsbD 2 }

/-- A discrete input's fields. -/
def readInput (rd : Nat → Byte) (n : Fin 24) : InputCfg :=
  let a := atInput n.val
  { activeLow := (rd a).getLsbD 0
    wake := (rd a).getLsbD 1
    edge := match (rd a).toNat / 4 % 4 with
      | 0 => .rising
      | 1 => .falling
      | _ => .either
    debounce := (rd (a + 1)).toNat }

/-- A door's fields; the tolerance is at most 1000 and the timeouts lie from 500 to 20 000. -/
def readDoor (rd : Nat → Byte) (n : Fin 6) : DoorCfg :=
  let a := atDoor n.val
  { present := (rd a).getLsbD 0
    ramp := (rd a).getLsbD 1
    controller := rdBinding rd (a + 2)
    closed := rdBinding rd (a + 4)
    locked := rdBinding rd (a + 6)
    rampOut := rdBinding rd (a + 8)
    tolerance := min 1000 (rd16 rd (a + 10))
    openTimeout := clampTo 500 20000 (rd16 rd (a + 12))
    closeTimeout := clampTo 500 20000 (rd16 rd (a + 14)) }

/-- A warning's fields; delays are at most 10 000. -/
def readWarning (rd : Nat → Byte) (n : Fin 96) : WarnCfg :=
  let a := atWarning n.val
  let sig : Fin 256 := rdIndex 256 (by decide) (rd (a + 1))
  let thr := BitVec.ofNat 16 (rd16 rd (a + 2))
  let hys := rd16 rd (a + 4)
  let bits := (rd (a + 10)).toNat
  { condition := match (rd a).toNat with
      | 1 => .above sig thr hys
      | 2 => .below sig thr hys
      | 3 => .equal sig thr
      | 4 => .qualityBad sig
      | 5 => .doorOpen (rd (a + 1))
      | 6 => .doorFault (rd (a + 1))
      | 7 => .faultKind ((FaultKind.ofNat? (rd (a + 1)).toNat).getD .signalStale)
      | 8 => .hostSet
      | _ => .unused
    gate := match bits / 4 % 4 with
      | 0 => .always
      | 1 => .whenMoving
      | _ => .whenStopped
    onDelay := min 10000 (rd16 rd (a + 6))
    offDelay := min 10000 (rd16 rd (a + 8))
    cls := match bits % 4 with
      | 0 => .stop
      | 1 => .caution
      | _ => .info
    priority := (rd (a + 11)).toNat
    latching := (rd (a + 10)).getLsbD 4
    pattern := match bits / 32 % 4 with
      | 0 => .none
      | 1 => .single
      | 2 => .repeating
      | _ => .continuous }

/-- A telltale source from its kind and parameter. -/
def readSource (kind param : Byte) : LampSource :=
  match kind.toNat with
  | 0 => .warning (rdIndex 96 (by decide) param)
  | 1 => .signal (rdIndex 256 (by decide) param)
  | 2 => .doorAnyOpen
  | 3 => .doorOpen (rdIndex 6 (by decide) param)
  | 4 => .hostRequest
  | _ => .hostLost

/-- A telltale's fields; a source count above 4 is taken as 4. -/
def readLamp (rd : Nat → Byte) (n : Fin 48) : LampCfg :=
  let a := atLamp n.val
  { sources := (List.range (min 4 ((rd a).toNat / 16 % 8))).map
      (fun k => readSource (rd (a + 1 + 2 * k)) (rd (a + 2 + 2 * k)))
    blinkUnack := (rd a).getLsbD 0
    activeLow := (rd a).getLsbD 1
    sensing := (rd a).getLsbD 2 }

/-- A gauge's fields; full scale is 1 to 4095, the rate 1 to 16, the park position at most full scale, the overtravel at most 400. -/
def readGauge (rd : Nat → Byte) (n : Fin 12) : GaugeCfg :=
  let a := atGauge n.val
  let full := clampTo 1 4095 (rd16 rd (a + 6))
  { mode := match (rd a).toNat with
      | 1 => .bound (rdIndex 256 (by decide) (rd (a + 1))) (BitVec.ofNat 16 (rd16 rd (a + 2)))
          (BitVec.ofNat 16 (rd16 rd (a + 4)))
      | 2 => .host
      | _ => .off
    full := full
    rate := clampTo 1 16 (rd (a + 8)).toNat
    park := min full (rd16 rd (a + 10))
    overtravel := min 400 (rd16 rd (a + 12)) }

/-- The profile of an image, read field by field (R197, Table 12-7). An HRST enable other than 0 means yes: log entry 22. -/
def readProfile (rd : Nat → Byte) : Profile :=
  { identity := BitVec.ofNat 32 (rd32 rd 0)
    version := BitVec.ofNat 16 (rd16 rd 4)
    address := some (rd 0x000A)
    hrst := rd 0x000B ≠ 0
    supTimeout := clampTo 50 2000 (rd16 rd 0x000C)
    lines := .ofFn (readLine rd)
    k := BitVec.ofNat 32 (rd32 rd 0x001A)
    reference := rdBinding rd 0x001E
    movingThreshold := BitVec.ofNat 16 (rd16 rd 0x0020)
    stopHold := rd16 rd 0x0022
    ignition := rdBinding rd 0x0024
    ackInput := rdBinding rd 0x0026
    serviceSwitch := rdBinding rd 0x0028
    parkingBrake := rdBinding rd 0x002A
    confirm := min 10000 (rd16 rd 0x002C)
    heal := (rd 0x002E).toNat
    freeze := (List.range (min 4 (rd 0x002F).toNat)).map (fun k => rdIndex 256 (by decide) (rd (0x0030 + k)))
    lampCheck := min 5000 (rd16 rd 0x0034)
    ignitionOff := min 10000 (rd16 rd 0x0036)
    slots := .ofFn (readSlot rd)
    signals := .ofFn (readSignal rd)
    inputs := .ofFn (readInput rd)
    doors := .ofFn (readDoor rd)
    warnings := .ofFn (readWarning rd)
    lamps := .ofFn (readLamp rd)
    gauges := .ofFn (readGauge rd) }

/-! ## Validation (R189, Table 11-2) -/

/-- The length field of an image's header. -/
def imageLength (rd : Nat → Byte) : Nat := rd16 rd 6

/-- Length check. -/
def lengthOk (len : Nat) : Bool := len % 2 = 0 && Config.profileMin ≤ len && len ≤ Config.profileMax

/-- Check word: the 16-bit words of the image sum to 0xFFFF modulo 65 536. -/
def sumOk (rd : Nat → Byte) (len : Nat) : Bool :=
  (List.range (len / 2)).foldl (fun acc k => (acc + rd16 rd (2 * k)) % 65536) 0 = 0xFFFF

/-- The key of a used slot as numbers. -/
def slotKey (rd : Nat → Byte) (n : Nat) : Option (Nat × Nat) :=
  if (rd (atSlot n)).getLsbD 7 then some ((rd (atSlot n)).toNat % 4, (rd (atSlot n + 1)).toNat) else none

/-- No element occurs twice. -/
def noRepeat : List (Nat × Nat) → Bool
  | [] => true
  | x :: xs => !xs.contains x && noRepeat xs

/-- Slot keys: no two used slots share a key, and a used slot's line is FRONT, REAR or DRIVE (R197). -/
def slotsOk (rd : Nat → Byte) : Bool :=
  let keys := (List.range 64).filterMap (slotKey rd)
  noRepeat keys && keys.all (fun k => k.1 ≤ 2)

/-- A two-byte binding is an index or 0xFFFF (R197). -/
def bindingOk (rd : Nat → Byte) (a : Nat) : Bool := rd16 rd a < 256 || rd16 rd a = 0xFFFF

/-- Indices, field extent and codes of a signal entry. -/
def signalOk (rd : Nat → Byte) (n : Nat) : Bool :=
  let a := atSignal n
  match (rd a).toNat with
  | 0 => true
  | 1 => (rd (a + 2)).toNat ≤ 23
  | 2 => true
  | 3 =>
    (rd (a + 2)).toNat ≤ 63 && (rd (a + 3)).toNat ≤ 95 && 1 ≤ (rd (a + 4)).toNat && (rd (a + 4)).toNat ≤ 16 &&
      (rd (a + 3)).toNat + (rd (a + 4)).toNat ≤ 96
  | 4 => true
  | _ => false

/-- Wake edge code of an input. -/
def inputOk (rd : Nat → Byte) (n : Nat) : Bool := (rd (atInput n)).toNat / 4 % 4 ≤ 2

/-- Bindings of a door. -/
def doorOk (rd : Nat → Byte) (n : Nat) : Bool :=
  [2, 4, 6, 8].all (fun k => bindingOk rd (atDoor n + k))

/-- Codes of a warning. -/
def warningOk (rd : Nat → Byte) (n : Nat) : Bool :=
  let a := atWarning n
  let bits := (rd (a + 10)).toNat
  (rd a).toNat ≤ 8 && bits % 4 ≤ 2 && bits / 4 % 4 ≤ 2 &&
    ((rd a).toNat ≠ 7 || (FaultKind.ofNat? (rd (a + 1)).toNat).isSome)

/-- Kinds and indices of a telltale's sources. -/
def lampOk (rd : Nat → Byte) (n : Nat) : Bool :=
  let a := atLamp n
  (List.range (min 4 ((rd a).toNat / 16 % 8))).all (fun k =>
    match (rd (a + 1 + 2 * k)).toNat with
    | 0 => (rd (a + 2 + 2 * k)).toNat ≤ 95
    | 1 => true
    | 2 => true
    | 3 => (rd (a + 2 + 2 * k)).toNat ≤ 5
    | 4 => true
    | 5 => true
    | _ => false)

/-- Mode code of a gauge. -/
def gaugeOk (rd : Nat → Byte) (n : Nat) : Bool := (rd (atGauge n)).toNat ≤ 2

/-- Validation: every check of Table 11-2 passes (R189). -/
def validProfile (rd : Nat → Byte) : Bool :=
  lengthOk (imageLength rd) && sumOk rd (imageLength rd) && slotsOk rd &&
    (1 ≤ (rd 0x000A).toNat && (rd 0x000A).toNat ≤ 0x7E) &&
    [0, 1, 2].all (fun l => (rd (atLine l)).toNat ≤ 3) &&
    [0x001E, 0x0024, 0x0026, 0x0028, 0x002A].all (bindingOk rd) &&
    (List.range 256).all (signalOk rd) && (List.range 24).all (inputOk rd) && (List.range 6).all (doorOk rd) &&
    (List.range 96).all (warningOk rd) && (List.range 48).all (lampOk rd) && (List.range 12).all (gaugeOk rd)

/-- Pages that an image of a length covers (R192). -/
def pagesOf (len : Nat) : Nat := (len + 63) / 64

/-- The stored profile, if it is valid. A page that a reset cut off fails its check (R190, log entry 8). -/
def State.storedProfile (s : State) : Option Profile :=
  let rd := s.cfgByte
  if validProfile rd && s.ctrl.torn.all (fun p => pagesOf (imageLength rd) ≤ p) then some (readProfile rd) else none

/-- A byte of the staging area (11.4). -/
def State.stagingByte (s : State) (b : Nat) : Byte := s.sramByte (s.windowAddr (offStaging + b))

/-! ## What a store writes of an image (R195) -/

/-- The bits that Table 12-7 assigns in byte `j` of each kind of entry; a byte past the last listed one has none. -/
def slotBits (j : Nat) : Byte := [0x83, 0xFF, 0xFF].getD j 0

def signalBits (j : Nat) : Byte :=
  [0xFF, 0x0F, 0xFF, 0xFF, 0xFF, 0x00, 0xFF, 0xFF, 0xFF, 0xFF, 0xFF, 0xFF, 0xFF, 0xFF].getD j 0

def inputBits (j : Nat) : Byte := [0x0F, 0xFF].getD j 0

def doorBits (j : Nat) : Byte := if j = 0 then 0x03 else if j = 1 then 0x00 else 0xFF

/-- A warning's parameter is a door mask, of six bits, under DOOR_OPEN (5) and DOOR_FAULT (6). -/
def warningBits (kind : Byte) (j : Nat) : Byte :=
  [0xFF, if kind = 5 ∨ kind = 6 then 0x3F else 0xFF, 0xFF, 0xFF, 0xFF, 0xFF, 0xFF, 0xFF, 0xFF, 0xFF, 0x7F, 0xFF].getD j 0

def lampBits (j : Nat) : Byte := [0x77, 0xFF, 0xFF, 0xFF, 0xFF, 0xFF, 0xFF, 0xFF, 0xFF].getD j 0

def gaugeBits (j : Nat) : Byte :=
  [0xFF, 0xFF, 0xFF, 0xFF, 0xFF, 0xFF, 0xFF, 0xFF, 0xFF, 0x00, 0xFF, 0xFF, 0xFF, 0xFF].getD j 0

/-- The bits of profile byte `a` that Table 12-7 assigns. The bytes from the fixed part to the length take part in the check word and
are assigned whole; the bytes beyond the length are no part of a profile: log entry 41. -/
def profileBits (rd : Nat → Byte) (a : Nat) : Byte :=
  if imageLength rd ≤ a then 0x00
  else if a < atSlot 0 then 0xFF
  else if a < atSignal 0 then slotBits ((a - atSlot 0) % 4)
  else if a < atInput 0 then signalBits ((a - atSignal 0) % 16)
  else if a < atDoor 0 then inputBits ((a - atInput 0) % 2)
  else if a < atWarning 0 then doorBits ((a - atDoor 0) % 16)
  else if a < atLamp 0 then warningBits (rd (atWarning ((a - atWarning 0) / 16))) ((a - atWarning 0) % 16)
  else if a < atGauge 0 then lampBits ((a - atLamp 0) % 12)
  else if a < atGauge 12 then gaugeBits ((a - atGauge 0) % 16)
  else 0xFF

/-- Byte `a` of an image as a store writes it: what Table 12-7 leaves unassigned is 0 (R195). -/
def storedByte (rd : Nat → Byte) (a : Nat) : Byte := rd a &&& profileBits rd a

/-! ## Stored pages (R196) -/

/-- Complement of the sum of words and a number. -/
def pageCheck (ws : List Word) (n : Nat) : Word := ~~~ (ws.foldl (· + ·) (BitVec.ofNat 32 n))

/-- The bytes of words, little-endian. -/
def pageBytes (ws : List Word) : List Byte := ws.flatMap wordBytes

/-- Fifteen words with their check as a page. -/
def checkedPage (ws : List Word) (n : Nat) : List Byte := pageBytes (ws ++ [pageCheck ws n])

/-- What a slot persists: PENDING records and records of CONFIG_MEMORY and PROFILE_BAD count as an empty slot (R159). -/
def persisted (r : Option Record) : Option Record :=
  match r with
  | none => none
  | some r => if r.state = .pending ∨ r.code.kind = .configMemory ∨ r.code.kind = .profileBad then none else some r

/-- The page of a fault slot (R159, R196). -/
def slotPage (n : Fin 32) (r : Option Record) : List Byte :=
  checkedPage ((List.range 15).map (recordWord (persisted r))) n.val

/-- The words of the counters block (R196). -/
def countersWords (cycle : BitVec 24) (doors : Table 6 Door) : List Word :=
  [cycle.setWidth 32] ++ doors.rows.map Door.openCycles ++ doors.rows.map Door.obstructions ++ [0, 0]

/-- The page of the counters block (R188, R196). -/
def countersPage (s : State) : List Byte := checkedPage (countersWords s.mode.cycle s.door.doors) 0

/-- Word k of a page. -/
def pageWord (page : List Byte) (k : Nat) : Word :=
  bytesWord (page.getD (4 * k) 0) (page.getD (4 * k + 1) 0) (page.getD (4 * k + 2) 0) (page.getD (4 * k + 3) 0)

/-- The first fifteen words of a page. -/
def pageWords (page : List Byte) : List Word := (List.range 15).map (pageWord page)

/-- The check of a page agrees with what was read (R196). -/
def pageOk (page : List Byte) (n : Nat) : Bool := pageWord page 15 = pageCheck (pageWords page) n

/-- A field of a word. -/
def bitsOf (w : Word) (lo len : Nat) : Nat := w.toNat / 2 ^ lo % 2 ^ len

/-- What a stored slot page holds. -/
inductive StoredSlot where
  | empty
  | bad
  | record (r : Record)
deriving DecidableEq, Repr

/-- A freeze entry of a stored word (Table 12-5). -/
def storedEntry (w : Word) : FreezeEntry :=
  { signal := BitVec.ofNat 8 (bitsOf w 16 8), value := BitVec.ofNat 16 (bitsOf w 0 16), quality := .decode (bitsOf w 24 3) }

/-- A freeze frame of a stored page (Table 12-5). -/
def storedFrame (page : List Byte) : Option Frame :=
  if bitsOf (pageWord page 0) 24 1 = 1 then
    some
      { motion := .decode (bitsOf (pageWord page 6) 0 2)
        openCount := bitsOf (pageWord page 6) 4 3
        entries := (List.range (min 4 (bitsOf (pageWord page 6) 8 3))).map (fun i => storedEntry (pageWord page (7 + i))) }
  else none

/-- The moment of two stored words. -/
def storedMoment (page : List Byte) (k : Nat) : Option Moment :=
  some { cycle := (pageWord page k).setWidth 24, ms := pageWord page (k + 1) }

/-- A fault slot's page as the load reads it: PASSIVE records with their seen mark clear (R162, R196). -/
def readSlotPage (page : List Byte) (n : Fin 32) : StoredSlot :=
  if !pageOk page n.val then .bad
  else if (pageWords page).all (fun w => w = 0) then .empty
  else
    match FaultKind.ofNat? (bitsOf (pageWord page 0) 0 8), bitsOf (pageWord page 0) 16 2 with
    | none, _ => .bad
    | some kind, st =>
      if st = 2 ∨ st = 3 then
        .record
          { code := { kind := kind, subject := BitVec.ofNat 8 (bitsOf (pageWord page 0) 8 8) }
            state := .passive
            occurrence := BitVec.ofNat 8 (bitsOf (pageWord page 1) 0 8)
            healing := BitVec.ofNat 8 (bitsOf (pageWord page 1) 8 8)
            first := storedMoment page 2
            last := storedMoment page 4
            frame := storedFrame page
            timer := none
            seen := false }
      else .bad

/-- A stored record whose stored state is ACTIVE (R162). -/
def storedActive (page : List Byte) : Bool := bitsOf (pageWord page 0) 16 2 = 2

/-- Page number of fault slot n and of the counters block (Table 11-1). -/
def slotPageNo (n : Fin 32) : Nat := 0x2000 / 64 + n.val

/-- Page number of the counters block (Table 11-1). -/
def countersPageNo : Nat := 0x2800 / 64

end Sys2Proof.Machine
end

