-- ==== Sys2Proof/Machine/Indication.lean ====
section
/-! DEFINITION. The indication unit's operations (05): telltale evaluation, blink clock and open-load timers; gauge targets,
parking, homing and sweeps; the chime arbiter; and the end of an output test (09.4), which hands back all three. -/

namespace Sys2Proof.Machine

/-! ## Telltales (R96 to R101) -/

/-- A telltale's request bit in the copies of the request words (R102). -/
def IndicationUnit.requestBit (u : IndicationUnit) (t : Fin 48) : Bool :=
  if t.val < 32 then u.requestLow.getLsbD t.val else u.requestHigh.getLsbD (t.val - 32)

/-- Whether a source of a telltale's function set is true (R96, Table 5-2). -/
def State.sourceTrue (s : State) (t : Fin 48) : LampSource → Bool
  | .warning w => (s.warn.rows.get w).state.isActive
  | .signal n => (s.quality n).usable && s.value n ≠ 0
  | .doorAnyOpen => 1 ≤ s.door.openCount
  | .doorOpen d => (s.door.doors.get d).countsOpen
  | .hostRequest => s.ind.requestBit t && s.sup.state = .normal
  | .hostLost => s.sup.state = .lost

/-- A WARNING source naming a warning in ACTIVE_UNACK (R96). -/
def State.sourceUnack (s : State) : LampSource → Bool
  | .warning w => (s.warn.rows.get w).state = .activeUnack
  | _ => false

/-- A WARNING source that is true: the only sources read in PARKING and PARKED (R115). -/
def State.sourceActiveWarning (s : State) : LampSource → Bool
  | .warning w => (s.warn.rows.get w).state.isActive
  | _ => false

/-- The lamp check runs or a LAMP output test runs (R97). -/
def State.allLampsOn (s : State) : Bool := s.ind.lampCheck.isSome || s.svc.test = .lamp

/-- The commanded state of a telltale: R97 in RUN with a profile in force, R115 in PARKING and PARKED, telltale 0 alone in the
no-profile state (R117), OFF before. -/
def State.commanded (s : State) (t : Fin 48) : LampState :=
  let cfg := s.profile.lamps.get t
  match s.profStatus with
  | .notYet => .off
  | .noProfile =>
    if t.val = 0 ∧ s.mode.mode ≠ .parking ∧ s.mode.mode ≠ .parked then .on else .off
  | .inForce =>
    match s.mode.mode with
    | .start => .off
    | .run =>
      if s.allLampsOn then .on
      else if cfg.sources.any (s.sourceTrue t) then
        if cfg.blinkUnack && cfg.sources.any s.sourceUnack then .blink else .on
      else .off
    | .parking => if cfg.sources.any s.sourceActiveWarning then .on else .off
    | .parked => if cfg.sources.any s.sourceActiveWarning then .on else .off

/-- The blink clock after an evaluation: stopped while no telltale is BLINK, a fresh on-phase at the first (R99). Where one event takes
the last telltale out of BLINK and another one into it, the clock runs on in its present phase: log entry 52, the model's choice. -/
def blinkAfter (b : Blink) (lamps : Table 48 Lamp) : Blink :=
  if lamps.rows.any (fun l => l.commanded = .blink) then
    match b with
    | .stopped => .onPhase 0
    | .onPhase ms => .onPhase ms
    | .offPhase ms => .offPhase ms
  else .stopped

/-- A telltale's open-load timers started afresh for the level its sense reports (R101). -/
def Lamp.startTimers (l : Lamp) : Lamp :=
  if l.senseOpen then { l with faultTimer := some 0, clearTimer := none }
  else { l with faultTimer := none, clearTimer := some 0 }

/-- Both open-load timers idle, without an expiry (R101). -/
def Lamp.stopTimers (l : Lamp) : Lamp := { l with faultTimer := none, clearTimer := none }

/-- The open-load timers after the driven condition went from `was` to `is` (R101). -/
def Lamp.redrive (sensing was is : Bool) (l : Lamp) : Lamp :=
  if !sensing || !is then l.stopTimers
  else if was then l
  else l.startTimers

/-- New telltales and blink clock, the open-load timers following the driven conditions. -/
def State.withLamps (s : State) (lamps : Table 48 Lamp) (blink : Blink) : State :=
  let timed : Table 48 Lamp := .ofFn (fun t =>
    (lamps.get t).redrive (s.profile.lamps.get t).sensing (lampDriven s.ind.blink (s.ind.lamps.get t))
      (lampDriven blink (lamps.get t)))
  s.setInd { s.ind with lamps := timed, blink := blink }

/-- The telltales that `p` selects are evaluated anew (R98). -/
def State.evalLamps (s : State) (p : Fin 48 → Bool) : State :=
  let lamps : Table 48 Lamp := .ofFn (fun t =>
    if p t then { s.ind.lamps.get t with commanded := s.commanded t } else s.ind.lamps.get t)
  s.withLamps lamps (blinkAfter s.ind.blink lamps)

/-- Every telltale evaluated. -/
def State.evalAllLamps (s : State) : State := s.evalLamps (fun _ => true)

/-- The telltales whose function set names a source that `q` selects are evaluated (R98). -/
def State.evalLampsNaming (s : State) (q : LampSource → Bool) : State :=
  s.evalLamps (fun t => (s.profile.lamps.get t).sources.any q)

/-! ## Gauges (R104 to R111) -/

/-- A gauge of mode BOUND or HOST is active (R104). -/
def gaugeActive (c : GaugeCfg) : Bool :=
  match c.mode with
  | .off => false
  | .bound _ _ _ => true
  | .host => true

/-- One gauge replaced. -/
def State.setGauge (s : State) (g : Fin 12) (x : Gauge) : State :=
  s.setInd { s.ind with gauges := s.ind.gauges.set g x }

/-- A new target taken (R106), and whether it gives an arrival at once: it equals the position a moving gauge has reached. -/
def Gauge.aim (t : Nat) (x : Gauge) : Gauge × Bool :=
  if t = x.position then ({ x with target := t, moving := false }, x.moving)
  else ({ x with target := t, moving := true }, false)

/-- The target of a homed gauge by its state and sweep phase (R106, R110). -/
def Gauge.wanted (cfg : GaugeCfg) (x : Gauge) : Nat :=
  match x.state with
  | .ready => x.requested
  | .parked => cfg.park
  | .test =>
    match x.sweep with
    | some .down => 0
    | some .up => cfg.full
    | some .back => 0
    | none => 0
  | .unhomed => x.target
  | .homing => x.target

/-- READY or PARKED, by the two causes of R109. -/
def State.homedState (s : State) (g : Fin 12) : GaugeState :=
  match (s.profile.gauges.get g).mode with
  | .off => .ready
  | .bound n _ _ => if (s.quality n).usable then .ready else .parked
  | .host => if s.sup.state = .lost then .parked else .ready

/-- A gauge with a new state: it takes its target at once, and the actual word gets an image (R106, R111). An arrival at once
in TEST's first phase starts the second. -/
def State.enterGauge (s : State) (g : Fin 12) (x : Gauge) : State :=
  let cfg := s.profile.gauges.get g
  let r := x.aim (x.wanted cfg)
  let y :=
    if r.2 && r.1.state = .test && r.1.sweep = some .down then
      (({ r.1 with sweep := some .up } : Gauge).aim cfg.full).1
    else r.1
  (s.setGauge g { y with shown := y.position }).offer (offGaugeActual g)

/-- A gauge whose target changes within its state (R106); an arrival at once gives an image (R111). -/
def State.retarget (s : State) (g : Fin 12) (x : Gauge) : State :=
  let r := x.aim (x.wanted (s.profile.gauges.get g))
  if r.2 then (s.setGauge g { r.1 with shown := r.1.position }).offer (offGaugeActual g)
  else s.setGauge g r.1

/-- R109 applied to a homed gauge not in TEST. -/
def State.parkDecision (s : State) (g : Fin 12) : State :=
  let x := s.ind.gauges.get g
  if (x.state = .ready ∨ x.state = .parked) ∧ x.state ≠ s.homedState g then
    s.enterGauge g { x with state := s.homedState g }
  else s

/-- The requested target set (R107, R108): pursued at once in READY, recorded in every other state. -/
def State.setRequested (s : State) (g : Fin 12) (r : Nat) : State :=
  let x := { s.ind.gauges.get g with requested := r }
  if x.state = .ready then s.retarget g x else s.setGauge g x

/-- A BOUND gauge follows a handed change of its signal (R107), then R109. The actual word of an arrival at once is offered before the target
word: log entry 48. -/
def State.boundGauge (s : State) (n : Fin 256) (g : Fin 12) : State :=
  let cfg := s.profile.gauges.get g
  match cfg.mode with
  | .bound m rawZero rawFull =>
    if m = n then
      let s1 :=
        if (s.quality n).usable then
          let r := boundTarget cfg.full rawZero rawFull (s.value n)
          if r = (s.ind.gauges.get g).requested then s
          else (s.setRequested g r).offer (offGaugeTarget g)
        else s
      s1.parkDecision g
    else s
  | .off => s
  | .host => s

/-- Homing starts for an active gauge not in TEST, from the beginning (R105). Its position and target are 0 until the completion
(R111 shows position 0; for the target the spec states no value: log entry 23). -/
def State.startHoming (s : State) (g : Fin 12) : State :=
  let x := s.ind.gauges.get g
  if gaugeActive (s.profile.gauges.get g) && x.state ≠ .test then
    let s1 := s.setGauge g { x with state := .homing, homing := some 0, position := 0, target := 0, moving := false, shown := 0 }
    if x.state = .homing then s1 else s1.offer (offGaugeActual g)
  else s

/-- Homing starts for every active gauge (R105). -/
def State.homeAll (s : State) : State := s.forEach (List.finRange 12) State.startHoming

/-- A gauge becomes UNHOMED with its channel undriven (R115). -/
def State.unhome (s : State) (g : Fin 12) : State :=
  let x := s.ind.gauges.get g
  if x.state = .unhomed then s
  else
    (s.setGauge g { state := .unhomed, requested := x.requested }).offer (offGaugeActual g)

/-- A homed gauge enters TEST with sweep phase DOWN (R110). -/
def State.enterSweep (s : State) (g : Fin 12) : State :=
  let x := s.ind.gauges.get g
  if x.state = .ready ∨ x.state = .parked then s.enterGauge g { x with state := .test, sweep := some .down } else s

/-- A gauge leaves TEST for READY or PARKED from the position it has reached (R110). -/
def State.leaveSweep (s : State) (g : Fin 12) : State :=
  let x := s.ind.gauges.get g
  if x.state = .test then s.enterGauge g { x with state := s.homedState g, sweep := none } else s

/-- Whether a gauge is still in TEST. -/
def State.sweeping (s : State) : Bool := s.ind.gauges.rows.any (fun x => x.state = .test)

/-- An arrival (R106): the gauge stops at its target, and in TEST its sweep phase advances (R110). -/
def State.takeArrival (s : State) (g : Fin 12) : State :=
  let x := s.ind.gauges.get g
  let y := { x with position := x.target, moving := false, shown := x.target }
  let s1 := (s.setGauge g y).offer (offGaugeActual g)
  if y.state = .test then
    match y.sweep with
    | some .down => s1.retarget g { y with sweep := some .up }
    | some .up => s1.retarget g { y with sweep := some .back }
    | some .back => s1.leaveSweep g
    | none => s1.leaveSweep g
  else s1

/-- The last homing step: position 0, READY or PARKED (R105). -/
def State.completeHoming (s : State) (g : Fin 12) : State :=
  let x := s.ind.gauges.get g
  s.enterGauge g { x with state := s.homedState g, homing := none, position := 0, moving := false }

/-! ## Chime (R112 to R114) -/

/-- The chime phase replaced. -/
def State.setChime (s : State) (c : Chime) : State := s.setInd { s.ind with chime := c }

/-- A candidate of the arbiter (R112). -/
def State.candidate (s : State) (w : Fin 96) : Bool :=
  let x := s.warn.rows.get w
  let sounding :=
    match s.ind.chime.phase with
    | .singleTone _ => s.ind.chime.selection = some w
    | _ => false
  x.state = .activeUnack &&
    match (s.profile.warnings.get w).pattern with
    | .none => false
    | .single => !x.chimed || sounding
    | .repeating => true
    | .continuous => true

/-- The first candidate in display order (R112). -/
def State.firstCandidate (s : State) : Option (Fin 96) := s.displayOrder.find? s.candidate

/-- The chimed flag of a warning set (R89, R113). -/
def State.setChimed (s : State) (w : Fin 96) : State :=
  s.setWarn { s.warn with rows := s.warn.rows.modify w (fun x => { x with chimed := true }) }

/-- The pattern of a selection begun from its start (R113). -/
def State.beginPattern (s : State) (sel : Option (Fin 96)) : State :=
  match sel with
  | none => s.setChime { s.ind.chime with selection := none, phase := .silent }
  | some w =>
    match (s.profile.warnings.get w).pattern with
    | .none => s.setChime { s.ind.chime with selection := some w, phase := .silent }
    | .single => (s.setChimed w).setChime { s.ind.chime with selection := some w, phase := .singleTone 0 }
    | .repeating => s.setChime { s.ind.chime with selection := some w, phase := .repeatTone 0 }
    | .continuous => s.setChime { s.ind.chime with selection := some w, phase := .steady }

/-- The arbiter evaluates its selection: undisturbed, or stopped and begun anew (R112); during a CHIME test the selection is
kept current and no pattern begins (R114). -/
def State.evalChime (s : State) : State :=
  let c := s.firstCandidate
  if s.ind.chime.test.isSome then s.setChime { s.ind.chime with selection := c, phase := .silent }
  else if c = s.ind.chime.selection then s
  else s.beginPattern c

/-- The CHIME test ends: silence, then the pattern of the selection from its start (R114). -/
def State.endChimeTest (s : State) : State :=
  let s1 := s.setChime { selection := none, phase := .silent, test := none }
  s1.beginPattern s1.firstCandidate

/-- The chime silent with no selection (R115, R118). -/
def State.silenceChime (s : State) : State := s.setChime { s.ind.chime with selection := none, phase := .silent, test := none }

/-! ## The end of an output test (R177) -/

/-- The running test ends with an outcome, and normal indication is restored at once; with no test running nothing changes. The status word
is offered before the gauges' actual words: log entry 48. -/
def State.endTest (s : State) (o : TestOutcome) : State :=
  if s.svc.test = .none then s
  else
    let s1 := s.setSvc { s.svc with test := .none, testDuration := 0, testTimer := none, lastOutcome := o }
    let s2 := s.offerStatus s1
    match s.svc.test with
    | .none => s2
    | .lamp => s2.evalAllLamps
    | .gaugeSweep => s2.forEach (List.finRange 12) State.leaveSweep
    | .chime => s2.endChimeTest

end Sys2Proof.Machine
end

