-- ==== Sys2Proof/Machine/Warnings.lean ====
section
/-! DEFINITION. The warning unit's operations (04): conditions, the activation machine, acknowledgement, and what a warning event
hands on. -/

namespace Sys2Proof.Machine

/-! ## Conditions (R72 to R77) -/

/-- Whether a motion gate is open (R77). -/
def gateOpen (m : Motion) : Gate → Bool
  | .always => true
  | .whenMoving => m ≠ .stopped
  | .whenStopped => m = .stopped

/-- A door named in a mask (Table 4-1). -/
def masked (mask : BitVec 8) (d : Fin 6) : Bool := mask.getLsbD d.val

/-- The raw condition (R72 to R76); ABOVE and BELOW keep the old one inside the hysteresis band. -/
def State.rawCondition (s : State) (w : Warning) : Condition → Bool
  | .unused => false
  | .above n threshold hysteresis =>
    if (s.quality n).usable then
      if threshold.toInt < (s.value n).toInt then true
      else if (s.value n).toInt ≤ threshold.toInt - hysteresis then false
      else w.raw
    else false
  | .below n threshold hysteresis =>
    if (s.quality n).usable then
      if (s.value n).toInt < threshold.toInt then true
      else if threshold.toInt + hysteresis ≤ (s.value n).toInt then false
      else w.raw
    else false
  | .equal n threshold => (s.quality n).usable && s.value n = threshold
  | .qualityBad n => !(s.quality n).usable
  | .doorOpen mask => (List.finRange 6).any (fun d => masked mask d && (s.door.doors.get d).countsOpen)
  | .doorFault mask => (List.finRange 6).any (fun d => masked mask d && (s.door.doors.get d).state = .fault)
  | .faultKind k =>
    s.fm.records.rows.any (fun r => r.any (fun x => decide (x.code.kind = k) && decide (x.state = .active)))
  | .hostSet => w.hostSet

/-! ## The activation machine (R78 to R82) -/

/-- An activation (R79). -/
def Warning.activate (clock : BitVec 32) (w : Warning) : Warning :=
  { w with state := .activeUnack, timer := none, latched := false, armed := false, chimed := false,
           number := w.number + 1, time := clock }

/-- The return to INACTIVE (R81). -/
def Warning.toInactive (w : Warning) : Warning :=
  { w with state := .inactive, timer := none, latched := false, armed := false, chimed := false }

/-- The off-delay expiry of an active warning (R80). -/
def Warning.offExpire (cfg : WarnCfg) (w : Warning) : Warning :=
  if w.state = .activeUnack ∧ cfg.latching then { w with timer := none, latched := true } else w.toInactive

/-- The condition present becomes yes (R78, R80). -/
def Warning.conditionYes (cfg : WarnCfg) (clock : BitVec 32) (w : Warning) : Warning :=
  let x := { w with present := true }
  match w.state with
  | .inactive =>
    if cfg.onDelay = 0 then x.activate clock else { x with state := .pending, timer := some (.onDelay, 0) }
  | .pending => x
  | .activeUnack => { x with timer := none, latched := false }
  | .activeAck => { x with timer := none }

/-- The condition present becomes no (R78, R80). -/
def Warning.conditionNo (cfg : WarnCfg) (w : Warning) : Warning :=
  let x := { w with present := false }
  match w.state with
  | .inactive => x
  | .pending => { x with state := .inactive, timer := none }
  | .activeUnack => if cfg.offDelay = 0 then x.offExpire cfg else { x with timer := some (.offDelay, 0) }
  | .activeAck => if cfg.offDelay = 0 then x.offExpire cfg else { x with timer := some (.offDelay, 0) }

/-- A re-evaluation with its raw condition and gate; an unchanged condition present causes no transition (R77). -/
def Warning.evaluate (cfg : WarnCfg) (clock : BitVec 32) (raw isOpen : Bool) (w : Warning) : Warning :=
  let x := { w with raw := raw }
  if (raw && isOpen) = w.present then x
  else if raw && isOpen then x.conditionYes cfg clock
  else x.conditionNo cfg

/-- The effect of an acknowledgement on an ACTIVE_UNACK warning (R82). -/
def Warning.acknowledge (w : Warning) : Warning :=
  if w.latched then w.toInactive else { w with state := .activeAck, armed := false }

/-! ## What a warning event hands on (R89 to R91) -/

/-- The warning unit evaluates while the mode is RUN and a profile is in force (R71), but not while a profile restart keeps the window
closed: no warning is active then, and the end of the restart evaluates every used one (R83, R95, log entry 28). -/
def State.warningsRun (s : State) : Bool := s.mode.mode = .run && s.inForce && s.path.windowOpen

/-- The offsets of the display list (R88). -/
def displayOffsets : List Nat := (List.range 8).map offDisplay

/-- A new warning table taken and handed on (R89): the images of the changed cells and of the display list (log entry 48), the cause WARNING
(R91), the end of a running test on a STOP activation (R79), the telltales that name a changed warning, the chime. That order is the
model's, so the words of the warnings are offered before those of the test's end: log entries 48 and 51. -/
def State.commitWarnings (old : State) (rows : Table 96 Warning) : State :=
  let s := old.setWarn { old.warn with rows := rows }
  let changed := (List.finRange 96).filter (fun w => rows.get w ≠ old.warn.rows.get w)
  let activated := changed.filter (fun w => (rows.get w).number ≠ (old.warn.rows.get w).number)
  let listChanged := displayOffsets.any (fun o => old.imageWord o ≠ s.imageWord o)
  let s1 := old.offerChanged s (changed.map offWarning ++ displayOffsets)
  let s2 := if activated ≠ [] ∨ listChanged then s1.setCause .warning else s1
  let s3 := if activated.any (fun w => (s.profile.warnings.get w).cls = .stop) then s2.endTest .stopWarning else s2
  let s4 := s3.evalLampsNaming (fun x =>
    match x with
    | .warning w => changed.contains w
    | _ => false)
  s4.evalChime

/-- The warning table with the warnings that `p` selects re-evaluated (R77). -/
def State.evaluatedRows (s : State) (p : WarnCfg → Bool) : Table 96 Warning :=
  .ofFn (fun i =>
    let cfg := s.profile.warnings.get i
    let w := s.warn.rows.get i
    if p cfg && cfg.condition ≠ .unused then
      w.evaluate cfg s.warn.clock (s.rawCondition w cfg.condition) (gateOpen s.sig.motion cfg.gate)
    else w)

/-- The warnings that `p` selects are re-evaluated in one step (R77), while the unit evaluates at all (R71). -/
def State.evalWarnings (s : State) (p : WarnCfg → Bool) : State :=
  if s.warningsRun then s.commitWarnings (s.evaluatedRows p) else s

/-- The condition names a signal. -/
def namesSignal (n : Fin 256) (c : WarnCfg) : Bool :=
  match c.condition with
  | .above m _ _ => m = n
  | .below m _ _ => m = n
  | .equal m _ => m = n
  | .qualityBad m => m = n
  | .unused => false
  | .doorOpen _ => false
  | .doorFault _ => false
  | .faultKind _ => false
  | .hostSet => false

/-- The condition names a door. -/
def namesDoor (d : Fin 6) (c : WarnCfg) : Bool :=
  match c.condition with
  | .doorOpen mask => masked mask d
  | .doorFault mask => masked mask d
  | .above _ _ _ => false
  | .below _ _ _ => false
  | .equal _ _ => false
  | .qualityBad _ => false
  | .unused => false
  | .faultKind _ => false
  | .hostSet => false

/-- The condition names one of some fault kinds. -/
def namesKind (ks : List FaultKind) (c : WarnCfg) : Bool :=
  match c.condition with
  | .faultKind k => ks.contains k
  | .above _ _ _ => false
  | .below _ _ _ => false
  | .equal _ _ => false
  | .qualityBad _ => false
  | .unused => false
  | .doorOpen _ => false
  | .doorFault _ => false
  | .hostSet => false

/-- The motion gate reads the motion state (R77). -/
def gatedByMotion (c : WarnCfg) : Bool := c.gate ≠ .always

/-- One warning replaced and handed on. -/
def State.commitWarning (s : State) (w : Fin 96) (x : Warning) : State := s.commitWarnings (s.warn.rows.set w x)

/-- An acknowledgement taken on an ACTIVE_UNACK warning (R82). -/
def State.acknowledge (s : State) (w : Fin 96) : State := s.commitWarning w (s.warn.rows.get w).acknowledge

/-! ## The ack input (R85) -/

/-- Level of the ack input for a signal. -/
def ackLevelOf (q : Quality) (v : BitVec 16) : AckLevel :=
  match q with
  | .good => if v = 0 then .low else .high
  | .never => .unknown
  | .stale => .unknown
  | .invalid => .unknown
  | .substituted => .unknown

/-- The first ACTIVE_UNACK warning in display order. -/
def State.firstUnack (s : State) : Option (Fin 96) :=
  s.displayOrder.find? (fun w => (s.warn.rows.get w).state = .activeUnack)

/-- A handed change of a signal, as the ack input: a rising edge in RUN acknowledges the first ACTIVE_UNACK warning. Changes
handed in PARKING are not acted on (R92). -/
def State.ackInput (s : State) (n : Fin 256) : State :=
  if s.profile.ackInput = some n ∧ s.mode.mode ≠ .parking ∧ s.mode.mode ≠ .parked then
    let lvl := ackLevelOf (s.quality n) (s.value n)
    let edge := s.warn.ackLevel = .low && lvl = .high
    let s1 := s.setWarn { s.warn with ackLevel := lvl }
    if edge && s1.warningsRun then
      match s1.firstUnack with
      | none => s1
      | some w => s1.acknowledge w
    else s1
  else s

/-! ## Modes (R92, R93, R95) -/

/-- A warning at entry into PARKING (R92): number and time are kept. -/
def Warning.parked (w : Warning) : Warning := { number := w.number, time := w.time }

/-- The warning unit's part of the entry into PARKING (R92). -/
def State.parkWarnings (s : State) : State :=
  let s1 := s.commitWarnings (s.warn.rows.map Warning.parked)
  s1.setWarn { s1.warn with clock := 0 }

/-- Every used warning evaluated (R93). -/
def State.evalAllWarnings (s : State) : State := s.evalWarnings (fun _ => true)

/-- The warning unit's resumption at an entry into RUN out of PARKING or PARKED: the ack input's level is unknown (R93). -/
def State.resumeWarnings (s : State) : State :=
  (s.setWarn { s.warn with ackLevel := .unknown }).evalAllWarnings

/-- The warning unit at a profile restart (R95): the void-ack count is kept. A display list that empties sets WARNING (R91). -/
def State.restartWarnings (s : State) : State :=
  let s1 := s.setWarn { voidAcks := s.warn.voidAcks }
  if s.warn.rows.rows.any (fun w => w.state.isActive) then s1.setCause .warning else s1

end Sys2Proof.Machine
end

