-- ==== Sys2Proof/Machine/FaultMemory.lean ====
section
/-! DEFINITION. The fault memory's operations (08): the present set, the records and their lifecycle, healing, clearing, and what
each of them hands on. -/

namespace Sys2Proof.Machine

/-! ## The record table as data -/

/-- Kinds whose records are never written (R158, R159). -/
def volatileKind (k : FaultKind) : Bool := k = .configMemory || k = .profileBad

/-- A slot number queued at the tail, unless it is in the queue already (R158). -/
def FaultMemory.queue (fm : FaultMemory) (i : Fin 32) : FaultMemory :=
  if fm.writeQueue.contains i then fm else { fm with writeQueue := fm.writeQueue ++ [i] }

/-- A slot whose record's persisted contents changed is queued, but for the kinds that are never written (R158). -/
def FaultMemory.queueFor (fm : FaultMemory) (i : Fin 32) (k : FaultKind) : FaultMemory :=
  if volatileKind k then fm else fm.queue i

/-- One slot's record replaced. -/
def FaultMemory.put (fm : FaultMemory) (i : Fin 32) (r : Record) : FaultMemory :=
  { fm with records := fm.records.set i (some r) }

/-- One slot emptied: the memory-full flag becomes clear (R150). -/
def FaultMemory.empty (fm : FaultMemory) (i : Fin 32) : FaultMemory :=
  { fm with records := fm.records.set i none, full := false }

/-- The slot that holds the record of a code. -/
def FaultMemory.slotOf (fm : FaultMemory) (c : FaultCode) : Option (Fin 32) :=
  (List.finRange 32).find? (fun i => (fm.records.get i).any (fun r => r.code = c))

/-- The lowest-numbered empty slot (R149). -/
def FaultMemory.freeSlot (fm : FaultMemory) : Option (Fin 32) :=
  (List.finRange 32).find? (fun i => (fm.records.get i).isNone)

/-- Order in which PASSIVE records are displaced: highest healing count, earliest last seen, lowest slot (R150). -/
def displaceKey (fm : FaultMemory) (i : Fin 32) : Nat :=
  match fm.records.get i with
  | none => 0
  | some r =>
    let last := (r.last.map (fun m => m.cycle.toNat * 2 ^ 32 + m.ms.toNat)).getD 0
    ((255 - r.healing.toNat) * 2 ^ 56 + last) * 32 + i.val

/-- The PASSIVE record to displace (R150). -/
def FaultMemory.displaced (fm : FaultMemory) : Option (Fin 32) :=
  (sortByKey (displaceKey fm)
    ((List.finRange 32).filter (fun i => (fm.records.get i).any (fun r => r.state = .passive)))).head?

/-- A confirmation: ACTIVE, occurrence 1, both moments now, the freeze frame taken (R149). -/
def Record.confirm (now : Moment) (frame : Option Frame) (r : Record) : Record :=
  { r with state := .active, occurrence := 1, first := some now, last := some now, frame := frame, timer := none }

/-- A PASSIVE record confirmed again (R152). -/
def Record.reconfirm (now : Moment) (r : Record) : Record :=
  { r with state := .active, occurrence := satInc r.occurrence, healing := 0, last := some now, timer := none, seen := true }

/-- A record placed in the lowest empty slot, in the slot of a displaced record, or nowhere (R149, R150). The slot of a displaced record
is queued whatever the kinds of the two records (R150; R158 says both): log entry 53, the model's choice. -/
def FaultMemory.place (fm : FaultMemory) (r : Record) : FaultMemory × Option (Fin 32) :=
  match fm.freeSlot with
  | some i => (fm.put i r, some i)
  | none =>
    match fm.displaced with
    | some i => (((fm.empty i).put i r).queue i, some i)
    | none => ({ fm with overflow := satInc fm.overflow, full := true }, none)

/-- A PENDING record created for a code; with a confirm time of 0 it is confirmed at once (R149). -/
def FaultMemory.create (fm : FaultMemory) (c : FaultCode) (confirm : Nat) (now : Moment) (frame : Option Frame) :
    FaultMemory × Option (Fin 32) :=
  let r : Record := { code := c, timer := some 0 }
  match fm.place r with
  | (fm1, none) => (fm1, none)
  | (fm1, some i) =>
    if confirm = 0 then ((fm1.put i (r.confirm now frame)).queueFor i c.kind, some i) else (fm1, some i)

/-- What FAULT watches of a slot: a confirmed record with its state, occurrence and healing counts (R156). -/
def confirmedView (r : Option Record) : Option (FaultCode × RecordState × Byte × Byte) :=
  match r with
  | none => none
  | some r => if r.state = .pending then none else some (r.code, r.state, r.occurrence, r.healing)

/-- The kind of a slot's ACTIVE record. -/
def activeKind (r : Option Record) : Option FaultKind :=
  match r with
  | none => none
  | some r => if r.state = .active then some r.code.kind else none

/-! ## What the fault memory hands on (R156) -/

/-- The sixteen offsets of some slots' record cells. -/
def recordOffsets (slots : List (Fin 32)) : List Nat :=
  slots.flatMap (fun i => (List.range 16).map (offRecord i))

/-- A new fault memory taken and handed on (R156): the changed words of the slots' cells, the overflow count and the status cell, offered in
this order (log entry 48), the cause FAULT, and then the FAULT_KIND warnings of the kinds that entered or left ACTIVE (log entry 51). -/
def State.commitFaults (old : State) (fm : FaultMemory) (slots : List (Fin 32)) (confirmed : Bool) : State :=
  let s := old.setFm fm
  let kinds := slots.flatMap (fun i =>
    let a := activeKind (old.fm.records.get i)
    let b := activeKind (fm.records.get i)
    if a = b then [] else a.toList ++ b.toList)
  let due := confirmed || slots.any (fun i => confirmedView (old.fm.records.get i) ≠ confirmedView (fm.records.get i)) ||
    old.fm.overflow.toNat < fm.overflow.toNat || old.fm.full ≠ fm.full
  let s1 := old.offerChanged s (recordOffsets slots ++ [offCountB, offStatus])
  let s2 := if due then s1.setCause .fault else s1
  if kinds = [] then s2 else s2.evalWarnings (namesKind kinds)

/-- The present moment (08 section 8.3). -/
def State.now (s : State) : Moment := { cycle := s.mode.cycle, ms := s.mode.time }

/-- The freeze frame as the live state gives it; an empty freeze list gives none (R154). -/
def State.freezeFrame (s : State) : Option Frame :=
  if s.profile.freeze = [] then none
  else
    some
      { motion := s.sig.motion
        openCount := s.door.openCount
        entries := s.profile.freeze.map
          (fun n => { signal := BitVec.ofNat 8 n.val, value := s.value n, quality := s.quality n }) }

/-! ## Reports (R147 to R153) -/

/-- An appearance (R148, R149, R152). -/
def State.appear (s : State) (c : FaultCode) : State :=
  if s.fm.present.contains c then s
  else if Config.presentMax ≤ s.fm.present.length then
    s.commitFaults { s.fm with overflow := satInc s.fm.overflow } [] false
  else
    let fm := { s.fm with present := s.fm.present ++ [c] }
    match fm.slotOf c with
    | some i =>
      match fm.records.get i with
      | none => s.setFm fm
      | some r =>
        if r.state = .passive then s.commitFaults ((fm.put i (r.reconfirm s.now)).queueFor i c.kind) [i] true
        else s.setFm fm
    | none =>
      let p := fm.create c s.profile.confirm s.now s.freezeFrame
      s.commitFaults p.1 p.2.toList (s.profile.confirm = 0 && p.2.isSome)

/-- A disappearance (R148, R149, R151). -/
def State.disappear (s : State) (c : FaultCode) : State :=
  if s.fm.present.contains c then
    let fm := { s.fm with present := s.fm.present.filter (fun x => x ≠ c) }
    match fm.slotOf c with
    | none => s.setFm fm
    | some i =>
      match fm.records.get i with
      | none => s.setFm fm
      | some r =>
        match r.state with
        | .pending => s.commitFaults (fm.empty i) [i] false
        | .active => s.commitFaults ((fm.put i { r with state := .passive }).queueFor i c.kind) [i] false
        | .passive => s.setFm fm
  else s

/-- A momentary report acting on the records: an appearance and a disappearance in one step (R153). -/
def State.takeMomentary (s : State) (k : FaultKind) : State :=
  let c : FaultCode := { kind := k, subject := 0 }
  match s.fm.slotOf c with
  | some i =>
    match s.fm.records.get i with
    | none => s
    | some r =>
      s.commitFaults ((s.fm.put i { r.reconfirm s.now with state := .passive }).queueFor i k) [i] true
  | none =>
    match s.fm.place { code := c } with
    | (fm, none) => s.commitFaults fm [] false
    | (fm, some i) =>
      let r := (({ code := c } : Record).confirm s.now s.freezeFrame)
      s.commitFaults ((fm.put i { r with state := .passive }).queueFor i k) [i] true

/-- A momentary report; before the fault slots are loaded it is held in the order handed (R162). -/
def State.momentary (s : State) (k : FaultKind) : State :=
  if s.fm.loaded then s.takeMomentary k
  else s.setFm { s.fm with heldReports := s.fm.heldReports ++ [{ kind := k, subject := 0 }] }

/-- The two reports of a change from one code to another, the disappearance first (R8, R43, R60). -/
def State.reportChange (s : State) (old new : Option FaultCode) : State :=
  if old = new then s
  else
    let s1 := match old with
      | none => s
      | some c => s.disappear c
    match new with
    | none => s1
    | some c => s1.appear c

/-- A PENDING record confirmed at its confirm expiry (R149). -/
def State.confirmSlot (s : State) (i : Fin 32) : State :=
  match s.fm.records.get i with
  | none => s
  | some r =>
    if r.state = .pending then
      s.commitFaults ((s.fm.put i (r.confirm s.now s.freezeFrame)).queueFor i r.code.kind) [i] true
    else s

/-! ## Healing (R155) -/

/-- A record raised by a healing pass, and removed at the heal limit (R155). -/
def Record.heal (limit : Nat) (r : Record) : Option Record :=
  if r.state = .passive ∧ r.seen = false then
    let r' := { r with healing := satInc r.healing }
    if limit ≠ 0 ∧ limit ≤ r'.healing.toNat then none else some r'
  else some r

/-- The slots that a healing pass changes so that they are written (R155, R158). -/
def healQueued (old new : Option Record) : Bool :=
  match old with
  | none => false
  | some r =>
    !volatileKind r.code.kind && (new.isNone || new.any (fun x => x.healing ≠ r.healing))

/-- The healing pass over all records in one step (R155). -/
def FaultMemory.healed (fm : FaultMemory) (limit : Nat) : FaultMemory :=
  let raised : Table 32 (Option Record) := fm.records.map (fun r => r.bind (Record.heal limit))
  let emptied := (List.finRange 32).any (fun i => (fm.records.get i).isSome && (raised.get i).isNone)
  let marked := raised.map (fun r => r.map (fun x => { x with seen := fm.present.contains x.code }))
  let queued := (List.finRange 32).filter (fun i => healQueued (fm.records.get i) (raised.get i))
  queued.foldl FaultMemory.queue { fm with records := marked, full := fm.full && !emptied }

/-- A drive-cycle end taken by the fault memory (R155). -/
def State.healingPass (s : State) : State :=
  s.commitFaults (s.fm.healed s.profile.heal) (List.finRange 32) false

/-! ## Clearing (R160) -/

/-- The clear of the record table, before the present codes get records again (R160). -/
def FaultMemory.cleared (fm : FaultMemory) (who : Requester) : FaultMemory :=
  (List.finRange 32).foldl FaultMemory.queue
    { fm with
      records := Table.const 32 none
      overflow := 0
      full := false
      clearing := true
      outstanding := List.finRange 32
      requester := some who }

/-- The write in flight when a clear is taken does not count for it (R161). -/
def Operation.excluded : Operation → Operation
  | .slotWrite i snap retried _ => .slotWrite i snap retried false
  | .none => .none
  | .startProfileRead => .startProfileRead
  | .startCountersRead => .startCountersRead
  | .startSlotsRead => .startSlotsRead
  | .restartRead => .restartRead
  | .countersWrite snap retried => .countersWrite snap retried
  | .storeRead p n k => .storeRead p n k
  | .storeWrite p n k snap retried => .storeWrite p n k snap retried
  | .storeAbort snap => .storeAbort snap

/-- A table that holds a confirmed record. -/
def FaultMemory.hasConfirmed (fm : FaultMemory) : Bool := fm.records.rows.any (fun r => (confirmedView r).isSome)

/-- A clear taken in one step (R160): the caller has checked that none is in progress. FAULT is set when it removed or confirmed a
record, raised the overflow count from 0, or changed the memory-full flag (R156). -/
def State.takeClear (s : State) (who : Requester) : State :=
  let fm := s.fm.present.foldl (fun fm c => (fm.create c s.profile.confirm s.now s.freezeFrame).1) (s.fm.cleared who)
  let s1 := s.setCtrl { s.ctrl with operation := s.ctrl.operation.excluded }
  s1.commitFaults fm (List.finRange 32) (s.fm.hasConfirmed || fm.hasConfirmed || fm.overflow ≠ 0)

/-! ## Profile restart (R163) -/

/-- The fault memory at a profile restart: present set emptied, PENDING records removed, ACTIVE records PASSIVE and queued, in
ascending order of their slots: log entry 40. -/
def FaultMemory.restarted (fm : FaultMemory) : FaultMemory :=
  let next : Option Record → Option Record := fun r =>
    match r with
    | none => none
    | some r =>
      match r.state with
      | .pending => none
      | .active => some { r with state := .passive }
      | .passive => some r
  let emptied := fm.records.rows.any (fun r => r.any (fun x => x.state = .pending))
  let activeSlots := (List.finRange 32).filter (fun i => (fm.records.get i).any (fun x => x.state = .active))
  activeSlots.foldl FaultMemory.queue
    { fm with present := [], records := fm.records.map next, full := fm.full && !emptied }

/-- R163 handed on; the changes of confirmed records and of the memory-full flag set the cause FAULT: log entry 40. -/
def State.restartFaults (s : State) : State := s.commitFaults s.fm.restarted (List.finRange 32) false

end Sys2Proof.Machine
end

