-- ==== Sys2Proof/Machine/Motion.lean ====
section
/-! DEFINITION. The motion state (01, R16 to R18), the workshop level (09, R174) and what a change of either hands on. -/

namespace Sys2Proof.Machine

/-! ## Workshop level (R174) -/

/-- The three conditions judged anew: the status image, and the end of a running test when the level lapses. -/
def State.judgeLevel (s : State) : State :=
  let on := s.goodNonzero s.profile.serviceSwitch
  let standing := decide (s.sig.motion = .stopped)
  let brake := s.goodNonzero s.profile.parkingBrake
  let level := s.inForce && on && standing && brake
  let s1 := s.offerStatus (s.setSvc
    { s.svc with
      switchOn := on
      standing := standing
      brakeOn := brake
      level := level })
  if s.svc.level && !level then s1.endTest .levelLost else s1

/-! ## Motion state (R16 to R18) -/

/-- Class of the speed reference (Table 1-6). -/
inductive RefClass where
  | bad | high | low | substituted
deriving DecidableEq, Repr

/-- The class that a quality and a value give (Table 1-6). -/
def classOf (threshold : BitVec 16) (q : Quality) (v : BitVec 16) : RefClass :=
  match q with
  | .never => .bad
  | .stale => .bad
  | .invalid => .bad
  | .substituted => .substituted
  | .good => if v.toInt < threshold.toInt then .low else .high

/-- The motion state and hold timer that a classification gives (R16, R17); a hold time of 0 expires at once. -/
def motionAfter (c : RefClass) (stopHold : Nat) (m : Motion) (hold : Option Nat) : Motion × Option Nat :=
  match c with
  | .bad => (.unknown, none)
  | .high => (.moving, none)
  | .substituted => (.moving, none)
  | .low =>
    if m = .stopped then (.stopped, none)
    else if stopHold = 0 then (.stopped, none)
    else (.moving, some (hold.getD 0))

/-- A motion state and hold timer taken; a change of the motion state is handed on (R18): the status word, the warnings, the workshop
level, in this order, so that a STOP warning ends a test before a lapse of the level does: log entry 51. -/
def State.takeMotion (s : State) (m : Motion) (hold : Option Nat) : State :=
  let s1 := s.setSig { s.sig with motion := m, hold := hold }
  if m = s.sig.motion then s1 else ((s.offerStatus s1).evalWarnings gatedByMotion).judgeLevel

/-- The class of the reference as it stands; with no reference named it stays NEVER (R16). -/
def State.refClass (s : State) : RefClass :=
  match s.profile.reference with
  | none => .bad
  | some n => classOf s.profile.movingThreshold (s.quality n) (s.value n)

/-- The reference classified and acted on (R16, R17). -/
def State.deriveMotion (s : State) : State :=
  let r := motionAfter s.refClass s.profile.stopHold s.sig.motion s.sig.hold
  s.takeMotion r.1 r.2

end Sys2Proof.Machine
end

