-- ==== Sys2Proof/Machine/Doors.lean ====
section
/-! DEFINITION. The door unit's operations (03): the derivation of a door, its timer, counters and summary, and what a door event
hands on. -/

namespace Sys2Proof.Machine

/-- Value of a bound signal that is GOOD or SUBSTITUTED (R52). -/
def State.usableValue (s : State) (b : Option (Fin 256)) : Option (BitVec 16) :=
  match b with
  | none => none
  | some n => if (s.quality n).usable then some (s.value n) else none

/-- A controller code as a door state (Table 3-3). -/
def codeState (v : BitVec 16) : DoorState :=
  match v.toNat with
  | 0 => .closedLocked
  | 1 => .closed
  | 2 => .opening
  | 3 => .opened
  | 4 => .closing
  | 5 => .reversing
  | _ => .fault

/-- Whether the code contradicts the closed switch (R58). -/
def State.contradicts (s : State) (cfg : DoorCfg) (code : DoorState) : Bool :=
  match cfg.closed with
  | none => false
  | some n =>
    s.quality n = .good &&
      match code with
      | .closedLocked => s.value n = 0
      | .closed => s.value n = 0
      | .opened => s.value n ≠ 0
      | .opening => false
      | .closing => false
      | .reversing => false
      | .fault => false
      | .unknown => false

/-- State and source by the switches (R54). -/
def State.degraded (s : State) (cfg : DoorCfg) : DoorState × DoorSource :=
  match s.usableValue cfg.closed with
  | none => (.unknown, .none)
  | some c =>
    if c = 0 then (.opened, .degraded)
    else
      match s.usableValue cfg.locked with
      | none => (.closed, .degraded)
      | some l => if l = 0 then (.closed, .degraded) else (.closedLocked, .degraded)

/-- The timer of an entry into OPENING or CLOSING, kept while the door stays there (R56). -/
def motionTimer (p : DoorPurpose) (stays : Bool) (t : Option (DoorPurpose × Nat)) : Option (DoorPurpose × Nat) :=
  if stays then t else some (p, 0)

/-- A door following a code that contradicts nothing (R53, R56, R57). -/
def Door.follow (code : DoorState) (x : Door) : Door :=
  match code with
  | .fault => { x with state := .fault, source := .controller, cause := .code, timer := none }
  | .opening =>
    if x.cause = .slowOpen then { x with source := .controller }
    else
      { x with
        state := .opening
        source := .controller
        cause := .none
        timer := motionTimer .openMotion (x.state = .opening) x.timer }
  | .closing =>
    if x.cause = .slowClose then { x with source := .controller }
    else
      { x with
        state := .closing
        source := .controller
        cause := .none
        timer := motionTimer .closeMotion (x.state = .closing) x.timer }
  | .unknown => { x with state := .unknown, source := .controller, cause := .none, timer := none }
  | .closedLocked => { x with state := .closedLocked, source := .controller, cause := .none, timer := none }
  | .closed => { x with state := .closed, source := .controller, cause := .none, timer := none }
  | .opened => { x with state := .opened, source := .controller, cause := .none, timer := none }
  | .reversing => { x with state := .reversing, source := .controller, cause := .none, timer := none }

/-- A door whose code contradicts the switch (R58): FAULT with cause DISAGREE stays, otherwise the state follows the code and the
timer runs for DISAGREE from the contradiction's beginning. -/
def Door.disputed (code : DoorState) (x : Door) : Door :=
  if x.cause = .disagree then { x with source := .controller }
  else
    let timer :=
      match x.timer with
      | some (.disagree, e) => some (.disagree, e)
      | some (.openMotion, _) => some (.disagree, 0)
      | some (.closeMotion, _) => some (.disagree, 0)
      | none => some (.disagree, 0)
    { x with state := code, source := .controller, cause := .none, timer := timer }

/-- A derivation (R55): R59 and R54 without a usable controller, R58 or R53 with one. -/
def State.derive (s : State) (cfg : DoorCfg) (x : Door) : Door :=
  match s.usableValue cfg.controller with
  | none => { x with state := (s.degraded cfg).1, source := (s.degraded cfg).2, cause := .none, timer := none }
  | some v => if s.contradicts cfg (codeState v) then x.disputed (codeState v) else x.follow (codeState v)

/-- A door in FAULT with a cause, its timer idle (R57, R58). -/
def Door.fail (c : DoorCause) (x : Door) : Door := { x with state := .fault, cause := c, timer := none }

/-- The disagreement timer of a door with a tolerance of 0 runs: its expiry follows at once (R58). -/
def Door.expiresAtOnce (cfg : DoorCfg) (x : Door) : Bool := x.timer.any (fun t => t.1 = .disagree) && cfg.tolerance = 0

/-- Entries into OPEN that count a cycle (R61). -/
def countsCycle : DoorState → Bool
  | .unknown => true
  | .closedLocked => true
  | .closed => true
  | .opening => true
  | .closing => true
  | .opened => false
  | .reversing => false
  | .fault => false

/-- The counters after the door went from state `was` to its state (R61). -/
def Door.counted (was : DoorState) (x : Door) : Door :=
  { x with
    openCycles := if x.state = .opened && countsCycle was then satInc x.openCycles else x.openCycles
    obstructions := if x.state = .reversing && was ≠ .reversing then satInc x.obstructions else x.obstructions }

/-- A door derived and counted (R55, R61). -/
def State.derived (s : State) (cfg : DoorCfg) (x : Door) : Door := (s.derive cfg x).counted x.state

/-- Where a derivation leaves a door once an expiry that follows it at once is taken too (R58). -/
def State.rederive (s : State) (cfg : DoorCfg) (x : Door) : Door :=
  let y := s.derived cfg x
  if y.expiresAtOnce cfg then y.fail .disagree else y

/-- CLOSED or CLOSED_LOCKED. -/
def DoorState.isClosed : DoorState → Bool
  | .closedLocked => true
  | .closed => true
  | .unknown => false
  | .opening => false
  | .opened => false
  | .closing => false
  | .reversing => false
  | .fault => false

/-- Whether a door counts open (R63); a non-present one does not (R51). -/
def State.countsOpen (s : State) (cfg : DoorCfg) (x : Door) : Bool :=
  cfg.present && (!x.state.isClosed || (cfg.ramp && s.goodNonzero cfg.rampOut))

/-- The door summary of a table (R63). -/
def summary (cfgs : Table 6 DoorCfg) (doors : Table 6 Door) : DoorUnit :=
  let count := (doors.indices Door.countsOpen).length
  { doors := doors
    openCount := count
    allLocked := count = 0 &&
      (List.finRange 6).all (fun d => !(cfgs.get d).present || (doors.get d).state = .closedLocked) }

/-- One door replaced, with its counts-open flag and the summary (R63). -/
def State.withDoor (s : State) (d : Fin 6) (x : Door) : State :=
  s.setDoor (summary s.profile.doors
    (s.door.doors.set d { x with countsOpen := s.countsOpen (s.profile.doors.get d) x }))

/-- Fault code of a fault cause (R60). -/
def doorCode (d : Fin 6) : DoorCause → Option FaultCode
  | .none => none
  | .code => some { kind := .doorControllerFault, subject := BitVec.ofNat 8 d.val }
  | .disagree => some { kind := .doorDisagree, subject := BitVec.ofNat 8 d.val }
  | .slowOpen => some { kind := .doorSlowOpen, subject := BitVec.ofNat 8 d.val }
  | .slowClose => some { kind := .doorSlowClose, subject := BitVec.ofNat 8 d.val }

/-- Offsets of a door cell (R65). -/
def doorOffsets (d : Fin 6) : List Nat := (List.range 4).map (offDoor d)

/-- What a door event on the doors `ds` hands on, `s` holding its whole effect on the table and `old` the state before it (R64 to R66): the
images, the cause DOOR, the presence reports that `report` makes for each door, the warnings and the telltales. `passed` says that a door
changed its state or source on the way. The doors' words are offered before the status word: log entry 48; the order of the readers is log
entry 51. -/
def State.handDoors (old s : State) (ds : List (Fin 6)) (passed : Bool) (report : State → Fin 6 → State) : State :=
  let was := fun d => old.door.doors.get d
  let now := fun d => s.door.doors.get d
  let moved := ds.filter (fun d => (was d).state ≠ (now d).state)
  let opened := ds.filter (fun d => (was d).countsOpen ≠ (now d).countsOpen)
  let summaryChanged := decide (old.door.openCount ≠ s.door.openCount) || decide (old.door.allLocked ≠ s.door.allLocked)
  let s1 := old.offerStatus (old.offerChanged s (ds.flatMap doorOffsets))
  let s2 :=
    if passed || summaryChanged || moved ≠ [] || ds.any (fun d => (was d).source ≠ (now d).source) then s1.setCause .door else s1
  let s3 := s2.forEach ds report
  let s4 :=
    if moved ++ opened = [] then s3 else s3.evalWarnings (fun c => (moved ++ opened).any (fun d => namesDoor d c))
  if opened ≠ [] ∨ old.door.openCount ≠ s.door.openCount then
    s4.evalLampsNaming (fun q => q = .doorAnyOpen ∨ ∃ d ∈ opened, q = .doorOpen d)
  else s4

/-- An event of one door taken: the whole effect on the table first, then the hand-over (R64). -/
def State.commitDoor (s : State) (d : Fin 6) (x : Door) : State :=
  s.handDoors (s.withDoor d x) [d] false
    (fun t e => t.reportChange (doorCode e (s.door.doors.get e).cause) (doorCode e x.cause))

/-- Whether a door's derivation reads a signal: the ramp signal only of a RAMP door (R51). -/
def boundDoor (cfg : DoorCfg) (n : Fin 256) : Bool :=
  cfg.present && (cfg.controller = some n || cfg.closed = some n || cfg.locked = some n || (cfg.ramp && cfg.rampOut = some n))

/-- The expiry that follows a door's derivation at once, an event of its own (R55, R58). -/
def State.expireDoorAtOnce (s : State) (d : Fin 6) : State :=
  let x := s.door.doors.get d
  if x.expiresAtOnce (s.profile.doors.get d) then s.commitDoor d (x.fail .disagree) else s

/-- A handed change of a signal re-derives each door bound to it (R55), in ascending order of the doors: log entry 12. -/
def State.doorsHanded (s : State) (n : Fin 256) : State :=
  s.forEach (List.finRange 6) (fun s d =>
    if boundDoor (s.profile.doors.get d) n then
      (s.commitDoor d (s.derived (s.profile.doors.get d) (s.door.doors.get d))).expireDoorAtOnce d
    else s)

/-- A door set back to UNKNOWN, its counters kept (R68 to R70). -/
def Door.restarted (x : Door) : Door := { openCycles := x.openCycles, obstructions := x.obstructions }

/-- The door table when a profile comes into force, every signal NEVER: present doors count open (R69, R70). -/
def startedDoors (cfgs : Table 6 DoorCfg) (doors : Table 6 Door) : DoorUnit :=
  summary cfgs (.ofFn (fun d => { (doors.get d).restarted with countsOpen := (cfgs.get d).present }))

/-- A present door restarted from UNKNOWN and derived (R68), with its counts-open flag (R63). This is the door's one derivation at a
resume, the signals being resumed before it: log entry 49. -/
def State.resumedDoor (s : State) (d : Fin 6) : Door :=
  let cfg := s.profile.doors.get d
  let x := s.door.doors.get d
  if cfg.present then
    let y := s.derived cfg x.restarted
    { y with countsOpen := s.countsOpen cfg y }
  else x

/-- The present doors. -/
def State.presentDoors (s : State) : List (Fin 6) := (List.finRange 6).filter (fun d => (s.profile.doors.get d).present)

/-- Wake resume, one event of the door unit: every present door restarted and derived, the table and the summary complete, and only then
the hand-over (R64, R68), each door reporting the end of its old fault cause and then its new one. The passage through UNKNOWN sets the
cause DOOR, and images compare the two ends: log entry 42. The expiries of a tolerance of 0 follow as events of their own, ascending: log
entry 37. -/
def State.resumeDoors (s : State) : State :=
  let s1 := s.setDoor (summary s.profile.doors (.ofFn s.resumedDoor))
  let passed := s.presentDoors.any (fun d =>
    (s.door.doors.get d).state ≠ .unknown || (s.door.doors.get d).source ≠ .none)
  let s2 := s.handDoors s1 s.presentDoors passed (fun t d =>
    (t.reportChange (doorCode d (s.door.doors.get d).cause) none).reportChange none (doorCode d (s.resumedDoor d).cause))
  s2.forEach s.presentDoors State.expireDoorAtOnce

/-- Every running door timer idle, without an expiry (R67). -/
def DoorUnit.freeze (u : DoorUnit) : DoorUnit := { u with doors := u.doors.map (fun x => { x with timer := none }) }

end Sys2Proof.Machine
end

