-- ==== Sys2Proof/Machine/Supervision.lean ====
section
/-! DEFINITION. The host supervision unit's operations (07): alive writes, its three states, the HRST pulse, and what a change of
state hands on. -/

namespace Sys2Proof.Machine

/-- The code HOST_LOST, present while the state is LOST (R143). -/
def hostCode : SupState → Option FaultCode
  | .lost => some { kind := .hostLost, subject := 0 }
  | .normal => none
  | .starting => none

/-- The sources that read the supervision state (R143). -/
def readsSupervision : LampSource → Bool
  | .hostRequest => true
  | .hostLost => true
  | .warning _ => false
  | .signal _ => false
  | .doorAnyOpen => false
  | .doorOpen _ => false

/-- R109 applied to a HOST gauge. -/
def State.parkHostGauge (s : State) (g : Fin 12) : State :=
  if (s.profile.gauges.get g).mode = .host then s.parkDecision g else s

/-- A new state of the unit taken; a change of the supervision state is handed on (R143): the indication, the fault memory, the memory path,
in this order: log entry 51. -/
def State.commitSup (s : State) (u : Supervision) : State :=
  let s1 := s.setSup u
  if s.sup.state = u.state then s1
  else
    let s2 := (s1.evalLampsNaming readsSupervision).forEach (List.finRange 12) State.parkHostGauge
    let s3 := s2.reportChange (hostCode s.sup.state) (hostCode u.state)
    (s3.offer offStatus).setCause .host

/-- The unit after an entry into LOST, the HRST pulse begun if it is enabled and not spent (R142, R144). -/
def Supervision.lose (hrst : Bool) (u : Supervision) : Supervision :=
  let begins := hrst && !u.spent
  { state := .lost
    reference := none
    timer := none
    run := 0
    pulse := if begins then some 0 else u.pulse
    spent := u.spent || begins }

/-- The unit after an entry into NORMAL by a correct write; HRST spent becomes no (R140, R142, R144). -/
def Supervision.prove (k : Byte) (u : Supervision) : Supervision :=
  { state := .normal
    reference := some k
    timer := some (.timeout, 0)
    run := 0
    pulse := u.pulse
    spent := false }

/-- A correct write: the number is the reference plus one, modulo 256 (R139). -/
def Supervision.correct (k : Byte) (u : Supervision) : Bool :=
  match u.reference with
  | none => false
  | some r => k = r + 1

/-- A handed alive write judged under the rule of the present state (R139 to R142). -/
def Supervision.judge (k : Byte) (u : Supervision) : Supervision :=
  match u.state with
  | .starting => if u.correct k then u.prove k else { u with reference := some k }
  | .normal =>
    if u.correct k then { u with reference := some k, timer := some (.timeout, 0) } else { u with reference := some k }
  | .lost =>
    if u.correct k then
      if 2 ≤ u.run then u.prove k
      else { u with reference := some k, run := u.run + 1, timer := some (.timeout, 0) }
    else { u with reference := some k, run := 0, timer := some (.timeout, 0) }

/-- An alive write handed over (R121): in START and in the no-profile state it sets the reference only (R145), while PARKED it is
not handed (R137). -/
def State.aliveWrite (s : State) (k : Byte) : State :=
  if s.mode.mode = .parked then s
  else if s.mode.mode = .start ∨ s.profStatus ≠ .inForce then s.setSup { s.sup with reference := some k }
  else s.commitSup (s.sup.judge k)

/-- Supervision at wake resume: STARTING, its grace period from 0 where a profile is in force (R145, R146). -/
def State.resumeSup (s : State) : State :=
  s.commitSup
    { state := .starting
      reference := none
      timer := if s.inForce then some (.grace, 0) else none
      run := 0
      pulse := s.sup.pulse
      spent := if s.sup.state = .lost then false else s.sup.spent }

/-- The GRACE timer started at an entry into RUN that finds the state STARTING and the timer idle (R140, R145). -/
def State.startGrace (s : State) : State :=
  if s.inForce ∧ s.sup.state = .starting ∧ s.sup.timer = none then s.setSup { s.sup with timer := some (.grace, 0) } else s

end Sys2Proof.Machine
end

