-- ==== Sys2Proof/Machine/Modes.lean ====
section
/-! DEFINITION. The mode unit's operations (10): the ignition, drive cycles, the entry into PARKING, the park flush, PARKED and the
returns to RUN. -/

namespace Sys2Proof.Machine

/-! ## Ignition and drive cycles (R180, R181) -/

/-- The ignition as its signal stands (R180). -/
def State.ignitionNow (s : State) : Ignition :=
  match s.profile.ignition with
  | none => .unknown
  | some n => if s.quality n = .good then (if s.value n = 0 then .off else .on) else .unknown

/-- A drive-cycle start (R181): the counters, the lamp check (R103) and homing (R105). -/
def State.startCycle (s : State) : State :=
  let s1 := s.setMode { s.mode with cycleOpen := true, cycle := satInc s.mode.cycle, time := 0 }
  let s2 := s1.setCtrl { s1.ctrl with countersPending := true }
  let s3 :=
    if s2.profile.lampCheck = 0 then s2 else (s2.setInd { s2.ind with lampCheck := some 0 }).evalAllLamps
  s3.homeAll

/-- Every gauge that is driven becomes UNHOMED, the lamp check ends, the chime falls silent, telltales follow warnings only (R115). -/
def State.parkIndication (s : State) : State :=
  let s1 := (s.setInd { s.ind with lampCheck := none }).silenceChime
  (s1.forEach (List.finRange 12) State.unhome).evalAllLamps

/-- An entry into PARKING (R182): the fault memory, the warnings, the running test and the indication, in this order: log entry 51. -/
def State.enterParking (s : State) : State :=
  let s1 := s.setMode
    { s.mode with
      mode := .parking
      offTimer := none
      cycleOpen := false
      wakePending := {} }
  let s2 := s.offerStatus s1
  let s3 := if s.mode.cycleOpen then s2.healingPass else s2
  let s4 := s3.setCtrl { s3.ctrl with countersPending := true }
  (s4.parkWarnings.endTest .mode).parkIndication

/-- The ignition-off timer started; with a delay of 0 the expiry follows at once (R180), inside the step: log entry 37. -/
def State.startOffTimer (s : State) : State :=
  if s.profile.ignitionOff = 0 then s.enterParking else s.setMode { s.mode with offTimer := some 0 }

/-- The ignition judged as its signal stands, against the ignition as last judged (R180, R181). -/
def State.judgeIgnition (s : State) : State :=
  let now := s.ignitionNow
  let s1 := s.setMode { s.mode with ignition := now }
  if s.mode.mode = .run then
    match now with
    | .on =>
      let s2 := s1.setMode { s1.mode with offTimer := none }
      if s.mode.cycleOpen then s2 else s2.startCycle
    | .unknown => s1.setMode { s1.mode with offTimer := none }
    | .off => if s.mode.ignition = .off then s1 else s1.startOffTimer
  else s1

/-- The ignition judged at an entry into RUN, whatever was judged before (R180, R185). -/
def State.judgeIgnitionAtRun (s : State) : State :=
  (s.setMode { s.mode with ignition := .unknown }).judgeIgnition

/-! ## Returns to RUN (R185) -/

/-- The mode, the wake cause, the status image and the cause WAKE of a return to RUN. -/
def State.takeWakeCause (s : State) : State :=
  let s1 := s.setMode { s.mode with mode := .run, wakeCause := s.mode.wakePending, wakePending := {} }
  (s.offerStatus s1).setCause .wake

/-- The indication unit at an entry into RUN (R116, R117): telltales, homing, chime. -/
def State.enterRunIndication (s : State) : State := (s.evalAllLamps.homeAll).evalChime

/-- A return to RUN out of PARKING: not a wake resume (R185). The warnings are resumed before the telltales, the homing and the chime, an
order that R185 leaves open: log entry 51, the model's choice. -/
def State.returnToRun (s : State) : State :=
  s.takeWakeCause.resumeWarnings.enterRunIndication.judgeIgnitionAtRun

/-- A LINE or HOST entry at wake resume (R23). -/
def Signal.resumed (c : SignalCfg) (e : Signal) : Signal :=
  if sourceAges c.source then
    { value := 0
      quality := .never
      age := 0
      sequence := if e.value = 0 ∧ e.quality = .never then e.sequence else e.sequence + 1
      due := false }
  else e

/-- Fault code of an entry's quality (R8). -/
def signalCode (c : SignalCfg) (n : Fin 256) : Quality → Option FaultCode
  | .stale => if c.reportStale then some { kind := .signalStale, subject := BitVec.ofNat 8 n.val } else none
  | .substituted => if c.reportStale then some { kind := .signalStale, subject := BitVec.ofNat 8 n.val } else none
  | .invalid => if c.reportInvalid then some { kind := .signalInvalid, subject := BitVec.ofNat 8 n.val } else none
  | .never => none
  | .good => none

/-- The signal table at wake resume: images, disappearances, and the motion state derived anew (R23). The entries change together, and
no change of theirs derives a door under R55: each present door is derived once, from UNKNOWN, by State.resumeDoors after it: log
entry 49. -/
def State.resumeSignals (s : State) : State :=
  let entries : Table 256 Signal := .ofFn (fun n => (s.sig.entries.get n).resumed (s.profile.signals.get n))
  let s1 := s.offerChanged (s.setSig { s.sig with entries := entries }) ((List.finRange 256).map offSignal)
  let s2 := s1.forEach (List.finRange 256) (fun t n =>
    let c := s.profile.signals.get n
    t.reportChange (signalCode c n (s.quality n)) (signalCode c n (entries.get n).quality))
  s2.deriveMotion

/-- The filters and the speed timer at wake resume (R13, R23). -/
def InputUnit.resumed (u : InputUnit) : InputUnit :=
  { inputs := u.inputs.map (fun x => { x with stable := some 0, resettle := true })
    timing := false
    running := true
    count := 0
    edgeAt := u.edgeAt }

/-- An armed silence timer; with code 0 it is never armed (R40). -/
def armedSilence (c : LineCfg) : Option Nat := if (silenceLimit c.silence).isSome then some 0 else none

/-- A line at wake resume; its counts are kept (R48). -/
def LineRx.resumed (c : LineCfg) (l : LineRx) : LineRx := { silence := armedSilence c, counts := l.counts }

/-- Fault code of a line state (R43). -/
def lineCode (l : Fin 3) : LineState → Option FaultCode
  | .silent => some { kind := .lineSilent, subject := BitVec.ofNat 8 l.val }
  | .broken => some { kind := .lineBreak, subject := BitVec.ofNat 8 l.val }
  | .never => none
  | .active => none

/-- Offsets of a line cell (R44). -/
def lineOffsets (l : Fin 3) : List Nat := (List.range 8).map (offLine l)

/-- The lines at wake resume (R48), their changed words offered line by line: log entry 48. -/
def State.resumeLines (s : State) : State :=
  let lines : Table 3 LineRx := .ofFn (fun l => (s.rx.lines.get l).resumed (s.profile.lines.get l))
  let s1 := s.offerChanged (s.setRx
    { s.rx with
      lines := lines
      owner := .none
      collision := false
      firstChar := false }) ((List.finRange 3).flatMap lineOffsets)
  s1.forEach (List.finRange 3) (fun t l =>
    t.reportChange (lineCode l (s.rx.lines.get l).state) (lineCode l (lines.get l).state))

/-- A wake resume: a return to RUN out of PARKED (R185). Without a profile in force the signals, filters, receivers and doors stay as
they are (R20, R49, R69). The mode is RUN from the first of these on, so the warning unit acts on the changes that are handed to it
before its own resumption: log entry 12. -/
def State.wakeResume (s : State) : State :=
  let s1 := s.takeWakeCause
  let s2 :=
    if s1.inForce then
      let t := s1.resumeSignals
      let t1 := (t.setInp t.inp.resumed).resumeLines
      t1.resumeDoors
    else s1
  (s2.resumeSup.resumeWarnings.enterRunIndication.judgeLevel).judgeIgnitionAtRun

/-- One wake kind added to a set. -/
def WakeSet.union (a b : WakeSet) : WakeSet :=
  { ignition := a.ignition || b.ignition
    input := a.input || b.input
    service := a.service || b.service
    front := a.front || b.front }

/-- A wake event of Table 10-1: in PARKED the wake resume, elsewhere nothing (R184). -/
def State.wake (s : State) (k : WakeSet) : State :=
  if s.mode.mode = .parked then
    (s.setMode { s.mode with wakePending := s.mode.wakePending.union k }).wakeResume
  else s

/-- A wake edge of an input (R12): a wake event in PARKED, added to the wake-pending set in PARKING. -/
def State.wakeEdge (s : State) : State :=
  if s.mode.mode = .parking then s.setMode { s.mode with wakePending := s.mode.wakePending.union { input := true } }
  else s.wake { input := true }

/-! ## PARKED and the park flush (R183, R184) -/

/-- A receiver at entry into PARKED: IDLE with the hunting flag kept, its timers stopped (R46). -/
def LineRx.park (l : LineRx) : LineRx :=
  { l with
    receive := .idle
    gap := none
    inChar := false
    silence := none }

/-- The service unit at entry into PARKED (R178). -/
def ServiceUnit.park (u : ServiceUnit) : ServiceUnit :=
  { u with
    line := .idle
    received := []
    gap := none
    response := []
    sent := 0
    transmitting := false
    wakeChar := false
    turnaround := none
    testerActive := false
    testerTimer := none
    testTimer := none }

/-- The entry into PARKED (R184): each block freezes or stops as its chapter gives. -/
def State.enterParked (s : State) : State :=
  let s1 := s.setMode { s.mode with mode := .parked, offTimer := none }
  let s2 := s1.setSig { s1.sig with hold := none }
  let s3 := s2.setInp { s2.inp with running := false }
  let s4 := s3.setRx
    { s3.rx with
      lines := s3.rx.lines.map LineRx.park
      owner := .none
      collision := false
      firstChar := false }
  let s5 := s4.setDoor s4.door.freeze
  let s6 := s5.setSup { s5.sup with timer := none }
  let s7 := s.offerStatus (s6.setSvc s6.svc.park)
  if s.svc.testerActive then s7.setCause .tester else s7

/-- Command codes of the profile store and of RESTART (Table 12-2). -/
def flushBlocking (c : Option Byte) : Bool := c = some 2 || c = some 3

/-- The park flush is complete (R183). -/
def State.flushDone (s : State) : Bool :=
  s.mode.mode = .parking && s.fm.writeQueue = [] && !s.ctrl.countersPending && !flushBlocking s.path.command &&
    s.ctrl.operation = .none

/-- The flush completion: PARKED, or back to RUN on pending wake kinds (R183). -/
def State.checkFlush (s : State) : State :=
  if s.flushDone then
    let w := if s.ignitionNow = .on then s.mode.wakePending.union { ignition := true } else s.mode.wakePending
    if w = {} then s.enterParked else (s.setMode { s.mode with wakePending := w }).returnToRun
  else s

end Sys2Proof.Machine
end

