-- ==== Sys2Proof/Machine/Signals.lean ====
section
/-! DEFINITION. The signal unit's and the input unit's operations (01): updates, expiries and the hand-over of a change to its
readers; filters and the speed timer. -/

namespace Sys2Proof.Machine

/-! ## Updates (R2, R4, R6 to R8) -/

/-- A change of an entry's value or quality handed to each block that reads it (R7). -/
def State.handOn (s : State) (n : Fin 256) : State :=
  let s1 := if s.profile.reference = some n then s.deriveMotion else s
  let s2 := ((s1.doorsHanded n).evalWarnings (namesSignal n)).ackInput n
  let s3 := s2.evalLampsNaming (fun q => q = .signal n)
  let s4 := s3.forEach (List.finRange 12) (fun t g => t.boundGauge n g)
  let s5 := if s4.profile.serviceSwitch = some n ∨ s4.profile.parkingBrake = some n then s4.judgeLevel else s4
  if s5.profile.ignition = some n then s5.judgeIgnition else s5

/-- An entry after an update (R2). -/
def Signal.update (c : SignalCfg) (v : BitVec 16) (e : Signal) : Signal :=
  if inRange c v then { e with value := v, quality := .good, age := 0, due := false }
  else { e with value := v, quality := .invalid }

/-- An entry after its staleness expiry (R4); its age goes on. -/
def Signal.expire (c : SignalCfg) (e : Signal) : Signal :=
  { e with
    value := if c.substitutes then c.substitute else e.value
    quality := expiryQuality c
    due := false }

/-- Value or quality differ (R7). -/
def Signal.differs (a b : Signal) : Bool := a.value ≠ b.value || a.quality ≠ b.quality

/-- An entry taken: its image given to `emit` with the sequence advanced when one is due (R6), the presence reports (R8), and a
change handed on (R7). That the image is offered first is the model's choice: log entry 48; that the reports of an update come before its
change is handed on: log entry 12. -/
def State.commitSignal (s : State) (n : Fin 256) (e : Signal) (always : Bool) (emit : State → State) : State :=
  let o := s.sig.entries.get n
  let image := always || o.differs e
  let e1 := if image then { e with sequence := o.sequence + 1 } else e
  let s1 := s.setSig { s.sig with entries := s.sig.entries.set n e1 }
  let s2 := if image then emit s1 else s1
  let c := s.profile.signals.get n
  let s3 := s2.reportChange (signalCode c n o.quality) (signalCode c n e.quality)
  if o.differs e then s3.handOn n else s3

/-- The image of a signal cell offered to the update queue. -/
def State.emitSignal (n : Fin 256) (s : State) : State := s.offer (offSignal n)

/-- The signal unit takes updates while a profile is in force and the mode is not PARKED (R20, R22). -/
def State.takesUpdates (s : State) : Bool := s.inForce && s.mode.mode ≠ .parked

/-- A LINE entry always gives an image, a DISCRETE or SPEED one at a change (Table 1-4). -/
def imageAlways : Source → Bool
  | .line _ _ _ _ => true
  | .host => true
  | .none => false
  | .discrete _ => false
  | .speed => false

/-- An update delivered to an entry (R2). -/
def State.deliver (s : State) (n : Fin 256) (v : BitVec 16) : State :=
  let c := s.profile.signals.get n
  if s.takesUpdates then
    s.commitSignal n ((s.sig.entries.get n).update c v) (imageAlways c.source) (State.emitSignal n)
  else s

/-- Whether the staleness expiry of an entry is to be taken: its age has passed the limit and no in-range update has come since (R4). -/
def State.expiryTaken (s : State) (n : Fin 256) : Bool :=
  let c := s.profile.signals.get n
  let e := s.sig.entries.get n
  s.takesUpdates && sourceAges c.source && c.freshness ≠ 0 && (e.quality = .good || e.quality = .invalid) && e.due

/-- The staleness expiry (R4, R5). -/
def State.takeExpiry (s : State) (n : Fin 256) : State :=
  s.commitSignal n ((s.sig.entries.get n).expire (s.profile.signals.get n)) true (State.emitSignal n)

/-! ## Discrete inputs (R10 to R12, R23) -/

/-- The entries bound to an input, in ascending order. -/
def State.discreteEntries (s : State) (i : Fin 24) : List (Fin 256) :=
  s.profile.signals.indices (fun c => c.source = .discrete i)

/-- The value of a filtered state (R11). -/
def filteredValue (f : Filtered) : BitVec 16 := if f = .active then 1 else 0

/-- One update to every DISCRETE entry bound to an input (R11). -/
def State.deliverInput (s : State) (i : Fin 24) (f : Filtered) : State :=
  s.forEach (s.discreteEntries i) (fun t n => t.deliver n (filteredValue f))

/-- A filtered change in the selected direction; settling out of UNSETTLED is none (R12). -/
def isWakeEdge (c : InputCfg) (was now : Filtered) : Bool :=
  match was, now with
  | .inactive, .active => c.edge = .rising || c.edge = .either
  | .active, .inactive => c.edge = .falling || c.edge = .either
  | .unsettled, _ => false
  | .inactive, .inactive => false
  | .inactive, .unsettled => false
  | .active, .active => false
  | .active, .unsettled => false

/-- Whether an input is the one bound as ignition (R184). -/
def State.ignitionInput (s : State) (i : Fin 24) : Bool :=
  match s.profile.ignition with
  | none => false
  | some n => (s.profile.signals.get n).source = .discrete i

/-- A filter settles on the level present: delivery first, then wake events (R10 to R12, R23, R184); that order is log entry 43. Of an
ignition wake and a wake edge of one settling the ignition wake comes first, and with an ignition-off delay of 0 the wake edge then
finds PARKING and adds INPUT there: log entry 27. -/
def State.settle (s : State) (i : Fin 24) : State :=
  let c := s.profile.inputs.get i
  let x := s.inp.inputs.get i
  let now : Filtered := if logicalActive c x then .active else .inactive
  let changed := decide (x.filtered ≠ now)
  let y := { x with filtered := now, stable := none, resettle := false }
  let s1 := s.setInp { s.inp with inputs := s.inp.inputs.set i y }
  let delivers :=
    if x.resettle then (s.discreteEntries i).any (fun n => s.value n ≠ filteredValue now) else changed
  let s2 := if delivers then s1.deliverInput i now else s1
  let s3 := if changed && now = .active && s2.ignitionInput i then s2.wake { ignition := true } else s2
  if changed && c.wake && isWakeEdge c x.filtered now then s3.wakeEdge else s3

/-- The filters and the speed timer started when a profile comes into force (R10, R13). -/
def InputUnit.started (u : InputUnit) : InputUnit :=
  { inputs := u.inputs.map (fun x => { high := x.high, stable := some 0 })
    timing := false
    running := true
    count := 0
    edgeAt := u.edgeAt }

/-- A pin changed its level; a running filter's stability timer restarts, and with a debounce time of 0 it settles at once (R10). -/
def State.changeLevel (s : State) (i : Fin 24) : State :=
  let x := s.inp.inputs.get i
  if s.inForce && !s.mode.inReset then
    let s1 := s.setInp { s.inp with inputs := s.inp.inputs.set i { x with high := !x.high, stable := some 0 } }
    if (s.profile.inputs.get i).debounce = 0 then s1.settle i else s1
  else s.setInp { s.inp with inputs := s.inp.inputs.set i { x with high := !x.high } }

/-! ## Speed input (R13 to R15) -/

/-- One update to every SPEED entry (R15). -/
def State.deliverSpeed (s : State) (v : BitVec 16) : State :=
  s.forEach (s.profile.signals.indices (fun c => c.source = .speed)) (fun t n => t.deliver n v)

/-- The period that an edge ends (R13). -/
def periodOf (count units : Nat) : Nat := max 1 (count + units)

/-- Units of a millisecond that have passed at an edge `units` after the last one taken in it (log entry 33). -/
def edgeAfter (last units : Nat) : Nat := min Config.speedUnitsPerMs (last + units)

/-- The overflow of the speed timer (R14). -/
def State.speedOverflow (s : State) : State :=
  (s.setInp { s.inp with timing := false, running := false, count := 0 }).deliverSpeed 0

/-- The running count reaches 65 535 before an edge that comes `units` later; at 65 535 the edge falls together with the overflow and,
taken here, comes first (R14). -/
def InputUnit.overflowsBefore (u : InputUnit) (units : Nat) : Bool := u.running && Config.speedOverflowAt < u.count + units

/-- A rising edge with the count that it finds: it starts a count, and ends a period in TIMING (R13). -/
def State.takeEdge (s : State) (units : Nat) : State :=
  let s1 := s.setInp { s.inp with timing := true, running := true, count := 0, edgeAt := edgeAfter s.inp.edgeAt units }
  if s.inp.timing then s1.deliverSpeed (speedValue s.profile.k (periodOf s.inp.count units)) else s1

/-- A rising edge on the speed input (R13), after the overflow that the count reached on the way to it (R14). -/
def State.speedEdge (s : State) (units : Nat) : State :=
  (if s.inp.overflowsBefore units then s.speedOverflow else s).takeEdge units

end Sys2Proof.Machine
end

