-- ==== Sys2Proof/Machine/Lines.lean ====
section
/-! DEFINITION. The receivers', line monitors' and acceptance unit's operations (02). -/

namespace Sys2Proof.Machine

/-- The monitors and receivers work while a profile is in force and the mode is not PARKED (R46, R49). -/
def State.linesRun (s : State) : Bool := s.inForce && s.mode.mode ≠ .parked

/-- A line that takes edges, characters and breaks: its blocks work, and it is not BROKEN, since a BROKEN line is low and its low
period has given its break (R26, R42). -/
def State.lineTakes (s : State) (l : Line) : Bool := s.linesRun && !(s.rx.lines.get l.toFin).broken

/-- The line as an owner of the shared receiver. -/
def lineOwner : Line → Owner
  | .front => .front
  | .rear => .rear
  | .drive => .none

/-- DRIVE is always being received, FRONT and REAR while they hold the shared receiver (02 section 2.3). -/
def LineUnit.received (u : LineUnit) (l : Line) : Bool :=
  match l with
  | .drive => true
  | .front => u.owner = .front
  | .rear => u.owner = .rear

/-- The shared receiver released by its owner; nothing for another line (R34). -/
def LineUnit.release (u : LineUnit) (l : Line) : LineUnit :=
  if l ≠ .drive ∧ u.owner = lineOwner l then { u with owner := .none, collision := false, firstChar := false } else u

/-- One line replaced. -/
def LineUnit.put (u : LineUnit) (l : Line) (x : LineRx) : LineUnit := { u with lines := u.lines.set l.toFin x }

/-- A receive state entered, the hunting flag with it. -/
def LineRx.enter (r : Receive) (x : LineRx) : LineRx := { x with receive := r, hunting := r = .hunt }

/-- One discard counted (Table 2-2). -/
def LineCounts.discard (r : Discard) (c : LineCounts) : LineCounts :=
  match r with
  | .noise => { c with noise := satInc c.noise }
  | .framing => { c with framing := satInc c.framing }
  | .truncated => { c with truncated := satInc c.truncated }
  | .long => { c with long := satInc c.long }
  | .check => { c with check := satInc c.check }
  | .length => { c with length := satInc c.length }
  | .brk => { c with brk := satInc c.brk }

/-- A discard: counted, the gap timer stopped, the line in HUNT (R29). -/
def LineRx.discard (r : Discard) (x : LineRx) : LineRx :=
  ({ x with gap := none, counts := x.counts.discard r } : LineRx).enter .hunt

/-- A clean mark character starts a frame (R27). -/
def LineRx.header (b : Byte) (x : LineRx) : LineRx :=
  ({ x with
      node := b.setWidth 5
      kind := (b >>> 5).setWidth 3
      length := 0
      xor := b
      taken := []
      gap := some 0 } : LineRx).enter .headerSeen

/-- A new body-line table taken: images of some slot words and of the cell of the line, in this order (log entry 48), then the presence
reports of a changed line state (R43, R44). -/
def State.commitLine (s : State) (u : LineUnit) (l : Line) (slotWords : List Nat) : State :=
  let s1 := s.offerChanged (s.setRx u) (slotWords ++ lineOffsets l.toFin)
  s1.reportChange (lineCode l.toFin (s.rx.lines.get l.toFin).state) (lineCode l.toFin (u.lines.get l.toFin).state)

/-! ## Acceptance (R37 to R39, R41) -/

/-- The used slot whose key is a line, a node and a kind (R37). -/
def State.slotFor (s : State) (l : Line) (node : BitVec 5) (kind : BitVec 3) : Option (Fin 64) :=
  (List.finRange 64).find? (fun i =>
    match s.profile.slots.get i with
    | none => false
    | some k => k.line = l && k.node = node && k.kind = kind)

/-- A slot after an accepted frame (R37). -/
def Slot.accept (bytes : List Byte) (x : Slot) : Slot :=
  { data := packData bytes, arrivals := satInc x.arrivals, ever := true }

/-- A line after an accepted frame (R37, R41). -/
def LineRx.accept (c : LineCfg) (x : LineRx) : LineRx :=
  ({ x with
      gap := none
      everAccepted := true
      silentMark := false
      silence := armedSilence c
      counts := { x.counts with accepted := satInc x.counts.accepted } } : LineRx).enter .idle

/-- The LINE signals of a slot delivered in ascending index order, each with its own field (R39). -/
def State.deliverSlot (s : State) (i : Fin 64) : State :=
  s.forEach (List.finRange 256) (fun t n =>
    match (s.profile.signals.get n).source with
    | .line slot start length signed =>
      if slot = i then t.deliver n (lineField (s.rx.slots.get i).data start length signed) else t
    | .none => t
    | .discrete _ => t
    | .speed => t
    | .host => t)

/-- A checked frame on a line: IGNORED, a LENGTH discard, or accepted (R37). -/
def State.acceptFrame (s : State) (l : Line) (x : LineRx) : State :=
  match s.slotFor l x.node x.kind with
  | none =>
    let y := ({ x with gap := none, counts := { x.counts with ignored := satInc x.counts.ignored } } : LineRx).enter .idle
    s.commitLine ((s.rx.put l y).release l) l []
  | some i =>
    if (s.profile.slots.get i).any (fun k => k.length = x.length) then
      let u := (s.rx.put l (x.accept (s.profile.lines.get l.toFin))).release l
      (s.commitLine { u with slots := u.slots.modify i (Slot.accept x.taken) } l [offArrival i, offEver i]).deliverSlot i
    else s.commitLine ((s.rx.put l (x.discard .length)).release l) l []

/-! ## Characters (R24 to R35) -/

/-- A clean character with mark bit 0 taken in a frame state (R28). -/
def State.takeCharacter (s : State) (l : Line) (x : LineRx) (b : Byte) : State :=
  let y := { x with xor := x.xor ^^^ b, gap := some 0 }
  match x.receive with
  | .headerSeen =>
    if 12 < b.toNat then s.commitLine ((s.rx.put l (y.discard .long)).release l) l []
    else
      let z := { y with length := b.toNat }
      s.commitLine (s.rx.put l (z.enter (if b.toNat = 0 then .check else .data))) l []
  | .data =>
    let z := { y with taken := y.taken ++ [b] }
    s.commitLine (s.rx.put l (if z.taken.length = z.length then z.enter .check else z)) l []
  | .check =>
    if y.xor = 0 then s.acceptFrame l y else s.commitLine ((s.rx.put l (y.discard .check)).release l) l []
  | .idle => s
  | .hunt => s

/-- A character of a received line (R27 to R29, R34). -/
def State.character (s : State) (l : Line) (c : CharSamples) : State :=
  let x := { s.rx.lines.get l.toFin with inChar := false }
  if c.clean && c.mark.majority then
    let y := if x.receive.inFrame then x.discard .truncated else x
    let u := s.rx.put l (y.header c.byte)
    s.commitLine (if l = .drive then u else { u with firstChar := false }) l []
  else if !x.receive.inFrame then s.commitLine ((s.rx.put l (x.enter .hunt)).release l) l []
  else if c.framing then s.commitLine ((s.rx.put l (x.discard .framing)).release l) l []
  else if c.noisy then s.commitLine ((s.rx.put l (x.discard .noise)).release l) l []
  else s.takeCharacter l x c.byte

/-- A false start: no character, the gap timer of a frame restarts, a first-edge hold is released (R24, R31, R34). -/
def State.falseStart (s : State) (l : Line) : State :=
  let x := s.rx.lines.get l.toFin
  let u := s.rx.put l { x with inChar := false, gap := if x.receive.inFrame then some 0 else x.gap }
  s.setRx (if u.firstChar then u.release l else u)

/-- A start edge seen by the line monitor (R24, R31, R33, R35). -/
def State.startEdge (s : State) (l : Line) : State :=
  let x := s.rx.lines.get l.toFin
  let begun := { x with inChar := true, gap := none }
  if s.rx.received l then
    if x.inChar then s else s.setRx (s.rx.put l begun)
  else if s.rx.owner = .none then
    s.setRx { s.rx.put l begun with owner := lineOwner l, collision := false, firstChar := true }
  else if s.rx.collision then s
  else
    let y := ({ x with counts := { x.counts with collisions := satInc x.counts.collisions } } : LineRx).enter .hunt
    s.commitLine { s.rx.put l y with collision := true } l []

/-- A break event (R26, R27, R32, R34). -/
def State.takeBreak (s : State) (l : Line) : State :=
  let x := s.rx.lines.get l.toFin
  let y := { x with inChar := false, counts := { x.counts with breaks := satInc x.counts.breaks } }
  let z := if x.receive.inFrame then y.discard .brk else y.enter .hunt
  s.commitLine ((s.rx.put l z).release l) l []

/-- The broken condition set or cleared (R42). -/
def State.setBroken (s : State) (l : Line) (b : Bool) : State :=
  s.commitLine (s.rx.put l { s.rx.lines.get l.toFin with broken := b }) l []

/-- The gap expiry (R31). -/
def State.takeGap (s : State) (l : Line) : State :=
  s.commitLine ((s.rx.put l ((s.rx.lines.get l.toFin).discard .truncated)).release l) l []

/-- The silence expiry (R40). -/
def State.takeSilence (s : State) (l : Line) : State :=
  s.commitLine (s.rx.put l { s.rx.lines.get l.toFin with silentMark := true, silence := none }) l []

/-- Every count of Table 2-6 and every arrival count set to 0 (R45). The changed words are offered in ascending order of their offsets,
the line cells before the slot words, which decides their places in the queue and, where it fills, which of them are marked (R125):
log entry 48. -/
def State.clearStats (s : State) : State :=
  s.offerChanged (s.setRx
    { s.rx with
      lines := s.rx.lines.map (fun l => { l with counts := {} })
      slots := s.rx.slots.map (fun x => { x with arrivals := 0 }) })
    ((List.range 64).map (fun k => 0x0700 + 4 * k))

/-- The body-line blocks when a profile comes into force (R49, R50). -/
def startedLines (p : Profile) : LineUnit :=
  { lines := .ofFn (fun l => { silence := armedSilence (p.lines.get l) }) }

end Sys2Proof.Machine
end

