-- ==== Sys2Proof/Machine/Memory.lean ====
section
/-! DEFINITION. The configuration memory controller's operations (11): ranks, snapshots, page writes and their verification, and the
end of a host command (06, R130). -/

namespace Sys2Proof.Machine

/-! ## The end of a command (R130) -/

/-- A command ends: result with a new image, command state idle, cause COMMAND (R130). -/
def State.finishCommand (s : State) (v : ResultValue) (r : Reason) : State :=
  let s1 := s.setPath
    { s.path with
      command := none
      result := { value := v, code := s.path.command.getD 0, reason := r } }
  (s1.offer offResult).setCause .command

/-- A command refused with its reason. -/
def State.refuse (s : State) (r : Reason) : State := s.finishCommand .refused r

/-- A command completed. -/
def State.complete (s : State) : State := s.finishCommand .done .none

/-- A command goes on: result IN_PROGRESS with a new image (R130). -/
def State.inProgress (s : State) : State :=
  (s.setPath { s.path with result := { value := .inProgress, code := s.path.command.getD 0 } }).offer offResult

/-! ## Snapshots and pages -/

/-- Page `k` of the staging image as a store writes it (R192, R195). -/
def State.profilePage (s : State) (k : Nat) : List Byte := (List.range 64).map (fun j => storedByte s.stagingByte (64 * k + j))

/-- Page 0 with its length field replaced by 0xFFFF, which marks the stored profile invalid (R192). -/
def markedPage (page : List Byte) : List Byte := (page.set 6 0xFF).set 7 0xFF

/-- The contents of write number k of a store of n pages: the marked page 0, the pages 1 to n - 1, the true page 0 (R192), with
unassigned bits and the bytes beyond the image's length 0 (R195, log entry 41). -/
def State.storePage (s : State) (n k : Nat) : List Byte :=
  if k = 0 then markedPage (s.profilePage 0)
  else if k = n then s.profilePage 0
  else s.profilePage k

/-- The page number of write number k of a store of n pages (R192). -/
def storePageNo (n k : Nat) : Nat := if k = n then 0 else k

/-- The page that an operation is writing. -/
def Operation.page : Operation → Option Nat
  | .slotWrite i _ _ _ => some (slotPageNo i)
  | .countersWrite _ _ => some countersPageNo
  | .storeWrite _ n k _ _ => some (storePageNo n k)
  | .storeAbort _ => some 0
  | .none => Option.none
  | .startProfileRead => Option.none
  | .startCountersRead => Option.none
  | .startSlotsRead => Option.none
  | .restartRead => Option.none
  | .storeRead _ _ _ => Option.none

/-- What a page holds after its write. -/
def writtenBytes (snapshot : List Byte) : PageOutcome → List Byte
  | .stored => snapshot
  | .differs bytes => bytes.take 64

/-- A page write completed: the memory holds what the outcome says. -/
def State.writePage (s : State) (page : Nat) (bytes : List Byte) : State :=
  (s.setCfg (writeBytes Config.cfgErased s.cfg (64 * page) bytes)).setCtrl
    { s.ctrl with torn := s.ctrl.torn.filter (fun p => p ≠ page) }

/-- The controller's operation replaced. -/
def State.setOperation (s : State) (o : Operation) : State := s.setCtrl { s.ctrl with operation := o }

/-! ## The ranks (R187) -/

/-- The head of the write queue taken and snapshotted (R159). -/
def State.takeSlot (s : State) : State :=
  match s.fm.writeQueue with
  | [] => s
  | i :: rest =>
    (s.setFm { s.fm with writeQueue := rest }).setOperation (.slotWrite i (slotPage i (s.fm.records.get i)) false true)

/-- The free controller takes the first waiting work (R187), not before the fault slots are loaded. A store begins with the read of its
page 0 (R192). -/
def State.nextWork (s : State) : State :=
  if s.ctrl.operation = .none ∧ s.fm.loaded then
    match s.ctrl.store with
    | .waiting p n => s.setCtrl { s.ctrl with operation := .storeRead p n 0, store := .writing }
    | .none | .validating | .writing =>
      if s.ctrl.restartWaiting then s.setCtrl { s.ctrl with operation := .restartRead, restartWaiting := false }
      else if s.ctrl.countersPending then
        s.setCtrl { s.ctrl with operation := .countersWrite (countersPage s) false, countersPending := false }
      else s.takeSlot
  else s

/-- The M-port is free for the profile-store reader: no access in progress, and neither host forwarding nor the image writer requests
it (R129). -/
def State.readerGranted (s : State) : Bool := s.path.inFlight.isNone && s.path.queue.isEmpty && s.path.held.isNone

/-- The profile-store reader, served when neither of the others requests the M-port: the page that a store waits for is read whole and
its write begins (R129, R192 stage 3, log entry 11). -/
def State.serveReader (s : State) : State :=
  match s.ctrl.operation with
  | .storeRead p n k => if s.readerGranted then s.setOperation (.storeWrite p n k (s.storePage n k) false) else s
  | .none | .startProfileRead | .startCountersRead | .startSlotsRead | .restartRead | .countersWrite _ _
  | .slotWrite _ _ _ _ | .storeWrite _ _ _ _ _ | .storeAbort _ => s

/-- The controller takes waiting work (R187), and the profile-store reader is served (R129). -/
def State.takeWork (s : State) : State := s.nextWork.serveReader

/-- Work taken at the end of a command, then a park flush that is complete, then the work that a return to RUN queued. -/
def State.workAndFlush (s : State) : State := s.takeWork.checkFlush.takeWork

/-! ## Fault slots, the clear, and the counters block -/

/-- The clear complete when no slot is outstanding: flag, status image, completion handed to the requester (R161). -/
def State.endClear (s : State) : State :=
  if s.fm.clearing ∧ s.fm.outstanding = [] then
    let s1 := s.offerStatus (s.setFm { s.fm with clearing := false, requester := none })
    if s.fm.requester = some .command then s1.complete else s1
  else s

/-- The write of a slot done with, completed or dropped (R161). -/
def State.slotWritten (s : State) (i : Fin 32) (counts : Bool) : State :=
  let s1 := s.setOperation .none
  (if counts then s1.setFm { s1.fm with outstanding := s1.fm.outstanding.filter (fun j => j ≠ i) } else s1).endClear

/-- A fault slot's page write completes: verified, written once more, or dropped with CONFIG_MEMORY (R159). A clear that the dropped write
ends (R161) is complete before CONFIG_MEMORY is reported: log entry 51. -/
def State.slotWriteDone (s : State) (i : Fin 32) (snapshot : List Byte) (retried counts : Bool) (o : PageOutcome) : State :=
  let bytes := writtenBytes snapshot o
  let s1 := s.writePage (slotPageNo i) bytes
  if bytes = snapshot then s1.slotWritten i counts
  else if retried then (s1.slotWritten i counts).momentary .configMemory
  else s1.setOperation (.slotWrite i snapshot true counts)

/-- The counters block's page write completes (R188). -/
def State.countersWriteDone (s : State) (snapshot : List Byte) (retried : Bool) (o : PageOutcome) : State :=
  let bytes := writtenBytes snapshot o
  let s1 := s.writePage countersPageNo bytes
  if bytes = snapshot then s1.setOperation .none
  else if retried then (s1.setOperation .none).momentary .configMemory
  else s1.setOperation (.countersWrite snapshot true)

/-! ## Validation of a store (R192) -/

/-- The staging image validated: the store waits for the controller, or is refused (R192). -/
def State.validateStore (s : State) : State :=
  if validProfile s.stagingByte then
    s.setCtrl
      { s.ctrl with store := .waiting (readProfile s.stagingByte) (pagesOf (imageLength s.stagingByte)) }
  else (s.setCtrl { s.ctrl with store := .none }).refuse .profileInvalid

end Sys2Proof.Machine
end

