-- ==== Sys2Proof/Machine/Restart.lean ====
section
/-! DEFINITION. Full resets and the START sequence, a profile coming into force, image initialisation, and the profile restart
(11; 06 R128). -/

namespace Sys2Proof.Machine

/-! ## Image initialisation (R128) -/

/-- The entry in flight as image initialisation keeps it, its word composed from live state. -/
def State.keptEntry (s : State) : List (Nat × Word) :=
  match s.path.inFlight with
  | none => []
  | some e => [(e.1, s.imageWord e.1)]

/-- Image initialisation begins: every image word but the one in flight is marked, and marked words are re-queued. The urgent flag
is kept (R138). -/
def State.startImages (s : State) : State :=
  let kept := s.keptEntry
  let offs := kept.map Prod.fst
  let s1 := s.setPath
    { s.path with
      queue := kept
      resync := imageOffsets.filter (fun o => !offs.contains o)
      awaited := some offs }
  let s2 := s1.requeue
  s2.setPath { s2.path with urgent := s.path.urgent }

/-! ## A profile, or the no-profile state, in force at START (R191) -/

/-- The blocks set for a profile that comes into force in START: filters, speed timer, lines, doors. -/
def State.comeIntoForce (s : State) (p : Profile) : State :=
  let s1 := (s.setProfile p).setProfStatus .inForce
  let s2 := (s1.setInp s1.inp.started).setRx (startedLines p)
  s2.setDoor (startedDoors p.doors s2.door.doors)

/-- The no-profile state: cause PROFILE, the instrument-fault lamp, no door present (R69, R117, R191). -/
def State.enterNoProfile (s : State) : State :=
  let s1 := (s.setProfile Config.emptyProfile).setProfStatus .noProfile
  let s2 := s1.setDoor (startedDoors Config.emptyProfile.doors s1.door.doors)
  (s2.setCause .profile).evalAllLamps

/-- The cause DOOR when the summary or the state or source of a present door changed (R66, log entry 26). -/
def State.doorCauseSince (old s : State) : State :=
  let changed := (List.finRange 6).any (fun d =>
    (s.profile.doors.get d).present &&
      (decide ((old.door.doors.get d).state ≠ (s.door.doors.get d).state) ||
        decide ((old.door.doors.get d).source ≠ (s.door.doors.get d).source)))
  if changed ∨ old.door.openCount ≠ s.door.openCount ∨ old.door.allLocked ≠ s.door.allLocked then s.setCause .door else s

/-- Step 4 of the START sequence (R191). -/
def State.takeForce (s : State) : State :=
  let s1 :=
    match s.loadBuffer with
    | some p => s.comeIntoForce p
    | none => s.enterNoProfile
  (State.doorCauseSince s s1).startImages

/-! ## Full resets (R190) -/

/-- The pages whose write a reset cuts off. -/
def Controller.cutOff (c : Controller) : List Nat := c.torn ++ c.operation.page.toList

/-- A full reset: every block as its chapter gives it; pins and senses keep their levels, the configuration memory its contents, SRAM
its contents as `sram` says. Reports that an unfinished START sequence still held are dropped: log entry 5. -/
def State.fullReset (s : State) (straps : BitVec 2) (causes : ResetCauses) (held : List FaultCode) (sram : List Host.Cell) :
    State :=
  { pending := s.pending
    inp := { inputs := s.inp.inputs.map (fun x => { high := x.high }) }
    ind := { lamps := s.ind.lamps.map (fun l => { senseOpen := l.senseOpen }) }
    path := { straps := straps }
    fm := { heldReports := held }
    svc := { freeUses := s.svc.freeUses }
    mode := { causes := causes }
    ctrl := { torn := s.ctrl.cutOff }
    sram := sram
    cfg := s.cfg }

/-! ## The START sequence (R191) -/

/-- The reset cause ends: the read of the profile begins. -/
def State.endReset (s : State) : State :=
  if s.mode.inReset then (s.setMode { s.mode with inReset := false }).setOperation .startProfileRead else s

/-- Step 1: the read profile validated; a failure hands PROFILE_BAD (R191). -/
def State.profileRead (s : State) (answered : Bool) : State :=
  let p := if answered then s.storedProfile else none
  let s1 := (s.setLoadBuffer p).setOperation .startCountersRead
  if p.isSome then s1 else s1.momentary .profileBad

/-- The door counters of a counters block's page (R196). -/
def loadedDoor (page : List Byte) (d : Fin 6) (x : Door) : Door :=
  { x with openCycles := pageWord page (1 + d.val), obstructions := pageWord page (7 + d.val) }

/-- Whether the counters block can be loaded. -/
def State.countersReadable (s : State) (answered : Bool) : Bool :=
  answered && !s.ctrl.torn.contains countersPageNo && pageOk (s.cfgPage countersPageNo) 0

/-- Step 2: the counters loaded, or all thirteen 0 with CONFIG_MEMORY (R62, R191). -/
def State.countersRead (s : State) (answered : Bool) : State :=
  let page := s.cfgPage countersPageNo
  let s1 := s.setOperation .startSlotsRead
  if s.countersReadable answered then
    let s2 := s1.setMode { s1.mode with cycle := (pageWord page 0).setWidth 24 }
    s2.setDoor { s2.door with doors := .ofFn (fun d => loadedDoor page d (s2.door.doors.get d)) }
  else
    let s2 := s1.setMode { s1.mode with cycle := 0 }
    (s2.setDoor { s2.door with doors := s2.door.doors.map (fun x => { x with openCycles := 0, obstructions := 0 }) }).momentary
      .configMemory

/-- One fault slot loaded; the second component counts the bad slots so far (R162). A record of CONFIG_MEMORY or PROFILE_BAD that is
stored ACTIVE is not queued: log entry 46. -/
def State.loadSlot (s : State) (answered : BitVec 32) (r : FaultMemory × Nat) (i : Fin 32) : FaultMemory × Nat :=
  if !answered.getLsbD i.val then r
  else if s.ctrl.torn.contains (slotPageNo i) then (r.1.queue i, r.2 + 1)
  else
    let page := s.cfgPage (slotPageNo i)
    match readSlotPage page i with
    | .empty => r
    | .bad => (r.1.queue i, r.2 + 1)
    | .record x =>
      if (r.1.slotOf x.code).isSome then (r.1.queue i, r.2 + 1)
      else
        let fm := r.1.put i x
        (if storedActive page then fm.queueFor i x.code.kind else fm, r.2)

/-- Momentary reports of one kind, one after another. -/
def State.momentaries (s : State) (k : FaultKind) : Nat → State
  | 0 => s
  | n + 1 => (s.takeMomentary k).momentaries k n

/-- Step 3: the records loaded, then the held reports, then the reports of the load itself (R162, R191). The slots that the load queues
are queued in ascending order: log entry 45. -/
def State.loadSlots (s : State) (answered : BitVec 32) : State :=
  let r := (List.finRange 32).foldl (s.loadSlot answered) (s.fm, 0)
  let held := s.fm.heldReports
  let s1 := (s.setFm { r.1 with loaded := true, heldReports := [] }).setOperation .none
  let s2 := s1.forEach held (fun t c => t.takeMomentary c.kind)
  let s3 := s2.momentaries .configMemory r.2
  if answered = BitVec.allOnes 32 then s3 else s3.takeMomentary .configMemory

/-! ## The profile restart (R194) -/

/-- The indication unit at a profile restart: request copies and sense levels kept (R118). -/
def IndicationUnit.restarted (u : IndicationUnit) : IndicationUnit :=
  { lamps := u.lamps.map (fun l => { senseOpen := l.senseOpen })
    requestLow := u.requestLow
    requestHigh := u.requestHigh }

/-- A motion state that the restart set to UNKNOWN handed on (R18, R21); the warning unit rests until the restart ends (log entry 28). -/
def State.handMotion (s : State) (was : Motion) : State :=
  if was = s.sig.motion then s else s.evalWarnings gatedByMotion

/-- The profile restart begins with a new profile: the window closes first, then a running test ends, then the blocks re-initialise
(R194). -/
def State.beginRestart (s : State) (p : Profile) : State :=
  let s0 := s.setPath { s.path with windowOpen := false }
  let s1 := s0.endTest .restart
  let s2 := (s1.setProfile p).setProfStatus .inForce
  let s3 := (s2.setSig {}).setInp s2.inp.started
  let s4 := (s3.setRx (startedLines p)).setDoor (startedDoors p.doors s3.door.doors)
  let s5 := s4.restartWarnings
  let s6 := s5.setInd s5.ind.restarted
  let s7 := s6.setSup { s6.sup with spent := s6.sup.spent && p.hrst }
  let s8 := s7.setMode { s7.mode with offTimer := none, ignition := .unknown }
  let s9 := ((State.doorCauseSince s s8).restartFaults.handMotion s.sig.motion).judgeLevel
  s9.startImages

/-- Supervision at the end of a restart: HOST_LOST reported again, a passed TIMEOUT taken, GRACE started (R145). -/
def State.endRestartSup (s : State) : State :=
  let s1 := if s.sup.state = .lost then s.appear { kind := .hostLost, subject := 0 } else s
  let s2 :=
    match s1.sup.timer with
    | some (.timeout, e) =>
      if s1.profile.supTimeout ≤ e then
        if s1.sup.state = .lost then s1.setSup { s1.sup with reference := none, run := 0, timer := none }
        else s1.commitSup (s1.sup.lose s1.profile.hrst)
      else s1
    | some (.grace, _) => s1
    | none => s1
  if s2.mode.mode = .run then s2.startGrace else s2

/-- The end of a profile restart (R194). The ack input's level, unknown since the restart's beginning (R95), stays as the updates taken
since then have set it: log entry 50. -/
def State.endRestart (s : State) : State :=
  let s1 := (s.setCause .profile).setSvc { s.svc with address := s.profile.address }
  let s2 := if s1.mode.mode = .run then s1.evalAllWarnings.enterRunIndication else s1
  s2.endRestartSup.complete

/-- Step 5 of the START sequence: the entry into RUN (R94, R117, R145, R180, R191). The ack input's level, unknown since the reset, stays
as the updates taken during image initialisation have set it: log entry 50. -/
def State.enterRunFromStart (s : State) : State :=
  let s1 := s.offerStatus (s.setMode { s.mode with mode := .run })
  let s2 := s1.setSvc { s1.svc with address := s1.profile.address }
  (s2.evalAllWarnings.enterRunIndication.startGrace).judgeIgnitionAtRun

/-- Image initialisation complete: the window opens (R128), then START enters RUN or the restart ends. -/
def State.endImages (s : State) : State :=
  let s1 := s.offerStatus (s.setPath { s.path with windowOpen := true, awaited := none })
  if s1.mode.mode = .start then s1.enterRunFromStart else s1.endRestart

/-! ## Profile-store pages and the RESTART read (R192, R193) -/

/-- A profile restart begun with a validated profile as the load buffer. -/
def State.restartWith (s : State) (p : Profile) : State := (s.setLoadBuffer (some p)).beginRestart p

/-- The store aborted after the marked page 0 was written once more (R192). The command is refused before CONFIG_MEMORY is reported: log
entry 51. -/
def State.abortStore (s : State) : State :=
  ((s.setCtrl { s.ctrl with operation := .none, store := .none }).refuse .memoryError).momentary .configMemory

/-- A page of a profile store completes (R192): the next page is to be read, or a page is written once more. A page written once more,
and the marked page 0 of an abort, are not read again: log entry 11. -/
def State.storeWriteDone (s : State) (p : Profile) (n k : Nat) (snapshot : List Byte) (retried : Bool) (o : PageOutcome) :
    State :=
  let bytes := writtenBytes snapshot o
  let s1 := s.writePage (storePageNo n k) bytes
  if bytes = snapshot then
    if n ≤ k then (s1.setCtrl { s1.ctrl with operation := .none, store := .none }).restartWith p
    else s1.setOperation (.storeRead p n (k + 1))
  else if retried then s1.setOperation (.storeAbort (markedPage (s1.profilePage 0)))
  else s1.setOperation (.storeWrite p n k snapshot true)

/-- The RESTART read completes (R193). A read that fails is refused before its report: log entry 51. -/
def State.restartReadDone (s : State) (answered : Bool) : State :=
  let s1 := s.setOperation .none
  if answered then
    match s.storedProfile with
    | some p => s1.restartWith p
    | none => ((s1.setLoadBuffer none).refuse .profileInvalid).momentary .profileBad
  else (s1.refuse .memoryError).momentary .configMemory

end Sys2Proof.Machine
end

