-- ==== Sys2Proof/Machine/Window.lean ====
section
/-! DEFINITION. The memory path's operations (06): host reads and writes by the word they reach, captured writes, the image writer,
commands and attention. -/

namespace Sys2Proof.Machine

/-! ## Cells of a window offset (Table 6-1) -/

/-- The command, attention enable and host alive cells, live while the window is closed (R128). -/
def isLiveCell (off : Nat) : Bool := off = offCommand || off = offEnable || off = offAlive

/-- The signal of an offset in the signal region. -/
def signalAt (off : Nat) : Option (Fin 256) := if h : off / 4 < 256 then some ⟨off / 4, h⟩ else none

/-- The warning of an offset in the warning region. -/
def warningAt (off : Nat) : Option (Fin 96) :=
  if h : 0x0480 ≤ off ∧ (off - 0x0480) / 4 < 96 then some ⟨(off - 0x0480) / 4, h.2⟩ else none

/-- The gauge whose target word stands at an offset. -/
def gaugeTargetAt (off : Nat) : Option (Fin 12) :=
  if h : 0x0620 ≤ off ∧ (off - 0x0620) / 8 < 12 then
    if (off - 0x0620) % 8 < 4 then some ⟨(off - 0x0620) / 8, h.2⟩ else none
  else none

/-- Part-owned words that no host write may reach (R124). -/
def isReadOnly (off : Nat) : Bool :=
  (0x0400 ≤ off && off < 0x0460) || (0x0600 ≤ off && off < 0x0620) || off = offResult || off = offSummary ||
    (0x06A4 ≤ off && off < 0x06B0) || (0x0700 ≤ off && off < 0x1000)

/-! ## Host reads (R119, R120, R128, R133) -/

/-- The word of an image word as a host read finds it (R120). -/
def State.latestWord (s : State) (off : Nat) : Word :=
  match s.path.queue.find? (fun e => e.1 = off) with
  | some e => e.2
  | none => if s.path.resync.contains off then s.imageWord off else s.sramWord (s.windowAddr off)

/-- The word returned to the host. -/
def State.answer (s : State) (w : Word) : State := s.setPath { s.path with readData := w }

/-- A read of a warning cell arms a warning in ACTIVE_UNACK (R83). -/
def State.arm (s : State) (w : Fin 96) : State :=
  if (s.warn.rows.get w).state = .activeUnack then
    s.setWarn { s.warn with rows := s.warn.rows.modify w (fun x => { x with armed := true }) }
  else s

/-! ## Host forwarding (R129) -/

/-- The M-port is free for host forwarding: no image write in flight, and the image writer does not go first (R129). -/
def State.hostGranted (s : State) : Bool :=
  s.path.inFlight.isNone && (!s.path.urgent || s.path.queue.isEmpty)

/-- A forwarded access carried out, whole, at its grant (log entry 11). -/
def State.runForwarded (s : State) : Forwarded → State
  | .read w => s.answer w
  | .write a w lanes => s.writeSram a w lanes

/-- A host access requests the M-port: granted at once where it is free for host forwarding, otherwise held at the P-port until it is
(R129). Its address was judged when it was taken: log entry 44. -/
def State.forward (s : State) (a : Forwarded) : State :=
  if s.hostGranted then s.runForwarded a else s.setPath { s.path with held := some (.forwarded a) }

/-- A full write of a word of the window that goes to SRAM unchanged (R121, R130). -/
def State.forwardWord (s : State) (off : Nat) (word : Word) : State := s.forward (.write (s.windowAddr off) word 0xF)

/-- A forwarded access that the P-port holds is granted once the M-port is free for it (R129, log entry 44); a captured write has a row of
its own. -/
def State.grantForwarded (s : State) : State :=
  match s.path.held with
  | some (.forwarded a) => if s.hostGranted then (s.setPath { s.path with held := none }).runForwarded a else s
  | some (.signal _ _) => s
  | some (.gauge _ _) => s
  | none => s

/-! ## Reads by the word that they reach -/

/-- A summary read: the pending set returned, and the returned causes removed (R133). -/
def State.readSummary (s : State) : State :=
  s.setPath { s.path with readData := s.path.attnPending.setWidth 32, attnPending := 0 }

/-- The latest word of an image word stands in the queue or is composed: a read of it makes no M-port access (R120). -/
def MemoryPath.atHand (p : MemoryPath) (off : Nat) : Bool := p.queue.any (fun e => e.1 = off) || p.resync.contains off

/-- A read of an image word: answered from queue or live state at once, otherwise forwarded and answered with the word as it stood when
the read was taken (R120); a read of a warning's cell arms the warning as it then stands (R83), also one that waits for the M-port: log
entry 44. -/
def State.readImage (s : State) (off : Nat) : State :=
  let s1 := if s.path.atHand off then s.answer (s.latestWord off) else s.forward (.read (s.latestWord off))
  match warningAt off with
  | some w => s1.arm w
  | none => s1

/-- A host read of the word at a window offset. -/
def State.readOffset (s : State) (off : Nat) : State :=
  if isLiveCell off then s.forward (.read (s.sramWord (s.windowAddr off)))
  else if !s.path.windowOpen then s.answer 0
  else if off = offSummary then s.readSummary
  else if isImageOffset off then s.readImage off
  else s.forward (.read (s.sramWord (s.windowAddr off)))

/-- The P-port takes one host access at a time; the next when the present one has completed (R119). -/
def State.portFree (s : State) : Bool := s.path.held.isNone

/-- A host read of a word address: outside the window it is forwarded (R119). -/
def State.hostRead (s : State) (wordAddr : BitVec 22) : State :=
  if s.portFree then
    match s.windowOffset wordAddr with
    | none => s.forward (.read (s.sramWord (wordAddr.toNat * 4)))
    | some off => s.readOffset off
  else s

/-! ## Warning cells (R76, R84, R86, R123) -/

/-- ACK written to a warning cell: an acknowledgement of an armed ACTIVE_UNACK warning, or void and counted (R84). -/
def State.hostAck (s : State) (w : Fin 96) : State :=
  let x := s.warn.rows.get w
  if x.armed ∧ x.state = .activeUnack then s.acknowledge w
  else s.offerChanged (s.setWarn { s.warn with voidAcks := satInc s.warn.voidAcks }) [offCountA]

/-- SET or RESET taken on a HOST_SET warning (R76); outside RUN it is dropped. -/
def State.hostSet (s : State) (w : Fin 96) (b : Bool) : State :=
  if s.warningsRun then
    let cfg := s.profile.warnings.get w
    let x := { s.warn.rows.get w with hostSet := b }
    s.commitWarning w (x.evaluate cfg s.warn.clock b (gateOpen s.sig.motion cfg.gate))
  else s

/-- A full write to a warning cell (R86, R123). -/
def State.writeWarning (s : State) (w : Fin 96) (word : Word) : State :=
  if word = Config.ackWord then s.hostAck w
  else if (s.profile.warnings.get w).condition = .hostSet then
    if word = Config.setWord then s.hostSet w true
    else if word = Config.resetWord then s.hostSet w false
    else s.violation
  else s.violation

/-! ## Commands (R130, R131) -/

/-- START and PARKED refuse every known command (R131). -/
def State.commandsShut (s : State) : Bool := s.mode.mode = .start || s.mode.mode = .parked

/-- CLEAR_FAULTS (Table 6-3). The result word IN_PROGRESS is offered before the words of the clear: log entry 48. -/
def State.beginClearFaults (s : State) : State :=
  if s.commandsShut || !s.svc.level then s.refuse .notAllowed
  else if s.fm.clearing then s.refuse .busy
  else (s.inProgress.takeClear .command).takeWork

/-- PROFILE_STORE (Table 6-3, R192). -/
def State.beginStore (s : State) : State :=
  if s.mode.mode = .run then
    let s1 := s.inProgress
    s1.setCtrl { s1.ctrl with store := .validating }
  else s.refuse .notAllowed

/-- RESTART (Table 6-3, R193). -/
def State.beginReload (s : State) : State :=
  if s.mode.mode = .run then
    let s1 := s.inProgress
    (s1.setCtrl { s1.ctrl with restartWaiting := true }).takeWork
  else s.refuse .notAllowed

/-- CLEAR_CAUSES (Table 6-3, R190). -/
def State.beginClearCauses (s : State) : State :=
  if s.commandsShut then s.refuse .notAllowed
  else (s.offerStatus (s.setMode { s.mode with causes := {} })).complete

/-- CLEAR_STATS (Table 6-3, R45). -/
def State.beginClearStats (s : State) : State :=
  if s.commandsShut then s.refuse .notAllowed else s.clearStats.complete

/-- PARK_NOW (Table 6-3, R180). -/
def State.beginPark (s : State) : State :=
  if s.mode.mode = .run ∧ s.goodNonzero s.profile.ignition = false then s.enterParking.complete.takeWork
  else s.refuse .notAllowed

/-- The command begun that a code names (R131, Table 12-2). -/
def State.beginCommand (s : State) (code : Byte) : State :=
  match code.toNat with
  | 1 => s.beginClearFaults
  | 2 => s.beginStore
  | 3 => s.beginReload
  | 4 => s.beginClearCauses
  | 5 => s.beginClearStats
  | 6 => s.beginPark
  | _ => s.refuse .badCode

/-- A full write to the command cell: taken while idle, the word forwarded and the command begun; otherwise an overrun (R130). -/
def State.writeCommand (s : State) (word : Word) : State :=
  match s.path.command with
  | some _ => s.offerChanged (s.setPath { s.path with overruns := satInc s.path.overruns }) [offCountB]
  | none =>
    let code : Byte := word.setWidth 8
    let s1 := s.forwardWord offCommand word
    (s1.setPath { s1.path with command := some code }).beginCommand code

/-- The command word of a code with the bits that the device ignores. -/
def commandWord (upper : BitVec 24) (code : Byte) : Word := upper ++ code

/-! ## Host writes (R119, R121 to R124, R128, R137) -/

/-- A telltale whose function set names HOST_REQUEST. -/
def namesRequest (c : LampCfg) : Bool := c.sources.any (fun q => q = .hostRequest)

/-- A request word taken: the copy replaced, the telltales whose bit changed evaluated (R102). -/
def State.takeRequest (s : State) (upper : Bool) (word : Word) : State :=
  let u := if upper then { s.ind with requestHigh := word } else { s.ind with requestLow := word }
  (s.setInd u).evalLamps (fun t =>
    namesRequest (s.profile.lamps.get t) && (s.ind.requestBit t != u.requestBit t))

/-- A full write to a request word, passed through (R121); dropped in PARKED (R137). -/
def State.writeRequest (s : State) (upper : Bool) (word : Word) : State :=
  if s.mode.mode = .parked then s
  else (s.takeRequest upper word).forwardWord (if upper then 0x0684 else 0x0680) word

/-- A full write to the attention enable cell (R134). -/
def State.writeEnable (s : State) (word : Word) : State :=
  (s.setPath { s.path with attnEnable := word.setWidth 10 }).forwardWord offEnable word

/-- A full write to the host alive cell (R121, R139); a report that it caused may have queued a slot (R187). -/
def State.writeAlive (s : State) (word : Word) : State :=
  ((s.aliveWrite (word.setWidth 8)).forwardWord offAlive word).takeWork

/-- A full write to a signal cell: held for capture for a HOST signal (R122), dropped in PARKED (R137). -/
def State.writeSignal (s : State) (n : Fin 256) (word : Word) : State :=
  if (s.profile.signals.get n).source = .host then
    if s.mode.mode = .parked then s else s.setPath { s.path with held := some (.signal n word) }
  else s.violation

/-- A full write to a gauge's target word: held for capture for a HOST gauge (R122), dropped in PARKED (R137). -/
def State.writeGauge (s : State) (g : Fin 12) (word : Word) : State :=
  if (s.profile.gauges.get g).mode = .host then
    if s.mode.mode = .parked then s else s.setPath { s.path with held := some (.gauge g word) }
  else s.violation

/-- A full write to a live cell. -/
def State.writeLive (s : State) (off : Nat) (word : Word) : State :=
  if off = offCommand then s.writeCommand word else if off = offEnable then s.writeEnable word else s.writeAlive word

/-- A full write to a captured, request or warning word; other words are read-only. -/
def State.writeOwned (s : State) (off : Nat) (word : Word) : State :=
  if off < 0x0400 then
    match signalAt off with
    | some n => s.writeSignal n word
    | none => s.violation
  else if off = 0x0680 then s.writeRequest false word
  else if off = 0x0684 then s.writeRequest true word
  else
    match warningAt off, gaugeTargetAt off with
    | some w, _ => s.writeWarning w word
    | none, some g => s.writeGauge g word
    | none, none => s.violation

/-- Words with a meaning of their own on a full write; a partial write to one is a violation (R124). -/
def isOwned (off : Nat) : Bool :=
  off < 0x0400 || (0x0480 ≤ off && off < 0x0600) || (0x0620 ≤ off && off < 0x0688)

/-- A profile store is in progress (R192). -/
def Controller.storing (c : Controller) : Bool := c.store ≠ .none

/-- A host write to the word at a window offset. -/
def State.writeOffset (s : State) (off : Nat) (word : Word) (lanes : BitVec 4) : State :=
  if isLiveCell off then (if lanes = 0xF then s.writeLive off word else s.violation)
  else if !s.path.windowOpen then s
  else if isReadOnly off then s.violation
  else if isOwned off then (if lanes = 0xF then s.writeOwned off word else s.violation)
  else if offStaging ≤ off ∧ s.ctrl.storing then s.violation
  else s.forward (.write (s.windowAddr off) word lanes)

/-- A host write to a window offset, taken when the P-port is free. -/
def State.hostWriteAt (s : State) (off : Nat) (word : Word) (lanes : BitVec 4) : State :=
  if s.portFree then s.writeOffset off word lanes else s

/-- A host write to a word address: outside the window it is forwarded (R119). -/
def State.hostWrite (s : State) (wordAddr : BitVec 22) (word : Word) (lanes : BitVec 4) : State :=
  if s.portFree then
    match s.windowOffset wordAddr with
    | none => s.forward (.write (wordAddr.toNat * 4) word lanes)
    | some off => s.writeOffset off word lanes
  else s

/-! ## Captured writes (R122) -/

/-- The queue entry and the resync mark of an offset removed, and its composed word written to SRAM (R122). -/
def State.supersede (off : Nat) (s : State) : State :=
  let p := s.path.withQueue (s.path.queue.filter (fun e => e.1 ≠ off))
  (s.setPath { p with resync := p.resync.filter (fun o => o ≠ off) }).writeSram (s.windowAddr off) (s.imageWord off) 0xF

/-- A captured value taken by the signal unit (R5): its queue entry and mark are removed and its composed word is written before its
reports and its hand-over offer anything: log entry 34. -/
def State.captureSignal (s : State) (n : Fin 256) (word : Word) : State :=
  let c := s.profile.signals.get n
  if c.source = .host then
    s.commitSignal n ((s.sig.entries.get n).update c (word.setWidth 16)) true (State.supersede (offSignal n))
  else s.violation

/-- A captured target taken by the indication unit (R108). The actual word of an arrival that it gives at once is offered first; then the
target's queue entry and mark are removed and its composed word is written: log entry 34. -/
def State.captureGauge (s : State) (g : Fin 12) (word : Word) : State :=
  let c := s.profile.gauges.get g
  if c.mode = .host then
    State.supersede (offGaugeTarget g) (s.setRequested g (min (word.setWidth 16).toNat c.full))
  else s.violation

/-- A captured write granted, judged under the window state and mode that then stand (R122): `capture` hands the word to its owner and
writes the composed one. -/
def State.grantCaptured (s : State) (capture : State → State) : State :=
  if s.hostGranted then
    let s1 := s.setPath { s.path with held := none }
    if !s.path.windowOpen ∨ s.mode.mode = .parked then s1 else (capture s1).requeue
  else s

/-- A held captured write is granted the M-port (R122); a forwarded access is not the row's to grant. -/
def State.grantHeld (s : State) : State :=
  match s.path.held with
  | some (.signal n word) => s.grantCaptured (fun t => t.captureSignal n word)
  | some (.gauge g word) => s.grantCaptured (fun t => t.captureGauge g word)
  | some (.forwarded _) => s
  | none => s

/-! ## The image writer (R126, R129) -/

/-- The image writer is granted the M-port and writes the head entry's word (R126, R129). -/
def State.grantImage (s : State) : State :=
  match s.path.inFlight, s.path.queue with
  | none, e :: _ =>
    if s.path.urgent || s.path.held.isNone then
      (s.setPath { s.path with inFlight := some e }).writeSram (s.windowAddr e.1) e.2 0xF
    else s
  | none, [] => s
  | some _, _ => s

/-- The entry whose write completed leaves the queue, unless a newer word replaced the one written (R126). An initialisation counts an
entry as written when it leaves the queue: log entry 20. -/
def MemoryPath.writeDone (p : MemoryPath) (e : Nat × Word) : MemoryPath :=
  match p.queue with
  | [] => { p with inFlight := none }
  | h :: rest =>
    if h = e then
      let q := p.withQueue rest
      { q with inFlight := none, awaited := p.awaited.map (fun a => a.filter (fun o => o ≠ e.1)) }
    else { p with inFlight := none }

/-- Image initialisation has nothing left to wait for (R128). -/
def MemoryPath.initialised (p : MemoryPath) : Bool := p.awaited = some [] && p.resync.isEmpty

/-- An image write completes (R126 to R128). -/
def State.imageWritten (s : State) : State :=
  match s.path.inFlight with
  | none => s
  | some e =>
    let s1 := (s.setPath (s.path.writeDone e)).requeue
    if s1.path.initialised then s1.endImages else s1

end Sys2Proof.Machine
end

