-- ==== Sys2Proof/Machine/Service.lean ====
section
/-! DEFINITION. The service unit's operations (09; 12.4): reception of a request, its checks, the data of each response, and the
transmission with its echo check. -/

namespace Sys2Proof.Machine

/-! ## Requests and replies (R167, R169; 12.4) -/

/-- The requests of Table 9-1. -/
inductive Request where
  | identify | readFaults | readFreeze | clearFaults | readSignals | readDoors | readLines | outputTest | stopTest
  | workshopStatus
deriving DecidableEq, Repr

/-- Request code (12.4). -/
def Request.code : Request → Byte
  | .identify => 0x01
  | .readFaults => 0x02
  | .readFreeze => 0x03
  | .clearFaults => 0x04
  | .readSignals => 0x05
  | .readDoors => 0x06
  | .readLines => 0x07
  | .outputTest => 0x08
  | .stopTest => 0x09
  | .workshopStatus => 0x0A

/-- The request of a code. -/
def Request.ofCode (b : Byte) : Option Request :=
  [.identify, .readFaults, .readFreeze, .clearFaults, .readSignals, .readDoors, .readLines, .outputTest, .stopTest,
    .workshopStatus].find? (fun r => r.code = b)

/-- A read-type request changes nothing in the device (Table 9-1). -/
def Request.isRead : Request → Bool
  | .identify => true
  | .readFaults => true
  | .readFreeze => true
  | .readSignals => true
  | .readDoors => true
  | .readLines => true
  | .workshopStatus => true
  | .clearFaults => false
  | .outputTest => false
  | .stopTest => false

/-- Refusal reasons of the service line (12.4). -/
inductive Refused where
  | badRequest | outOfRange | notAllowed | conditions | busy
deriving DecidableEq, Repr

/-- Reason code (12.4). -/
def Refused.code : Refused → Byte
  | .badRequest => 0x10
  | .outOfRange => 0x11
  | .notAllowed => 0x12
  | .conditions => 0x13
  | .busy => 0x14

/-- The outcome of a request: positive with its data, or refused. -/
inductive Answer where
  | positive (data : List Byte)
  | refusal (r : Refused)
deriving DecidableEq, Repr

/-- The number of parameters is the number the request takes (R169 check 2). -/
def Request.countOk (r : Request) (params : List Byte) : Bool :=
  match r with
  | .identify => params.length = 0
  | .readFaults => params.length = 1
  | .readFreeze => params.length = 2
  | .clearFaults => params.length = 0
  | .readSignals => 1 ≤ params.length && params.length ≤ 8
  | .readDoors => params.length = 0
  | .readLines => params.length = 1
  | .outputTest => if params.head? = some 1 then params.length = 2 else params.length = 1
  | .stopTest => params.length = 0
  | .workshopStatus => params.length = 0

/-- Each parameter lies in its range (R169 check 3). -/
def Request.rangeOk (r : Request) (params : List Byte) : Bool :=
  match r with
  | .readFaults => (params.getD 0 0).toNat ≤ 7
  | .readLines => (params.getD 0 0).toNat ≤ 2
  | .outputTest =>
    1 ≤ (params.getD 0 0).toNat && (params.getD 0 0).toNat ≤ 3 &&
      (params.getD 0 0 ≠ 1 || (1 ≤ (params.getD 1 0).toNat && (params.getD 1 0).toNat ≤ 30))
  | .identify => true
  | .readFreeze => true
  | .clearFaults => true
  | .readSignals => true
  | .readDoors => true
  | .stopTest => true
  | .workshopStatus => true

/-! ## Response data (Table 12-6) -/

/-- IDENTIFY (R171). -/
def State.identifyData (s : State) : List Byte :=
  [Config.familyCode] ++ leBytes 4 s.profile.identity.toNat ++ leBytes 2 s.profile.version.toNat ++
    leBytes 3 s.mode.cycle.toNat

/-- First seen as one number. -/
def firstSeen (r : Record) : Nat := (r.first.map (fun m => m.cycle.toNat * 2 ^ 32 + m.ms.toNat)).getD 0

/-- The listed records: ACTIVE and PASSIVE, by first seen and then by slot number (R157, R172). -/
def FaultMemory.listed (fm : FaultMemory) : List Record :=
  sortByKey firstSeen ((fm.records.rows.filterMap id).filter (fun r => r.state ≠ .pending))

/-- One record entry of READ_FAULTS. -/
def faultEntry (r : Record) : List Byte :=
  [BitVec.ofNat 8 r.code.kind.toNat, r.code.subject, r.occurrence, r.healing,
    BitVec.ofNat 8 (r.state.toNat + 128 * r.frame.isSome.toNat)] ++
    leBytes 3 (momentCycle r.first).toNat ++ leBytes 3 (momentCycle r.last).toNat ++ leBytes 4 (momentMs r.last).toNat

/-- READ_FAULTS of a page (R172). -/
def State.faultsData (s : State) (page : Nat) : List Byte :=
  let l := s.fm.listed
  [BitVec.ofNat 8 l.length] ++ ((l.drop (4 * page)).take 4).flatMap faultEntry

/-- The listed record of a code given by its two parameters. -/
def State.listedFor (s : State) (kind subject : Byte) : Option Record :=
  s.fm.listed.find? (fun r => BitVec.ofNat 8 r.code.kind.toNat = kind && r.code.subject = subject)

/-- One freeze entry of READ_FREEZE. -/
def freezeEntry (e : FreezeEntry) : List Byte :=
  [e.signal] ++ leBytes 2 e.value.toNat ++ [BitVec.ofNat 8 e.quality.toNat]

/-- READ_FREEZE of a record (R172). -/
def freezeData (r : Record) : List Byte :=
  let head := [BitVec.ofNat 8 r.code.kind.toNat, r.code.subject]
  match r.frame with
  | none => head ++ [0]
  | some f =>
    head ++ [1, BitVec.ofNat 8 f.entries.length] ++ f.entries.flatMap freezeEntry ++
      [BitVec.ofNat 8 f.motion.toNat, BitVec.ofNat 8 f.openCount] ++ leBytes 3 (momentCycle r.first).toNat ++
      leBytes 4 (momentMs r.first).toNat

/-- One signal of READ_SIGNALS (R171). -/
def State.signalEntry (s : State) (p : Byte) : List Byte :=
  let e := s.sig.entries.get p.toFin
  [p] ++ leBytes 2 e.value.toNat ++ [BitVec.ofNat 8 e.quality.toNat] ++ leBytes 2 e.age.toNat

/-- One door of READ_DOORS (R171). -/
def doorEntry (c : DoorCfg) (x : Door) : List Byte :=
  [BitVec.ofNat 8 (x.state.toNat + 16 * c.present.toNat + 32 * x.countsOpen.toNat),
    BitVec.ofNat 8 (x.source.toNat + 4 * x.cause.toNat)] ++ leBytes 4 x.openCycles.toNat ++ leBytes 4 x.obstructions.toNat

/-- READ_DOORS (R171). -/
def State.doorsData (s : State) : List Byte :=
  (List.finRange 6).flatMap (fun d => doorEntry (s.profile.doors.get d) (s.door.doors.get d)) ++
    [BitVec.ofNat 8 s.door.openCount, BitVec.ofNat 8 s.door.allLocked.toNat]

/-- The eleven counts of a line in the order of Table 12-4. -/
def LineCounts.list (c : LineCounts) : List (BitVec 16) :=
  [c.accepted, c.ignored, c.noise, c.framing, c.truncated, c.long, c.check, c.length, c.brk, c.breaks, c.collisions]

/-- READ_LINES of a line (R171). -/
def lineData (l : LineRx) : List Byte :=
  [BitVec.ofNat 8 (l.state.toNat + 4 * l.hunting.toNat)] ++ l.counts.list.flatMap (fun c => leBytes 2 c.toNat)

/-- WORKSHOP_STATUS (R171). -/
def State.workshopData (s : State) : List Byte :=
  [BitVec.ofNat 8
      (s.svc.level.toNat + 2 * s.svc.switchOn.toNat + 4 * s.svc.standing.toNat + 8 * s.svc.brakeOn.toNat +
        16 * s.fm.clearing.toNat + 32 * s.fm.full.toNat),
    BitVec.ofNat 8 s.svc.test.toNat, BitVec.ofNat 8 s.svc.lastOutcome.toNat] ++ leBytes 2 s.svc.echoLosses.toNat

/-! ## The requests that act (R173, R175, R176) -/

/-- A STOP-class warning is ACTIVE_UNACK (R175). -/
def State.stopUnack (s : State) : Bool :=
  (List.finRange 96).any (fun w =>
    (s.warn.rows.get w).state = .activeUnack && (s.profile.warnings.get w).cls = .stop)

/-- The GAUGE_SWEEP test ends at its completion (R110, R175). -/
def State.sweepCompletion (s : State) : State :=
  if s.svc.test = .gaugeSweep ∧ s.sweeping = false then s.endTest .completed else s

/-- The kind of test of a parameter (12.4). -/
def testKind (b : Byte) : TestKind := if b = 1 then .lamp else if b = 2 then .gaugeSweep else .chime

/-- A test started (R175). A SINGLE that the start of a CHIME test cuts off stays selected until the next evaluation: log entry 29. -/
def State.startTest (s : State) (k : TestKind) (duration : Nat) : State :=
  let s1 := s.offerStatus (s.setSvc
    { s.svc with
      test := k
      testDuration := duration
      testTimer := if k = .lamp then some 0 else none })
  match k with
  | .none => s1
  | .lamp => s1.evalAllLamps
  | .gaugeSweep => (s1.forEach (List.finRange 12) State.enterSweep).sweepCompletion
  | .chime => s1.setChime { s1.ind.chime with phase := .silent, test := some (.tone 0) }

/-- OUTPUT_TEST after the checks of R169 (R175). -/
def State.outputTest (s : State) (params : List Byte) : State × Answer :=
  if s.mode.mode ≠ .run then (s, .refusal .notAllowed)
  else if !s.svc.level || s.stopUnack then (s, .refusal .conditions)
  else if s.svc.test ≠ .none then (s, .refusal .busy)
  else (s.startTest (testKind (params.getD 0 0)) (params.getD 1 0).toNat, .positive [])

/-- STOP_TEST (R176). -/
def State.stopTest (s : State) : State × Answer :=
  if s.svc.test = .none then (s, .refusal .conditions) else (s.endTest .stopped, .positive [])

/-- The service request CLEAR_FAULTS (R173). -/
def State.clearRequest (s : State) : State × Answer :=
  if s.mode.mode ≠ .run ∧ s.mode.mode ≠ .parking then (s, .refusal .notAllowed)
  else if !s.svc.level then (s, .refusal .conditions)
  else if s.fm.clearing then (s, .refusal .busy)
  else ((s.takeClear .service).takeWork, .positive [])

/-- A request that passed checks 1 to 3 (R171 to R176). -/
def State.perform (s : State) (r : Request) (params : List Byte) : State × Answer :=
  match r with
  | .identify => (s, .positive s.identifyData)
  | .readFaults => (s, .positive (s.faultsData (params.getD 0 0).toNat))
  | .readFreeze =>
    match s.listedFor (params.getD 0 0) (params.getD 1 0) with
    | some x => (s, .positive (freezeData x))
    | none => (s, .refusal .outOfRange)
  | .clearFaults => s.clearRequest
  | .readSignals => (s, .positive (params.flatMap s.signalEntry))
  | .readDoors => (s, .positive s.doorsData)
  | .readLines =>
    match s.rx.lines.get? (params.getD 0 0).toNat with
    | some l => (s, .positive (lineData l))
    | none => (s, .refusal .outOfRange)
  | .outputTest => s.outputTest params
  | .stopTest => s.stopTest
  | .workshopStatus => (s, .positive s.workshopData)

/-- Checks 1 to 3, then the request (R169). -/
def State.judgeRequest (s : State) (code : Byte) (params : List Byte) : State × Answer :=
  match Request.ofCode code with
  | none => (s, .refusal .badRequest)
  | some r =>
    if !r.countOk params then (s, .refusal .badRequest)
    else if !r.rangeOk params then (s, .refusal .outOfRange)
    else s.perform r params

/-- A functional request is acted on only when it is read-type, and answered only positively (R169). -/
def State.functionalAnswer (s : State) (code : Byte) (params : List Byte) : Option (List Byte) :=
  match Request.ofCode code with
  | none => none
  | some r =>
    if r.isRead then
      match (s.judgeRequest code params).2 with
      | .positive d => some d
      | .refusal _ => none
    else none

/-! ## Responses (R167) -/

/-- The characters of a response between length and check. -/
def responseBody (code : Byte) : Answer → List Byte
  | .positive d => [code + 0x40] ++ d
  | .refusal r => [0x7F, code, r.code]

/-- A response frame: tester address, physical address, length, body, check (R167). -/
def responseFrame (tester address : Byte) (body : List Byte) : List Byte :=
  let f := [tester, address, BitVec.ofNat 8 body.length] ++ body
  f ++ [xorAll f]

/-- The unit enters REPLY with a response (R167). Without a physical address its second character is a free value (log entry 14). -/
def State.reply (s : State) (tester : Byte) (body : List Byte) : State :=
  s.setSvc
    { s.svc with
      line := .reply
      response := responseFrame tester (s.svc.address.getD (Config.freeAddress s.svc.freeUses)) body
      sent := 0
      transmitting := false
      turnaround := some 0
      freeUses := if s.svc.address.isNone then s.svc.freeUses + 1 else s.svc.freeUses }

/-- A valid request addressed to the part sets the tester-active flag and restarts its timer (R170). -/
def State.testerSeen (s : State) : State :=
  let s1 := s.setSvc { s.svc with testerActive := true, testerTimer := some 0 }
  if s.svc.testerActive then s1 else (s.offerStatus s1).setCause .tester

/-- The unit back in IDLE with no request in progress. -/
def ServiceUnit.idle (u : ServiceUnit) : ServiceUnit := { u with line := .idle, received := [], gap := none }

/-- The unit in SKIP with its gap timer started (R165). -/
def ServiceUnit.skip (u : ServiceUnit) : ServiceUnit := { u with line := .skip, received := [], gap := some 0 }

/-- A request taken at the completion of its check character (R166, R169, R170). The words of what it asks for, a clear's or a test's, are
offered before the status word with the tester-active flag and before the cause TESTER: log entry 48, the model's choice. -/
def State.takeRequestFrame (s : State) (functional : Bool) (tester code : Byte) (params : List Byte) : State :=
  if functional then
    match s.functionalAnswer code params with
    | some d => s.testerSeen.reply tester (responseBody code (.positive d))
    | none => s.testerSeen
  else
    let r := s.judgeRequest code params
    r.1.testerSeen.reply tester (responseBody code r.2)

/-- A complete frame: discarded, not for this unit, or taken (R166). -/
def State.frameComplete (s : State) (frame : List Byte) : State :=
  let s1 := s.setSvc s.svc.idle
  let target := frame.getD 0 0
  let tester := frame.getD 1 0
  if xorAll frame = 0 ∧ 0x80 ≤ tester.toNat ∧ tester.toNat ≤ 0xFE then
    if target = Config.functionalAddress then
      s1.takeRequestFrame true tester (frame.getD 3 0) ((frame.drop 4).dropLast)
    else if s.svc.address = some target then
      s1.takeRequestFrame false tester (frame.getD 3 0) ((frame.drop 4).dropLast)
    else s1
  else s1

/-! ## Reception (R165, R166) -/

/-- The unit takes characters in RUN and PARKING only (R178, R179). That a character in START leaves the line state IDLE, and so begins
no request that RUN could complete, is log entry 47. -/
def State.serviceListens (s : State) : Bool := s.mode.mode = .run || s.mode.mode = .parking

/-- The character whose start edge woke the device ends: it is not received, and the rest of its request is skipped (R178, log entry
39). -/
def ServiceUnit.endWakeChar (u : ServiceUnit) : ServiceUnit := { u.skip with wakeChar := false }

/-- The first character of a request (R165). -/
def State.firstCharacter (s : State) (c : ServiceChar) : State :=
  if c.good ∧ 1 ≤ c.data.toNat ∧ c.data.toNat ≤ 0x7F then
    s.setSvc { s.svc with line := .receiving, received := [c.data], gap := some 0 }
  else s.setSvc s.svc.skip

/-- A later character of a request (R166): the third is the length, which counts the request code and its parameters. -/
def State.laterCharacter (s : State) (c : ServiceChar) : State :=
  let frame := s.svc.received ++ [c.data]
  let len := (frame.getD 2 0).toNat
  if !c.good then s.setSvc s.svc.skip
  else if frame.length = 3 ∧ (len = 0 ∨ 16 < len) then s.setSvc s.svc.skip
  else if 3 < frame.length ∧ frame.length = len + 4 then s.frameComplete frame
  else s.setSvc { s.svc with received := frame, gap := some 0 }

/-- A service-line character (R165, R166). -/
def State.serviceCharacter (s : State) (c : ServiceChar) : State :=
  if s.serviceListens then
    match s.svc.line with
    | .idle => if s.svc.wakeChar then s.setSvc s.svc.endWakeChar else s.firstCharacter c
    | .receiving => if s.svc.received = [] then s.firstCharacter c else s.laterCharacter c
    | .skip => s.setSvc { s.svc with gap := some 0 }
    | .reply => s
  else s

/-- A start edge on the service line in PARKED wakes the device; the character that it begins is not received (R178). -/
def State.serviceWake (s : State) : State :=
  let t := s.wake { service := true }
  t.setSvc { t.svc with wakeChar := true }

/-- A start edge on the service line: abandons a response not yet sent (R167), stops the gap timer of a request (R166), wakes the
device in PARKED (R178). In IDLE a new character begins, so the one that woke the device is over (log entry 39). -/
def State.serviceEdge (s : State) : State :=
  if s.mode.mode = .parked then s.serviceWake
  else
    match s.svc.line with
    | .reply =>
      if s.svc.turnaround.isSome then
        s.setSvc
          { s.svc with
            line := .receiving
            received := []
            gap := none
            response := []
            turnaround := none }
      else s
    | .receiving => s.setSvc { s.svc with gap := none }
    | .idle => s.setSvc { s.svc with wakeChar := false }
    | .skip => s

/-- The target character of a request given whole. -/
def State.targetByte (s : State) : Target → Option Byte
  | .physical => s.svc.address
  | .functional => some Config.functionalAddress

/-- A request delivered whole, from its first start edge to its check character (log entry 13). A unit that waits to answer abandons
its response first (R167); one that skips or transmits receives nothing; in PARKED the first edge wakes the device and the
request is not received (R178). -/
def State.requestFrame (s : State) (r : Request) (target : Target) (tester : Byte) (params : List Byte) : State :=
  if s.serviceListens then
    let s1 := s.serviceEdge
    match s1.svc.line, s.targetByte target with
    | .skip, _ => s1.setSvc { s1.svc with gap := some 0 }
    | .reply, _ => s1
    | .idle, none => s1
    | .receiving, none => s1.setSvc s1.svc.idle
    | .idle, some t | .receiving, some t =>
      if params.length ≤ 15 then
        let f := [t, tester, BitVec.ofNat 8 (1 + params.length), r.code] ++ params
        s1.frameComplete (f ++ [xorAll f])
      else s1.setSvc s1.svc.skip
  else if s.mode.mode = .parked then
    let s1 := s.serviceWake
    (s1.setSvc s1.svc.endWakeChar).takeWork
  else s

/-! ## Transmission (R167, R168) -/

/-- The turnaround ends and the transmission begins (R167). -/
def State.beginTransmission (s : State) : State :=
  s.setSvc { s.svc with turnaround := none, transmitting := true }

/-- The response done with. -/
def ServiceUnit.endResponse (u : ServiceUnit) : ServiceUnit :=
  { u with response := [], sent := 0, transmitting := false, turnaround := none }

/-- A transmitted character read back: the next one, the end of the response, or the echo failure (R168). -/
def State.readBack (s : State) (c : ServiceChar) : State :=
  match s.svc.transmitting, s.svc.response[s.svc.sent]? with
  | true, some b =>
    if c.good ∧ c.data = b then
      if s.svc.sent + 1 = s.svc.response.length then s.setSvc s.svc.endResponse.idle
      else s.setSvc { s.svc with sent := s.svc.sent + 1 }
    else s.setSvc { s.svc.endResponse.skip with echoLosses := satInc s.svc.echoLosses }
  | true, none => s
  | false, _ => s

/-- The tester-active expiry (R170). -/
def State.testerExpiry (s : State) : State :=
  (s.offerStatus (s.setSvc { s.svc with testerActive := false, testerTimer := none })).setCause .tester

end Sys2Proof.Machine
end

