-- ==== Sys2Proof/Machine/Time.lean ====
section
/-! DEFINITION. The passing of one millisecond on an empty queue: every running timer, age and movement advances, and the expiries
that fall due are the commands to come (log entry 1). -/

namespace Sys2Proof.Machine

/-! ## One millisecond later -/

/-- An age one millisecond later; `due` when it passes the limit while GOOD or INVALID (R3, R4). -/
def Signal.tick (c : SignalCfg) (e : Signal) : Signal :=
  if sourceAges c.source then
    { e with
      age := satInc e.age
      due := e.due || (c.freshness ≠ 0 && e.age.toNat = c.freshness && (e.quality = .good || e.quality = .invalid)) }
  else e

/-- The signal unit (R3, R17): ages stand still in PARKED and without a profile in force. -/
def State.tickSignals (s : State) : SignalUnit :=
  if s.takesUpdates then
    { entries := .ofFn (fun n => (s.sig.entries.get n).tick (s.profile.signals.get n))
      motion := s.sig.motion
      hold := tickTimer s.sig.hold }
  else s.sig

/-- The filters' stability timers and the speed timer, which counts the units of the millisecond that had not passed at the last edge
taken in it (R10, R13, log entry 33). -/
def InputUnit.tick (u : InputUnit) : InputUnit :=
  { u with
    inputs := u.inputs.map (fun x => { x with stable := tickTimer x.stable })
    count := if u.running then min Config.speedOverflowAt (u.count + (Config.speedUnitsPerMs - u.edgeAt)) else u.count
    edgeAt := 0 }

/-- The gap and silence timers (R31, R40). -/
def LineUnit.tick (u : LineUnit) : LineUnit :=
  { u with lines := u.lines.map (fun l => { l with gap := tickTimer l.gap, silence := tickTimer l.silence }) }

/-- The door timers (R56, R58). -/
def DoorUnit.tick (u : DoorUnit) : DoorUnit :=
  { u with doors := u.doors.map (fun x => { x with timer := x.timer.map (fun t => (t.1, t.2 + 1)) }) }

/-- The activation clock and the delay timers, while the mode is RUN (R71). -/
def State.tickWarnings (s : State) : WarningUnit :=
  if s.mode.mode = .run then
    { s.warn with
      clock := satInc s.warn.clock
      rows := s.warn.rows.map (fun w => { w with timer := w.timer.map (fun t => (t.1, t.2 + 1)) }) }
  else s.warn

/-- The blink clock (R99). -/
def Blink.tick : Blink → Blink
  | .stopped => .stopped
  | .onPhase ms => .onPhase (ms + 1)
  | .offPhase ms => .offPhase (ms + 1)

/-- A position one millisecond nearer to its target (R106). -/
def stepTowards (rate pos target : Nat) : Nat := if pos < target then min target (pos + rate) else max target (pos - rate)

/-- A gauge's homing time and movement (R105, R106). -/
def Gauge.tick (c : GaugeCfg) (x : Gauge) : Gauge :=
  { x with
    homing := tickTimer x.homing
    position := if x.state.homed && x.moving then stepTowards c.rate x.position x.target else x.position }

/-- The chime's phases (R113, R114). -/
def ChimePhase.tick : ChimePhase → ChimePhase
  | .silent => .silent
  | .singleTone ms => .singleTone (ms + 1)
  | .repeatTone ms => .repeatTone (ms + 1)
  | .repeatSilence ms => .repeatSilence (ms + 1)
  | .steady => .steady

/-- The CHIME test's phases (R114). -/
def ChimeTest.tick : ChimeTest → ChimeTest
  | .tone ms => .tone (ms + 1)
  | .repeated ms => .repeated (ms + 1)
  | .steady ms => .steady (ms + 1)

/-- The indication unit (05). -/
def State.tickIndication (s : State) : IndicationUnit :=
  { s.ind with
    lamps := s.ind.lamps.map (fun l => { l with faultTimer := tickTimer l.faultTimer, clearTimer := tickTimer l.clearTimer })
    blink := s.ind.blink.tick
    lampCheck := tickTimer s.ind.lampCheck
    gauges := Table.zip Gauge.tick s.profile.gauges s.ind.gauges
    chime := { s.ind.chime with phase := s.ind.chime.phase.tick, test := s.ind.chime.test.map ChimeTest.tick } }

/-- The supervision timer and the HRST pulse (07). -/
def Supervision.tick (u : Supervision) : Supervision :=
  { u with timer := u.timer.map (fun t => (t.1, t.2 + 1)), pulse := tickTimer u.pulse }

/-- The confirm timers, stopped in PARKED (R149, R164). -/
def State.tickFaults (s : State) : FaultMemory :=
  if s.mode.mode = .parked then s.fm
  else { s.fm with records := s.fm.records.map (fun r => r.map (fun x => { x with timer := tickTimer x.timer })) }

/-- The service unit's timers (09). -/
def ServiceUnit.tick (u : ServiceUnit) : ServiceUnit :=
  { u with
    gap := tickTimer u.gap
    turnaround := tickTimer u.turnaround
    testerTimer := tickTimer u.testerTimer
    testTimer := tickTimer u.testTimer }

/-- The time in cycle, which stands still in PARKED, and the ignition-off timer (R180, R181). -/
def ModeUnit.tick (u : ModeUnit) : ModeUnit :=
  { u with
    time := if u.mode = .parked then u.time else satInc u.time
    offTimer := tickTimer u.offTimer }

/-- Every block one millisecond later. -/
def State.advance (s : State) : State :=
  { s with
    sig := s.tickSignals
    inp := s.inp.tick
    rx := s.rx.tick
    door := s.door.tick
    warn := s.tickWarnings
    ind := s.tickIndication
    sup := s.sup.tick
    fm := s.tickFaults
    svc := s.svc.tick
    mode := s.mode.tick }

/-! ## What falls due -/

/-- A timer that has passed a limit: the event comes when it has run for longer than the limit. -/
def passed (t : Option Nat) (limit : Nat) : Bool :=
  match t with
  | none => false
  | some e => limit < e

/-- A timer that runs for one of several purposes has run for at least a limit. -/
def ranFor {α : Type} [DecidableEq α] (t : Option (α × Nat)) (purpose : α) (limit : Nat) : Bool :=
  t.any (fun x => x.1 = purpose && limit ≤ x.2)

/-- A timer that runs for one of several purposes has run for longer than a limit. -/
def ranPast {α : Type} [DecidableEq α] (t : Option (α × Nat)) (purpose : α) (limit : Nat) : Bool :=
  t.any (fun x => x.1 = purpose && limit < x.2)

/-- The blink phase has run its half period (R99). -/
def Blink.over : Blink → Bool
  | .stopped => false
  | .onPhase ms => Config.blinkMs ≤ ms
  | .offPhase ms => Config.blinkMs ≤ ms

/-- Homing time of a gauge in ms, rounded up (R105). -/
def homingTime (c : GaugeCfg) : Nat := (c.full + c.overtravel + c.rate - 1) / c.rate

/-- An arrival is due: a homed gauge that moves has reached its target (R106). A gauge that takes a target where it stands is not
moving, so none is due; also in TEST: log entry 18. -/
def Gauge.arrived (x : Gauge) : Bool := x.state.homed && x.moving && x.position = x.target

/-- The tone of the pattern has sounded its 300 ms (R113). -/
def ChimePhase.toneOver : ChimePhase → Bool
  | .singleTone ms => Config.toneMs ≤ ms
  | .repeatTone ms => Config.toneMs ≤ ms
  | .silent => false
  | .repeatSilence _ => false
  | .steady => false

/-- The period of a REPEAT pattern is over (R113). -/
def ChimePhase.periodOver : ChimePhase → Bool
  | .repeatSilence ms => Config.repeatMs ≤ ms
  | .silent => false
  | .singleTone _ => false
  | .repeatTone _ => false
  | .steady => false

/-- The phase of the CHIME test is over: 300 ms, 3 s, 1 s (R114). -/
def ChimeTest.over : ChimeTest → Bool
  | .tone ms => Config.toneMs ≤ ms
  | .repeated ms => 3000 ≤ ms
  | .steady ms => 1000 ≤ ms

/-- The running count reaches 65 535 in the present millisecond (R14, log entry 33). -/
def InputUnit.overflowsWithin (u : InputUnit) : Bool :=
  u.running && Config.speedOverflowAt ≤ u.count + (Config.speedUnitsPerMs - u.edgeAt)

/-- The silence limit of a line as its timer runs to it (R40). -/
def silenceEnd (c : LineCfg) : Nat := (silenceLimit c.silence).getD 0

/-- Whether the time of an expiry has come: its timer runs and has reached, or passed, its limit where the block that owns it takes
expiries. Where it has not come, as when another event of the same moment restarted the timer, the expiry is not taken (log
entry 2). No other command is an expiry. While the images of a profile restart are written no TIMEOUT is judged (R145, log
entry 38). -/
def State.due (s : State) : Instr → Bool
  | .stalenessExpiry n => s.expiryTaken n
  | .debounceSettle i => s.inForce && reached (s.inp.inputs.get i).stable (s.profile.inputs.get i).debounce
  | .speedOverflow => s.takesUpdates && s.inp.overflowsWithin
  | .holdExpiry => reached s.sig.hold s.profile.stopHold
  | .gapExpiry l =>
    s.linesRun && (s.rx.lines.get l.toFin).receive.inFrame &&
      passed (s.rx.lines.get l.toFin).gap (s.profile.lines.get l.toFin).gap
  | .silenceExpiry l =>
    s.linesRun && reached (s.rx.lines.get l.toFin).silence (silenceEnd (s.profile.lines.get l.toFin))
  | .openTimeoutExpiry d => ranPast (s.door.doors.get d).timer .openMotion (s.profile.doors.get d).openTimeout
  | .closeTimeoutExpiry d => ranPast (s.door.doors.get d).timer .closeMotion (s.profile.doors.get d).closeTimeout
  | .disagreementExpiry d => ranPast (s.door.doors.get d).timer .disagree (s.profile.doors.get d).tolerance
  | .onDelayExpiry w => s.warningsRun && ranFor (s.warn.rows.get w).timer .onDelay (s.profile.warnings.get w).onDelay
  | .offDelayExpiry w => s.warningsRun && ranFor (s.warn.rows.get w).timer .offDelay (s.profile.warnings.get w).offDelay
  | .blinkPhaseEnd => s.ind.blink.over
  | .openLoadExpiry t => reached (s.ind.lamps.get t).faultTimer Config.openLoadMs
  | .clearExpiry t => reached (s.ind.lamps.get t).clearTimer Config.openLoadMs
  | .lampCheckExpiry => reached s.ind.lampCheck s.profile.lampCheck
  | .homingCompletion g =>
    (s.ind.gauges.get g).state = .homing && reached (s.ind.gauges.get g).homing (homingTime (s.profile.gauges.get g))
  | .arrival g => (s.ind.gauges.get g).arrived
  | .toneEnd => s.ind.chime.phase.toneOver
  | .repeatPeriodExpiry => s.ind.chime.phase.periodOver
  | .chimeTestPhaseEnd => s.ind.chime.test.any ChimeTest.over
  | .graceExpiry => s.sup.state = .starting && ranFor s.sup.timer .grace Config.graceMs
  | .timeoutExpiry => s.sup.state = .normal && s.path.awaited.isNone && ranFor s.sup.timer .timeout s.profile.supTimeout
  | .timeoutExpiryInLost => s.sup.state = .lost && s.path.awaited.isNone && ranFor s.sup.timer .timeout s.profile.supTimeout
  | .pulseEnd => reached s.sup.pulse Config.pulseMs
  | .confirmExpiry i =>
    s.mode.mode ≠ .parked && (s.fm.records.get i).any (fun r => r.state = .pending && reached r.timer s.profile.confirm)
  | .quietExpiry => s.svc.line = .skip && passed s.svc.gap Config.serviceGapMs
  | .serviceGapExpiry => s.svc.line = .receiving && passed s.svc.gap Config.serviceGapMs
  | .replyTurnaround => reached s.svc.turnaround Config.turnaroundMs
  | .testerActiveExpiry => reached s.svc.testerTimer Config.graceMs
  | .lampTestTimerExpiry => s.svc.test = .lamp && reached s.svc.testTimer (1000 * s.svc.testDuration)
  | .ignitionOffExpiry => s.mode.mode = .run && reached s.mode.offTimer s.profile.ignitionOff
  | _ => false

/-- The expiries whose time comes at the end of a millisecond, in the order in which those of one moment are queued (log entry 1). -/
def boundaryExpiries : List Instr :=
  [(List.finRange 256).map Instr.stalenessExpiry, (List.finRange 24).map Instr.debounceSettle, [.holdExpiry],
    [Line.front, Line.rear, Line.drive].flatMap (fun l => [.gapExpiry l, .silenceExpiry l]),
    (List.finRange 6).flatMap (fun d => [.openTimeoutExpiry d, .closeTimeoutExpiry d, .disagreementExpiry d]),
    (List.finRange 96).flatMap (fun w => [.onDelayExpiry w, .offDelayExpiry w]), [.blinkPhaseEnd],
    (List.finRange 48).map Instr.openLoadExpiry, (List.finRange 48).map Instr.clearExpiry, [.lampCheckExpiry],
    (List.finRange 12).map Instr.homingCompletion, (List.finRange 12).map Instr.arrival,
    [.toneEnd, .repeatPeriodExpiry, .chimeTestPhaseEnd, .graceExpiry, .timeoutExpiry, .timeoutExpiryInLost, .pulseEnd],
    (List.finRange 32).map Instr.confirmExpiry,
    [.quietExpiry, .serviceGapExpiry, .replyTurnaround, .testerActiveExpiry, .lampTestTimerExpiry, .ignitionOffExpiry]].flatten

/-- The expiries of the table. The overflow of the speed timer, which counts in units of 10 us, falls inside a millisecond. -/
def expiries : List Instr := .speedOverflow :: boundaryExpiries

/-- The expiries of a millisecond's end whose time has come, in order. -/
def State.dueCommands (s : State) : List Instr := boundaryExpiries.filter s.due

/-- An empty queue: the expiries whose time has come are queued; where none has, the overflow that falls in the present millisecond;
where none does, one millisecond passes first (log entry 1). In reset nothing happens (R190). -/
def State.tick (s : State) : State :=
  if s.mode.inReset then s
  else if s.dueCommands ≠ [] then s.setPending s.dueCommands
  else if s.due .speedOverflow then s.setPending [.speedOverflow]
  else s.advance.setPending s.advance.dueCommands

end Sys2Proof.Machine
end

