-- ==== Sys2Proof/Machine/ResetCommands.lean ====
section
/-! DEFINITION. Meanings of the full resets and of the steps of the START sequence (11). -/

namespace Sys2Proof.Machine

/-- POWER_ON_RESET (R190): full reset, the reset cause set emptied and POWER_ON added; SRAM lost its contents (log entry 6). -/
def execPowerOnReset (straps : BitVec 2) (s : State) : Host.Outcome State Fault Refusal :=
  .next (s.fullReset straps { powerOn := true } [] [])

/-- SUPPLY_LOW_RESET (R190): full reset, SUPPLY_LOW added to the causes, its momentary report held for the fault memory. -/
def execSupplyLowReset (straps : BitVec 2) (s : State) : Host.Outcome State Fault Refusal :=
  .next (s.fullReset straps { s.mode.causes with supplyLow := true } [{ kind := .supplyLow, subject := 0 }] s.sram)

/-- PIN_RESET (R190): full reset, PIN added to the causes. -/
def execPinReset (straps : BitVec 2) (s : State) : Host.Outcome State Fault Refusal :=
  .next (s.fullReset straps { s.mode.causes with pin := true } [] s.sram)

/-- RESET_END (R191): the START sequence begins with the read of the profile. -/
def execResetEnd (s : State) : Host.Outcome State Fault Refusal :=
  .next (s.endReset)

/-- PROFILE_READ_COMPLETE (R191 step 1). -/
def execProfileReadComplete (answered : Bool) (s : State) : Host.Outcome State Fault Refusal :=
  .next (s.live fun s => if s.ctrl.operation = .startProfileRead then s.profileRead answered else s)

/-- COUNTERS_BLOCK_READ (R191 step 2). -/
def execCountersBlockRead (answered : Bool) (s : State) : Host.Outcome State Fault Refusal :=
  .next (s.live fun s => if s.ctrl.operation = .startCountersRead then s.countersRead answered else s)

/-- FAULT_SLOTS_READ (R162; R191 steps 3 and 4); the controller then serves its ranks (R187). -/
def execFaultSlotsRead (answered : BitVec 32) (s : State) : Host.Outcome State Fault Refusal :=
  .next (s.live fun s => if s.ctrl.operation = .startSlotsRead then (s.loadSlots answered).takeForce.takeWork else s)

end Sys2Proof.Machine
end

