-- ==== Sys2Proof/Machine/SignalCommands.lean ====
section
/-! DEFINITION. Meanings of the events of signals and inputs (01). -/

namespace Sys2Proof.Machine

/-- STALENESS_EXPIRY (R4). -/
def execStalenessExpiry (n : Fin 256) (s : State) : Host.Outcome State Fault Refusal :=
  .next (s.live fun s => if s.due (.stalenessExpiry n) then (s.takeExpiry n).takeWork else s)

/-- LOGICAL_LEVEL_CHANGE (R10): the pin changes whether or not the device is in reset. -/
def execLogicalLevelChange (i : Fin 24) (s : State) : Host.Outcome State Fault Refusal :=
  .next ((s.changeLevel i).takeWork)

/-- DEBOUNCE_SETTLE (R10 to R12). -/
def execDebounceSettle (i : Fin 24) (s : State) : Host.Outcome State Fault Refusal :=
  .next (s.live fun s => if s.due (.debounceSettle i) then (s.settle i).takeWork else s)

/-- SPEED_RISING_EDGE (R13, R15). -/
def execSpeedRisingEdge (units : BitVec 16) (s : State) : Host.Outcome State Fault Refusal :=
  .next (s.live fun s => if s.takesUpdates then (s.speedEdge units.toNat).takeWork else s)

/-- SPEED_OVERFLOW (R14). -/
def execSpeedOverflow (s : State) : Host.Outcome State Fault Refusal :=
  .next (s.live fun s => if s.due .speedOverflow then s.speedOverflow.takeWork else s)

/-- HOLD_EXPIRY (R17). -/
def execHoldExpiry (s : State) : Host.Outcome State Fault Refusal :=
  .next (s.live fun s => if s.due .holdExpiry then (s.takeMotion .stopped none).takeWork else s)

end Sys2Proof.Machine
end

