-- ==== Sys2Proof/Machine/LineCommands.lean ====
section
/-! DEFINITION. Meanings of the events of the body lines (02). -/

namespace Sys2Proof.Machine

/-- START_EDGE (R24, R31, R33, R35, R47). -/
def execStartEdge (l : Line) (s : State) : Host.Outcome State Fault Refusal :=
  .next (s.live fun s =>
    if s.lineTakes l then s.startEdge l
    else if s.inForce && l = .front && (s.profile.lines.get 0).wake then (s.wake { front := true }).takeWork
    else s)

/-- START_BIT_SAMPLE (R24, R31, R34): a high majority is a false start. -/
def execStartBitSample (l : Line) (x : Samples) (s : State) : Host.Outcome State Fault Refusal :=
  .next (s.live fun s => if s.lineTakes l && s.rx.received l && (s.rx.lines.get l.toFin).inChar && x.majority then s.falseStart l else s)

/-- CHARACTER_COMPLETE (R24, R27 to R41): a line that is not being received takes no character (R30), and a line whose start edge was
not seen is inside none (R24). -/
def execCharacterComplete (l : Line) (c : CharSamples) (s : State) : Host.Outcome State Fault Refusal :=
  .next (s.live fun s =>
    if s.lineTakes l && s.rx.received l && (s.rx.lines.get l.toFin).inChar then
      (if c.falseStart then s.falseStart l else s.character l c).takeWork
    else s)

/-- BREAK_EVENT (R26, R32). -/
def execBreakEvent (l : Line) (s : State) : Host.Outcome State Fault Refusal :=
  .next (s.live fun s => if s.lineTakes l then s.takeBreak l else s)

/-- BROKEN_EVENT (R42). -/
def execBrokenEvent (l : Line) (s : State) : Host.Outcome State Fault Refusal :=
  .next (s.live fun s => if s.linesRun && !(s.rx.lines.get l.toFin).broken then (s.setBroken l true).takeWork else s)

/-- RETURN_EVENT (R42). -/
def execReturnEvent (l : Line) (s : State) : Host.Outcome State Fault Refusal :=
  .next (s.live fun s => if s.linesRun && (s.rx.lines.get l.toFin).broken then (s.setBroken l false).takeWork else s)

/-- GAP_EXPIRY (R31). -/
def execGapExpiry (l : Line) (s : State) : Host.Outcome State Fault Refusal :=
  .next (s.live fun s => if s.due (.gapExpiry l) then s.takeGap l else s)

/-- SILENCE_EXPIRY (R40). -/
def execSilenceExpiry (l : Line) (s : State) : Host.Outcome State Fault Refusal :=
  .next (s.live fun s => if s.due (.silenceExpiry l) then (s.takeSilence l).takeWork else s)

end Sys2Proof.Machine
end

