-- ==== Sys2Proof/Machine/DoorCommands.lean ====
section
/-! DEFINITION. Meanings of the door timers' expiries (03). -/

namespace Sys2Proof.Machine

/-- A door timer's expiry: FAULT with a cause (R57, R58). -/
def State.failDoor (s : State) (d : Fin 6) (c : DoorCause) : State :=
  (s.commitDoor d ((s.door.doors.get d).fail c)).takeWork

/-- OPEN_TIMEOUT_EXPIRY (R57). -/
def execOpenTimeoutExpiry (d : Fin 6) (s : State) : Host.Outcome State Fault Refusal :=
  .next (s.live fun s => if s.due (.openTimeoutExpiry d) then s.failDoor d .slowOpen else s)

/-- CLOSE_TIMEOUT_EXPIRY (R57). -/
def execCloseTimeoutExpiry (d : Fin 6) (s : State) : Host.Outcome State Fault Refusal :=
  .next (s.live fun s => if s.due (.closeTimeoutExpiry d) then s.failDoor d .slowClose else s)

/-- DISAGREEMENT_EXPIRY (R58). -/
def execDisagreementExpiry (d : Fin 6) (s : State) : Host.Outcome State Fault Refusal :=
  .next (s.live fun s => if s.due (.disagreementExpiry d) then s.failDoor d .disagree else s)

end Sys2Proof.Machine
end

