-- ==== Sys2Proof/Machine/WarningCommands.lean ====
section
/-! DEFINITION. Meanings of the warnings' events and of the host accesses to warning cells (04). -/

namespace Sys2Proof.Machine

/-- ON_DELAY_EXPIRY (R78, R79). -/
def execOnDelayExpiry (w : Fin 96) (s : State) : Host.Outcome State Fault Refusal :=
  .next (s.live fun s => 
    if s.due (.onDelayExpiry w) then s.commitWarning w ((s.warn.rows.get w).activate s.warn.clock) else s)

/-- OFF_DELAY_EXPIRY (R80). -/
def execOffDelayExpiry (w : Fin 96) (s : State) : Host.Outcome State Fault Refusal :=
  .next (s.live fun s => 
    if s.due (.offDelayExpiry w) then s.commitWarning w ((s.warn.rows.get w).offExpire (s.profile.warnings.get w)) else s)

/-- WARNING_CELL_READ (R83, R120). -/
def execWarningCellRead (w : Fin 96) (s : State) : Host.Outcome State Fault Refusal :=
  .next (s.live fun s => if s.portFree then s.readOffset (offWarning w) else s)

/-- ACK (R82, R84, R123). -/
def execAck (w : Fin 96) (s : State) : Host.Outcome State Fault Refusal :=
  .next (s.live fun s => s.hostWriteAt (offWarning w) Config.ackWord 0xF)

/-- SET (R76, R86, R123). -/
def execSet (w : Fin 96) (s : State) : Host.Outcome State Fault Refusal :=
  .next (s.live fun s => s.hostWriteAt (offWarning w) Config.setWord 0xF)

/-- RESET (R76, R86, R123). -/
def execReset (w : Fin 96) (s : State) : Host.Outcome State Fault Refusal :=
  .next (s.live fun s => s.hostWriteAt (offWarning w) Config.resetWord 0xF)

end Sys2Proof.Machine
end

