-- ==== Sys2Proof/Machine/IndicationCommands.lean ====
section
/-! DEFINITION. Meanings of the events of telltales, gauges and chime (05). -/

namespace Sys2Proof.Machine

/-- The blink clock's other phase, the open-load timers following (R99, R101). -/
def State.endBlinkPhase (s : State) : State :=
  match s.ind.blink with
  | .stopped => s
  | .onPhase _ => s.withLamps s.ind.lamps (.offPhase 0)
  | .offPhase _ => s.withLamps s.ind.lamps (.onPhase 0)

/-- One telltale replaced. -/
def State.setLamp (s : State) (t : Fin 48) (l : Lamp) : State :=
  s.setInd { s.ind with lamps := s.ind.lamps.set t l }

/-- A change of an open-load sense: both timers idle, and the one of the new level started while the telltale is driven (R101). -/
def State.senseChange (s : State) (t : Fin 48) (openLoad : Bool) : State :=
  let l := s.ind.lamps.get t
  let x := { l with senseOpen := openLoad }
  if l.senseOpen = openLoad then s
  else if (s.profile.lamps.get t).sensing && lampDriven s.ind.blink l then s.setLamp t x.startTimers
  else s.setLamp t x.stopTimers

/-- Fault code of an open lamp (R101). -/
def lampCode (t : Fin 48) : FaultCode := { kind := .lampOpen, subject := BitVec.ofNat 8 t.val }

/-- The open-load expiry (R101). -/
def State.openLoadExpiry (s : State) (t : Fin 48) : State :=
  let l := s.ind.lamps.get t
  let s1 := s.setLamp t { l with faultTimer := none, lampOpen := true }
  if l.lampOpen then s1 else s1.appear (lampCode t)

/-- The clear expiry (R101). -/
def State.clearExpiry (s : State) (t : Fin 48) : State :=
  let l := s.ind.lamps.get t
  let s1 := s.setLamp t { l with clearTimer := none, lampOpen := false }
  if l.lampOpen then s1.disappear (lampCode t) else s1

/-- The end of a tone: a SINGLE falls silent and the selection is evaluated again, a REPEAT begins its silence (R113). -/
def State.endTone (s : State) : State :=
  match s.ind.chime.phase with
  | .singleTone _ => (s.setChime { s.ind.chime with phase := .silent }).evalChime
  | .repeatTone ms => s.setChime { s.ind.chime with phase := .repeatSilence ms }
  | .silent => s
  | .repeatSilence _ => s
  | .steady => s

/-- The period of a REPEAT ends and a new tone begins (R113). -/
def State.endRepeatPeriod (s : State) : State :=
  match s.ind.chime.phase with
  | .repeatSilence _ => s.setChime { s.ind.chime with phase := .repeatTone 0 }
  | .silent => s
  | .singleTone _ => s
  | .repeatTone _ => s
  | .steady => s

/-- A phase of the CHIME test ends; the last completes the test (R114, R175). -/
def State.endChimePhase (s : State) : State :=
  match s.ind.chime.test with
  | none => s
  | some (.tone _) => s.setChime { s.ind.chime with test := some (.repeated 0) }
  | some (.repeated _) => s.setChime { s.ind.chime with test := some (.steady 0) }
  | some (.steady _) => s.endTest .completed

/-- BLINK_PHASE_END (R99). -/
def execBlinkPhaseEnd (s : State) : Host.Outcome State Fault Refusal :=
  .next (s.live fun s => if s.due .blinkPhaseEnd then s.endBlinkPhase else s)

/-- OPEN_LOAD_SENSE_CHANGE (R101): the sense changes whether or not the device is in reset. -/
def execOpenLoadSenseChange (t : Fin 48) (openLoad : Bool) (s : State) : Host.Outcome State Fault Refusal :=
  .next (s.senseChange t openLoad)

/-- OPEN_LOAD_EXPIRY (R101). -/
def execOpenLoadExpiry (t : Fin 48) (s : State) : Host.Outcome State Fault Refusal :=
  .next (s.live fun s => if s.due (.openLoadExpiry t) then (s.openLoadExpiry t).takeWork else s)

/-- CLEAR_EXPIRY (R101). -/
def execClearExpiry (t : Fin 48) (s : State) : Host.Outcome State Fault Refusal :=
  .next (s.live fun s => if s.due (.clearExpiry t) then (s.clearExpiry t).takeWork else s)

/-- LAMP_REQUEST_WRITE (R102, R121). -/
def execLampRequestWrite (upper : Bool) (word : Word) (s : State) : Host.Outcome State Fault Refusal :=
  .next (s.live fun s => s.hostWriteAt (if upper then 0x0684 else 0x0680) word 0xF)

/-- LAMP_CHECK_EXPIRY (R103). -/
def execLampCheckExpiry (s : State) : Host.Outcome State Fault Refusal :=
  .next (s.live fun s => if s.due .lampCheckExpiry then (s.setInd { s.ind with lampCheck := none }).evalAllLamps else s)

/-- HOMING_COMPLETION (R105, R109). -/
def execHomingCompletion (g : Fin 12) (s : State) : Host.Outcome State Fault Refusal :=
  .next (s.live fun s => if s.due (.homingCompletion g) then s.completeHoming g else s)

/-- ARRIVAL (R106, R110). -/
def execArrival (g : Fin 12) (s : State) : Host.Outcome State Fault Refusal :=
  .next (s.live fun s => if s.due (.arrival g) then (s.takeArrival g).sweepCompletion else s)

/-- HOST_GAUGE_TARGET_WRITE (R108, R122). -/
def execHostGaugeTargetWrite (g : Fin 12) (word : Word) (s : State) : Host.Outcome State Fault Refusal :=
  .next (s.live fun s => s.hostWriteAt (offGaugeTarget g) word 0xF)

/-- TONE_END (R113). -/
def execToneEnd (s : State) : Host.Outcome State Fault Refusal :=
  .next (s.live fun s => if s.due .toneEnd then s.endTone else s)

/-- REPEAT_PERIOD_EXPIRY (R113). -/
def execRepeatPeriodExpiry (s : State) : Host.Outcome State Fault Refusal :=
  .next (s.live fun s => if s.due .repeatPeriodExpiry then s.endRepeatPeriod else s)

/-- CHIME_TEST_PHASE_END (R114). -/
def execChimeTestPhaseEnd (s : State) : Host.Outcome State Fault Refusal :=
  .next (s.live fun s => if s.due .chimeTestPhaseEnd then s.endChimePhase else s)

end Sys2Proof.Machine
end

