-- ==== Sys2Proof/Machine/WindowCommands.lean ====
section
/-! DEFINITION. Meanings of the host accesses, the M-port grants and the host commands (06). -/

namespace Sys2Proof.Machine

/-- WINDOW_WRITE (R119, R124, R128): a host write of any word. -/
def execWindowWrite (wordAddr : BitVec 22) (word : Word) (lanes : BitVec 4) (s : State) : Host.Outcome State Fault Refusal :=
  .next (s.live fun s => s.hostWrite wordAddr word lanes)

/-- IMAGE_WORD_READ (R119, R120). -/
def execImageWordRead (wordAddr : BitVec 22) (s : State) : Host.Outcome State Fault Refusal :=
  .next (s.live fun s => s.hostRead wordAddr)

/-- HOST_SIGNAL_WRITE (R5, R122). -/
def execHostSignalWrite (n : Fin 256) (word : Word) (s : State) : Host.Outcome State Fault Refusal :=
  .next (s.live fun s => s.hostWriteAt (offSignal n) word 0xF)

/-- CAPTURED_WRITE_GRANT (R122, R129): the grant of a held captured write; any other held access waits on (log entry 44). -/
def execCapturedWriteGrant (s : State) : Host.Outcome State Fault Refusal :=
  .next (s.live fun s => if s.path.held.any HeldAccess.captured then s.grantHeld.takeWork else s)

/-- IMAGE_WRITE_GRANT (R126, R129). -/
def execImageWriteGrant (s : State) : Host.Outcome State Fault Refusal :=
  .next (s.live fun s => s.grantImage)

/-- IMAGE_WRITE_COMPLETE (R126 to R128): the M-port is free again, and a forwarded access that waits for it may be granted (R129). -/
def execImageWriteComplete (s : State) : Host.Outcome State Fault Refusal :=
  .next (s.live fun s => if s.path.inFlight.isSome then s.imageWritten.grantForwarded.workAndFlush else s)

/-- CLEAR_FAULTS_COMMAND (R130, R131, R160): a full write to the command cell with code 1. -/
def execClearFaultsCommand (upper : BitVec 24) (s : State) : Host.Outcome State Fault Refusal :=
  .next (s.live fun s => s.hostWriteAt offCommand (commandWord upper 1) 0xF)

/-- PROFILE_STORE (R130, R131, R192): a full write to the command cell with code 2. -/
def execProfileStore (upper : BitVec 24) (s : State) : Host.Outcome State Fault Refusal :=
  .next (s.live fun s => s.hostWriteAt offCommand (commandWord upper 2) 0xF)

/-- RESTART (R130, R131, R193): a full write to the command cell with code 3. -/
def execRestart (upper : BitVec 24) (s : State) : Host.Outcome State Fault Refusal :=
  .next (s.live fun s => s.hostWriteAt offCommand (commandWord upper 3) 0xF)

/-- CLEAR_CAUSES (R130, R131, R190): a full write to the command cell with code 4. -/
def execClearCauses (upper : BitVec 24) (s : State) : Host.Outcome State Fault Refusal :=
  .next (s.live fun s => s.hostWriteAt offCommand (commandWord upper 4) 0xF)

/-- CLEAR_STATS (R45, R130, R131): a full write to the command cell with code 5. -/
def execClearStats (upper : BitVec 24) (s : State) : Host.Outcome State Fault Refusal :=
  .next (s.live fun s => s.hostWriteAt offCommand (commandWord upper 5) 0xF)

/-- PARK_NOW (R130, R131, R180): a full write to the command cell with code 6. -/
def execParkNow (upper : BitVec 24) (s : State) : Host.Outcome State Fault Refusal :=
  .next (s.live fun s => s.hostWriteAt offCommand (commandWord upper 6) 0xF)

/-- ATTENTION_SUMMARY_READ (R133). -/
def execAttentionSummaryRead (s : State) : Host.Outcome State Fault Refusal :=
  .next (s.live fun s => if s.portFree then s.readOffset offSummary else s)

/-- ATTENTION_ENABLE_WRITE (R121, R134). -/
def execAttentionEnableWrite (word : Word) (s : State) : Host.Outcome State Fault Refusal :=
  .next (s.live fun s => s.hostWriteAt offEnable word 0xF)

end Sys2Proof.Machine
end

