-- ==== Sys2Proof/Machine/SupervisionCommands.lean ====
section
/-! DEFINITION. Meanings of the alive write and of the supervision timers' expiries (07). -/

namespace Sys2Proof.Machine

/-- An entry into LOST at an expiry (R140 to R144). Whether it pulses HRST is decided by the profile in force, in a GRACE expiry while a
profile restart's images are written by the new one: log entry 38. -/
def State.enterLost (s : State) : State := (s.commitSup (s.sup.lose s.profile.hrst)).takeWork

/-- HOST_ALIVE_WRITE (R121, R139 to R142). -/
def execHostAliveWrite (word : Word) (s : State) : Host.Outcome State Fault Refusal :=
  .next (s.live fun s => s.hostWriteAt offAlive word 0xF)

/-- GRACE_EXPIRY (R140, R142). -/
def execGraceExpiry (s : State) : Host.Outcome State Fault Refusal :=
  .next (s.live fun s => if s.due .graceExpiry then s.enterLost else s)

/-- TIMEOUT_EXPIRY (R141, R142). -/
def execTimeoutExpiry (s : State) : Host.Outcome State Fault Refusal :=
  .next (s.live fun s => if s.due .timeoutExpiry then s.enterLost else s)

/-- TIMEOUT_EXPIRY_IN_LOST (R142). -/
def execTimeoutExpiryInLost (s : State) : Host.Outcome State Fault Refusal :=
  .next (s.live fun s =>
    if s.due .timeoutExpiryInLost then s.setSup { s.sup with reference := none, run := 0, timer := none } else s)

/-- PULSE_END (R144). -/
def execPulseEnd (s : State) : Host.Outcome State Fault Refusal :=
  .next (s.live fun s => if s.due .pulseEnd then s.setSup { s.sup with pulse := none } else s)

end Sys2Proof.Machine
end

