-- ==== Sys2Proof/Machine/FaultCommands.lean ====
section
/-! DEFINITION. Meanings of the confirm expiry and of the configuration memory's completions (08, 11). -/

namespace Sys2Proof.Machine

/-- CONFIRM_EXPIRY (R149); the confirm timers stand in PARKED (R164). -/
def execConfirmExpiry (slot : Fin 32) (s : State) : Host.Outcome State Fault Refusal :=
  .next (s.live fun s => if s.due (.confirmExpiry slot) then (s.confirmSlot slot).takeWork else s)

/-- FAULT_SLOT_WRITE_COMPLETE (R159, R161, R183). -/
def execFaultSlotWriteComplete (o : PageOutcome) (s : State) : Host.Outcome State Fault Refusal :=
  .next (s.live fun s =>
    match s.ctrl.operation with
    | .slotWrite i snapshot retried counts => (s.slotWriteDone i snapshot retried counts o).workAndFlush
    | .none | .startProfileRead | .startCountersRead | .startSlotsRead | .restartRead | .countersWrite _ _
    | .storeRead _ _ _ | .storeWrite _ _ _ _ _ | .storeAbort _ => s)

/-- COUNTERS_WRITE_COMPLETE (R183, R188). -/
def execCountersWriteComplete (o : PageOutcome) (s : State) : Host.Outcome State Fault Refusal :=
  .next (s.live fun s =>
    match s.ctrl.operation with
    | .countersWrite snapshot retried => (s.countersWriteDone snapshot retried o).workAndFlush
    | .none | .startProfileRead | .startCountersRead | .startSlotsRead | .restartRead | .slotWrite _ _ _ _
    | .storeRead _ _ _ | .storeWrite _ _ _ _ _ | .storeAbort _ => s)

/-- PROFILE_STORE_VALIDATION (R189, R192 stage 1): the staging image is read at the arbiter's lowest rank, so the validation does not
complete while another access uses or requests the M-port (R129). -/
def execProfileStoreValidation (s : State) : Host.Outcome State Fault Refusal :=
  .next (s.live fun s => if s.ctrl.store = .validating && s.readerGranted then s.validateStore.workAndFlush else s)

/-- PROFILE_PAGE_WRITE_COMPLETE (R192 stages 3 and 4). -/
def execProfilePageWriteComplete (o : PageOutcome) (s : State) : Host.Outcome State Fault Refusal :=
  .next (s.live fun s =>
    match s.ctrl.operation with
    | .storeWrite p n k snapshot retried => (s.storeWriteDone p n k snapshot retried o).workAndFlush
    | .storeAbort snapshot => (s.writePage 0 (writtenBytes snapshot o)).abortStore.workAndFlush
    | .none | .startProfileRead | .startCountersRead | .startSlotsRead | .restartRead | .slotWrite _ _ _ _
    | .countersWrite _ _ | .storeRead _ _ _ => s)

/-- RESTART_READ_COMPLETE (R193). -/
def execRestartReadComplete (answered : Bool) (s : State) : Host.Outcome State Fault Refusal :=
  .next (s.live fun s => if s.ctrl.operation = .restartRead then (s.restartReadDone answered).workAndFlush else s)

end Sys2Proof.Machine
end

