-- ==== Sys2Proof/Machine/ServiceCommands.lean ====
section
/-! DEFINITION. Meanings of the service line's events and requests (09). -/

namespace Sys2Proof.Machine

/-- SERVICE_START_EDGE (R166, R167, R178). -/
def execServiceStartEdge (s : State) : Host.Outcome State Fault Refusal :=
  .next (s.live fun s => s.serviceEdge.takeWork)

/-- SERVICE_CHARACTER (R165, R166). -/
def execServiceCharacter (c : ServiceChar) (s : State) : Host.Outcome State Fault Refusal :=
  .next (s.live fun s => s.serviceCharacter c)

/-- QUIET_EXPIRY (R165). -/
def execQuietExpiry (s : State) : Host.Outcome State Fault Refusal :=
  .next (s.live fun s => if s.due .quietExpiry then s.setSvc s.svc.idle else s)

/-- SERVICE_GAP_EXPIRY (R166). -/
def execServiceGapExpiry (s : State) : Host.Outcome State Fault Refusal :=
  .next (s.live fun s => if s.due .serviceGapExpiry then s.setSvc s.svc.idle else s)

/-- IDENTIFY (R169, R171). -/
def execIdentify (target : Target) (tester : Byte) (params : List Byte) (s : State) : Host.Outcome State Fault Refusal :=
  .next (s.live fun s => s.requestFrame .identify target tester params)

/-- READ_FAULTS (R169, R172). -/
def execReadFaults (target : Target) (tester : Byte) (params : List Byte) (s : State) : Host.Outcome State Fault Refusal :=
  .next (s.live fun s => s.requestFrame .readFaults target tester params)

/-- READ_FREEZE (R169, R172). -/
def execReadFreeze (target : Target) (tester : Byte) (params : List Byte) (s : State) : Host.Outcome State Fault Refusal :=
  .next (s.live fun s => s.requestFrame .readFreeze target tester params)

/-- CLEAR_FAULTS_REQUEST (R160, R169, R173). -/
def execClearFaultsRequest (target : Target) (tester : Byte) (params : List Byte) (s : State) : Host.Outcome State Fault Refusal :=
  .next (s.live fun s => s.requestFrame .clearFaults target tester params)

/-- READ_SIGNALS (R169, R171). -/
def execReadSignals (target : Target) (tester : Byte) (params : List Byte) (s : State) : Host.Outcome State Fault Refusal :=
  .next (s.live fun s => s.requestFrame .readSignals target tester params)

/-- READ_DOORS (R169, R171). -/
def execReadDoors (target : Target) (tester : Byte) (params : List Byte) (s : State) : Host.Outcome State Fault Refusal :=
  .next (s.live fun s => s.requestFrame .readDoors target tester params)

/-- READ_LINES (R169, R171). -/
def execReadLines (target : Target) (tester : Byte) (params : List Byte) (s : State) : Host.Outcome State Fault Refusal :=
  .next (s.live fun s => s.requestFrame .readLines target tester params)

/-- OUTPUT_TEST (R169, R175). -/
def execOutputTest (target : Target) (tester : Byte) (params : List Byte) (s : State) : Host.Outcome State Fault Refusal :=
  .next (s.live fun s => s.requestFrame .outputTest target tester params)

/-- STOP_TEST (R169, R176). -/
def execStopTest (target : Target) (tester : Byte) (params : List Byte) (s : State) : Host.Outcome State Fault Refusal :=
  .next (s.live fun s => s.requestFrame .stopTest target tester params)

/-- WORKSHOP_STATUS (R169, R171). -/
def execWorkshopStatus (target : Target) (tester : Byte) (params : List Byte) (s : State) : Host.Outcome State Fault Refusal :=
  .next (s.live fun s => s.requestFrame .workshopStatus target tester params)

/-- REPLY_TURNAROUND (R167). -/
def execReplyTurnaround (s : State) : Host.Outcome State Fault Refusal :=
  .next (s.live fun s => if s.due .replyTurnaround then s.beginTransmission else s)

/-- RESPONSE_CHARACTER (R167, R168). -/
def execResponseCharacter (c : ServiceChar) (s : State) : Host.Outcome State Fault Refusal :=
  .next (s.live fun s => s.readBack c)

/-- TESTER_ACTIVE_EXPIRY (R170). -/
def execTesterActiveExpiry (s : State) : Host.Outcome State Fault Refusal :=
  .next (s.live fun s => if s.due .testerActiveExpiry then s.testerExpiry else s)

/-- LAMP_TEST_TIMER_EXPIRY (R175, R177). -/
def execLampTestTimerExpiry (s : State) : Host.Outcome State Fault Refusal :=
  .next (s.live fun s => if s.due .lampTestTimerExpiry then s.endTest .completed else s)

end Sys2Proof.Machine
end

