-- ==== Sys2Proof/Machine/ModeCommands.lean ====
section
/-! DEFINITION. Meaning of the ignition-off expiry (10). -/

namespace Sys2Proof.Machine

/-- IGNITION_OFF_EXPIRY (R180, R182). -/
def execIgnitionOffExpiry (s : State) : Host.Outcome State Fault Refusal :=
  .next (s.live fun s => if s.due .ignitionOffExpiry then s.enterParking.takeWork else s)

end Sys2Proof.Machine
end

