-- ==== Sys2Proof/Machine/Dispatch.lean ====
section
/-! DEFINITION. exec: one arm per command, each one call of its meaning. -/

namespace Sys2Proof.Machine

/-- The effect of a command on everything but the queue. -/
def exec (i : Instr) (s : State) : Host.Outcome State Fault Refusal :=
  match i with
  | .powerOnReset straps => Sys2Proof.Machine.execPowerOnReset straps s
  | .supplyLowReset straps => Sys2Proof.Machine.execSupplyLowReset straps s
  | .pinReset straps => Sys2Proof.Machine.execPinReset straps s
  | .resetEnd => Sys2Proof.Machine.execResetEnd s
  | .profileReadComplete answered => Sys2Proof.Machine.execProfileReadComplete answered s
  | .countersBlockRead answered => Sys2Proof.Machine.execCountersBlockRead answered s
  | .faultSlotsRead answered => Sys2Proof.Machine.execFaultSlotsRead answered s
  | .stalenessExpiry n => Sys2Proof.Machine.execStalenessExpiry n s
  | .logicalLevelChange k => Sys2Proof.Machine.execLogicalLevelChange k s
  | .debounceSettle k => Sys2Proof.Machine.execDebounceSettle k s
  | .speedRisingEdge units => Sys2Proof.Machine.execSpeedRisingEdge units s
  | .speedOverflow => Sys2Proof.Machine.execSpeedOverflow s
  | .holdExpiry => Sys2Proof.Machine.execHoldExpiry s
  | .startEdge l => Sys2Proof.Machine.execStartEdge l s
  | .startBitSample l x => Sys2Proof.Machine.execStartBitSample l x s
  | .characterComplete l c => Sys2Proof.Machine.execCharacterComplete l c s
  | .breakEvent l => Sys2Proof.Machine.execBreakEvent l s
  | .brokenEvent l => Sys2Proof.Machine.execBrokenEvent l s
  | .returnEvent l => Sys2Proof.Machine.execReturnEvent l s
  | .gapExpiry l => Sys2Proof.Machine.execGapExpiry l s
  | .silenceExpiry l => Sys2Proof.Machine.execSilenceExpiry l s
  | .openTimeoutExpiry d => Sys2Proof.Machine.execOpenTimeoutExpiry d s
  | .closeTimeoutExpiry d => Sys2Proof.Machine.execCloseTimeoutExpiry d s
  | .disagreementExpiry d => Sys2Proof.Machine.execDisagreementExpiry d s
  | .onDelayExpiry w => Sys2Proof.Machine.execOnDelayExpiry w s
  | .offDelayExpiry w => Sys2Proof.Machine.execOffDelayExpiry w s
  | .warningCellRead w => Sys2Proof.Machine.execWarningCellRead w s
  | .ack w => Sys2Proof.Machine.execAck w s
  | .set w => Sys2Proof.Machine.execSet w s
  | .reset w => Sys2Proof.Machine.execReset w s
  | .blinkPhaseEnd => Sys2Proof.Machine.execBlinkPhaseEnd s
  | .openLoadSenseChange t openLoad => Sys2Proof.Machine.execOpenLoadSenseChange t openLoad s
  | .openLoadExpiry t => Sys2Proof.Machine.execOpenLoadExpiry t s
  | .clearExpiry t => Sys2Proof.Machine.execClearExpiry t s
  | .lampRequestWrite upper word => Sys2Proof.Machine.execLampRequestWrite upper word s
  | .lampCheckExpiry => Sys2Proof.Machine.execLampCheckExpiry s
  | .homingCompletion g => Sys2Proof.Machine.execHomingCompletion g s
  | .arrival g => Sys2Proof.Machine.execArrival g s
  | .hostGaugeTargetWrite g word => Sys2Proof.Machine.execHostGaugeTargetWrite g word s
  | .toneEnd => Sys2Proof.Machine.execToneEnd s
  | .repeatPeriodExpiry => Sys2Proof.Machine.execRepeatPeriodExpiry s
  | .chimeTestPhaseEnd => Sys2Proof.Machine.execChimeTestPhaseEnd s
  | .windowWrite wordAddr word lanes => Sys2Proof.Machine.execWindowWrite wordAddr word lanes s
  | .imageWordRead wordAddr => Sys2Proof.Machine.execImageWordRead wordAddr s
  | .hostSignalWrite n word => Sys2Proof.Machine.execHostSignalWrite n word s
  | .capturedWriteGrant => Sys2Proof.Machine.execCapturedWriteGrant s
  | .imageWriteGrant => Sys2Proof.Machine.execImageWriteGrant s
  | .imageWriteComplete => Sys2Proof.Machine.execImageWriteComplete s
  | .clearFaultsCommand upper => Sys2Proof.Machine.execClearFaultsCommand upper s
  | .profileStore upper => Sys2Proof.Machine.execProfileStore upper s
  | .restart upper => Sys2Proof.Machine.execRestart upper s
  | .clearCauses upper => Sys2Proof.Machine.execClearCauses upper s
  | .clearStats upper => Sys2Proof.Machine.execClearStats upper s
  | .parkNow upper => Sys2Proof.Machine.execParkNow upper s
  | .attentionSummaryRead => Sys2Proof.Machine.execAttentionSummaryRead s
  | .attentionEnableWrite word => Sys2Proof.Machine.execAttentionEnableWrite word s
  | .hostAliveWrite word => Sys2Proof.Machine.execHostAliveWrite word s
  | .graceExpiry => Sys2Proof.Machine.execGraceExpiry s
  | .timeoutExpiry => Sys2Proof.Machine.execTimeoutExpiry s
  | .timeoutExpiryInLost => Sys2Proof.Machine.execTimeoutExpiryInLost s
  | .pulseEnd => Sys2Proof.Machine.execPulseEnd s
  | .confirmExpiry slot => Sys2Proof.Machine.execConfirmExpiry slot s
  | .faultSlotWriteComplete o => Sys2Proof.Machine.execFaultSlotWriteComplete o s
  | .countersWriteComplete o => Sys2Proof.Machine.execCountersWriteComplete o s
  | .profileStoreValidation => Sys2Proof.Machine.execProfileStoreValidation s
  | .profilePageWriteComplete o => Sys2Proof.Machine.execProfilePageWriteComplete o s
  | .restartReadComplete answered => Sys2Proof.Machine.execRestartReadComplete answered s
  | .serviceStartEdge => Sys2Proof.Machine.execServiceStartEdge s
  | .serviceCharacter c => Sys2Proof.Machine.execServiceCharacter c s
  | .quietExpiry => Sys2Proof.Machine.execQuietExpiry s
  | .serviceGapExpiry => Sys2Proof.Machine.execServiceGapExpiry s
  | .identify target tester params => Sys2Proof.Machine.execIdentify target tester params s
  | .readFaults target tester params => Sys2Proof.Machine.execReadFaults target tester params s
  | .readFreeze target tester params => Sys2Proof.Machine.execReadFreeze target tester params s
  | .clearFaultsRequest target tester params => Sys2Proof.Machine.execClearFaultsRequest target tester params s
  | .readSignals target tester params => Sys2Proof.Machine.execReadSignals target tester params s
  | .readDoors target tester params => Sys2Proof.Machine.execReadDoors target tester params s
  | .readLines target tester params => Sys2Proof.Machine.execReadLines target tester params s
  | .outputTest target tester params => Sys2Proof.Machine.execOutputTest target tester params s
  | .stopTest target tester params => Sys2Proof.Machine.execStopTest target tester params s
  | .workshopStatus target tester params => Sys2Proof.Machine.execWorkshopStatus target tester params s
  | .replyTurnaround => Sys2Proof.Machine.execReplyTurnaround s
  | .responseCharacter c => Sys2Proof.Machine.execResponseCharacter c s
  | .testerActiveExpiry => Sys2Proof.Machine.execTesterActiveExpiry s
  | .lampTestTimerExpiry => Sys2Proof.Machine.execLampTestTimerExpiry s
  | .ignitionOffExpiry => Sys2Proof.Machine.execIgnitionOffExpiry s

end Sys2Proof.Machine
end

