-- ==== Sys2Proof/Safety.lean ====
section
/-! DEFINITION. What the statements about this machine are made of: the parts of the state one by one, so that a statement can
say what a command leaves as it was, and the invariant that every step keeps. -/

namespace Sys2Proof.Machine

/-! ## Parts of the state -/

/-- The parts of the state, cut so that every register, queue, counter and memory of the spec lies in exactly one. -/
inductive Part where
  | pending | profile | profStatus | loadBuffer
  | entries | motion | inputs | speed
  | lines | shared | slots
  | doors
  | warnings | chimed | clock | ackLevel | voidAcks
  | lamps | requests | lampCheck | gauges | chime
  | straps | window | queue | inFlight | awaited | held | readData | command | result | violations | overruns
  | attnPending | attnEnable
  | supervision
  | present | records | fullness | clear | writeQueue | loading
  | service | wakeChar | tester | level | test
  | opMode | inReset | cycle | ignition | wake | causes
  | operation | countersPending | store | restartWaiting | torn
  | sram | cfg
deriving DecidableEq, Repr

/-- Two states agree in a part. -/
def Part.Same (s t : State) : Part → Prop
  | .pending => t.pending = s.pending
  | .profile => t.profile = s.profile
  | .profStatus => t.profStatus = s.profStatus
  | .loadBuffer => t.loadBuffer = s.loadBuffer
  | .entries => t.sig.entries = s.sig.entries
  | .motion => t.sig.motion = s.sig.motion ∧ t.sig.hold = s.sig.hold
  | .inputs => t.inp.inputs = s.inp.inputs
  | .speed => t.inp.timing = s.inp.timing ∧ t.inp.running = s.inp.running ∧ t.inp.count = s.inp.count ∧ t.inp.edgeAt = s.inp.edgeAt
  | .lines => t.rx.lines = s.rx.lines
  | .shared => t.rx.owner = s.rx.owner ∧ t.rx.collision = s.rx.collision ∧ t.rx.firstChar = s.rx.firstChar
  | .slots => t.rx.slots = s.rx.slots
  | .doors => t.door = s.door
  | .warnings => ∀ w, { t.warn.rows.get w with chimed := false } = { s.warn.rows.get w with chimed := false }
  | .chimed => ∀ w, (t.warn.rows.get w).chimed = (s.warn.rows.get w).chimed
  | .clock => t.warn.clock = s.warn.clock
  | .ackLevel => t.warn.ackLevel = s.warn.ackLevel
  | .voidAcks => t.warn.voidAcks = s.warn.voidAcks
  | .lamps => t.ind.lamps = s.ind.lamps ∧ t.ind.blink = s.ind.blink
  | .requests => t.ind.requestLow = s.ind.requestLow ∧ t.ind.requestHigh = s.ind.requestHigh
  | .lampCheck => t.ind.lampCheck = s.ind.lampCheck
  | .gauges => t.ind.gauges = s.ind.gauges
  | .chime => t.ind.chime = s.ind.chime
  | .straps => t.path.straps = s.path.straps
  | .window => t.path.windowOpen = s.path.windowOpen
  | .queue => t.path.queue = s.path.queue ∧ t.path.resync = s.path.resync ∧ t.path.urgent = s.path.urgent
  | .inFlight => t.path.inFlight = s.path.inFlight
  | .awaited => t.path.awaited = s.path.awaited
  | .held => t.path.held = s.path.held
  | .readData => t.path.readData = s.path.readData
  | .command => t.path.command = s.path.command
  | .result => t.path.result = s.path.result
  | .violations => t.path.violations = s.path.violations
  | .overruns => t.path.overruns = s.path.overruns
  | .attnPending => t.path.attnPending = s.path.attnPending
  | .attnEnable => t.path.attnEnable = s.path.attnEnable
  | .supervision => t.sup = s.sup
  | .present => t.fm.present = s.fm.present
  | .records => t.fm.records = s.fm.records
  | .fullness => t.fm.overflow = s.fm.overflow ∧ t.fm.full = s.fm.full
  | .clear => t.fm.clearing = s.fm.clearing ∧ t.fm.outstanding = s.fm.outstanding ∧ t.fm.requester = s.fm.requester
  | .writeQueue => t.fm.writeQueue = s.fm.writeQueue
  | .loading => t.fm.loaded = s.fm.loaded ∧ t.fm.heldReports = s.fm.heldReports
  | .service =>
    t.svc.line = s.svc.line ∧ t.svc.received = s.svc.received ∧ t.svc.gap = s.svc.gap ∧
      t.svc.response = s.svc.response ∧ t.svc.sent = s.svc.sent ∧ t.svc.transmitting = s.svc.transmitting ∧
      t.svc.turnaround = s.svc.turnaround ∧ t.svc.address = s.svc.address ∧ t.svc.echoLosses = s.svc.echoLosses ∧
      t.svc.freeUses = s.svc.freeUses
  | .tester => t.svc.testerActive = s.svc.testerActive ∧ t.svc.testerTimer = s.svc.testerTimer
  | .level =>
    t.svc.switchOn = s.svc.switchOn ∧ t.svc.standing = s.svc.standing ∧ t.svc.brakeOn = s.svc.brakeOn ∧
      t.svc.level = s.svc.level
  | .test =>
    t.svc.test = s.svc.test ∧ t.svc.testDuration = s.svc.testDuration ∧ t.svc.testTimer = s.svc.testTimer ∧
      t.svc.lastOutcome = s.svc.lastOutcome
  | .opMode => t.mode.mode = s.mode.mode
  | .inReset => t.mode.inReset = s.mode.inReset
  | .cycle => t.mode.cycleOpen = s.mode.cycleOpen ∧ t.mode.cycle = s.mode.cycle ∧ t.mode.time = s.mode.time
  | .ignition => t.mode.ignition = s.mode.ignition ∧ t.mode.offTimer = s.mode.offTimer
  | .wake => t.mode.wakePending = s.mode.wakePending ∧ t.mode.wakeCause = s.mode.wakeCause
  | .wakeChar => t.svc.wakeChar = s.svc.wakeChar
  | .causes => t.mode.causes = s.mode.causes
  | .operation => t.ctrl.operation = s.ctrl.operation
  | .countersPending => t.ctrl.countersPending = s.ctrl.countersPending
  | .store => t.ctrl.store = s.ctrl.store
  | .restartWaiting => t.ctrl.restartWaiting = s.ctrl.restartWaiting
  | .torn => t.ctrl.torn = s.ctrl.torn
  | .sram => t.sram = s.sram
  | .cfg => t.cfg = s.cfg

/-- Everything but the parts of `l` is as it was. -/
def KeepsBut (l : List Part) (s t : State) : Prop := ∀ p, p ∉ l → p.Same s t

/-- What images of changed cells touch: the update queue and the resync set, and the cause UPDATE_OVERFLOW (R125). -/
def Part.images : List Part := [.queue, .attnPending]

/-- What an evaluation of warnings hands on, down to telltales, gauges, chime and the end of a running test (R89, R177). -/
def Part.evaluation : List Part := Part.images ++ [.warnings, .chimed, .lamps, .gauges, .chime, .test]

/-- What a report of the fault memory hands on (R156). -/
def Part.faults : List Part := Part.evaluation ++ [.present, .records, .fullness, .writeQueue]

/-- What a handed change of a signal may reach: its readers of R7, but neither the signal table nor the lines nor a memory. -/
def Part.readers : List Part :=
  Part.faults ++ [.motion, .doors, .clock, .ackLevel, .level, .lampCheck, .opMode, .cycle, .ignition, .wake, .countersPending]

/-- The parts that the end of an output test may change. -/
def Part.testEnd : List Part := Part.images ++ [.test, .lamps, .gauges, .chime, .chimed]

/-- The parts that a change of the motion state may reach (R18). -/
def Part.motionChange : List Part := Part.evaluation ++ [.motion, .level]

/-- The parts that the ignition judged anew may reach (R180 to R182). -/
def Part.ignitionJudged : List Part :=
  Part.faults ++ [.clock, .lampCheck, .opMode, .cycle, .ignition, .wake, .countersPending]

/-- The parts that a wake resume may reach (R185): everything that a mode may change, but no memory, no count and no access. -/
def Part.resumed : List Part := Part.readers ++ [.entries, .inputs, .speed, .lines, .shared, .supervision]

/-- The parts that an entry into PARKED may change (R184). -/
def Part.parkedEntry : List Part :=
  Part.images ++ [.opMode, .ignition, .cycle, .wake, .motion, .speed, .lines, .shared, .doors, .supervision, .service, .wakeChar,
    .tester, .test]

/-- The parts that the flush completion may change (R183). -/
def Part.flushed : List Part := Part.readers ++ [.speed, .lines, .shared, .supervision, .service, .wakeChar, .tester]

/-- The parts that an update of the signal table may reach. -/
def Part.update : List Part := .entries :: Part.readers

/-- The parts that an input's event may reach. -/
def Part.inputEvent : List Part := Part.update ++ [.inputs, .speed, .lines, .shared, .supervision]

/-- The parts that a line's event may change when no frame is accepted. -/
def Part.lineEvent : List Part := Part.faults ++ [.lines, .shared, .slots]

/-- The parts that an accepted frame may reach. -/
def Part.accepted : List Part := Part.update ++ [.lines, .shared, .slots]

/-- The parts that the free controller changes when it takes its next work (R187). -/
def Part.work : List Part := [.operation, .store, .restartWaiting, .countersPending, .writeQueue]

/-- The parts that the end of a controller operation may reach, the flush completion among them (R183). -/
def Part.workFlushed : List Part := Part.flushed ++ Part.work

/-- The parts that the end of a slot's write may reach. -/
def Part.slotDone : List Part := Part.images ++ [.operation, .clear, .command, .result]

/-- The parts that a completed page write may reach. -/
def Part.pageDone : List Part := Part.slotDone ++ Part.faults ++ [.cfg, .torn, .loading]

/-- The parts that the coming into force of a profile, or of the no-profile state, may change (R191 step 4). -/
def Part.force : List Part :=
  Part.images ++ [.awaited, .profile, .profStatus, .inputs, .speed, .lines, .shared, .slots, .doors, .lamps]

/-- The parts that a profile restart may change (R194). -/
def Part.restart : List Part :=
  Part.readers ++ [.window, .awaited, .profile, .profStatus, .loadBuffer, .entries, .inputs, .speed, .lines, .shared, .slots,
    .chime, .supervision]

/-- The parts that the end of a restart may change. -/
def Part.restartEnd : List Part := Part.readers ++ [.supervision, .service, .command, .result]

/-- The parts that the end of image initialisation may change (R128). -/
def Part.imagesEnd : List Part := Part.restartEnd ++ [.window, .awaited]

/-- The parts that a page of a store, or the RESTART read, may reach. -/
def Part.storeDone : List Part :=
  Part.restart ++ [.operation, .store, .command, .result, .cfg, .torn, .loading]

/-- The parts that a host read may change: the returned word or the held access, an armed flag, and the causes a summary read
removes. -/
def Part.hostRead : List Part := [.readData, .held, .warnings, .attnPending]

/-- The parts that the grant of a held forwarded access may change (R129). -/
def Part.forwarded : List Part := [.held, .readData, .sram]

/-- The parts that a full write to a warning cell may change. -/
def Part.warningWrite : List Part := .voidAcks :: .violations :: Part.evaluation

/-- The parts that a command may reach when it is taken. -/
def Part.commandBegun : List Part :=
  Part.readers ++ [.command, .result, .overruns, .sram, .held, .clear, .operation, .store, .restartWaiting, .causes, .lines, .slots]

/-- The parts that a host write may reach. -/
def Part.hostWrite : List Part :=
  Part.commandBegun ++ [.requests, .attnEnable, .supervision, .voidAcks, .violations]

/-- The parts that the grant of a captured write may reach (R122). -/
def Part.granted : List Part := Part.update ++ [.held, .violations, .sram, .awaited]

/-- The parts that a request may change by what it asks (R173, R175, R176). -/
def Part.requested : List Part := Part.faults ++ [.clear, .operation, .store, .restartWaiting, .countersPending]

/-- The parts that the service line may reach while the device is awake. -/
def Part.serviced : List Part := Part.requested ++ [.service, .wakeChar, .tester]

/-- The parts that a start edge of the service line may reach: in PARKED it wakes the device. -/
def Part.serviceEdge : List Part := Part.resumed ++ [.service, .wakeChar]

/-- The byte enables of a word write select the byte `k` places above its address. -/
def laneAt (lanes : BitVec 4) (a x : Nat) : Bool := a ≤ x && x < a + 4 && lanes.getLsbD (x - a)

/-- Memory `m'` is memory `m` with the enabled lanes of a little-endian word stored at `a`; every other byte reads as before. -/
def StoresWord (d : Byte) (m m' : List Host.Cell) (a : Nat) (w : Word) (lanes : BitVec 4) : Prop :=
  ∀ x, readByte d m' x = if laneAt lanes a x then (w >>> (8 * (x - a))).setWidth 8 else readByte d m x

/-- Memory `m'` is configuration memory `m` with the 64 bytes of a page replaced by `bytes`; every other byte reads as before. -/
def StoresPage (m m' : List Host.Cell) (page : Nat) (bytes : List Byte) : Prop :=
  ∀ a, readByte Config.cfgErased m' a =
    if 64 * page ≤ a ∧ a < 64 * page + 64 then bytes.getD (a - 64 * page) 0 else readByte Config.cfgErased m a

/-- The device's reset cause no longer lasts (R190). -/
abbrev State.running (s : State) : Prop := s.mode.inReset = false

/-- The M-port is free for host forwarding: no image write is in flight, and the urgent flag puts no queued word first (R129). -/
abbrev State.granted (s : State) : Prop := s.path.inFlight = none ∧ (s.path.urgent = true → s.path.queue = [])

/-- A forwarded host write taken between `s` and `t`, with the M-port as it stands in `g`: granted it is stored, otherwise it waits at
the P-port and SRAM is as it was (R119, R121, R129, log entry 11). -/
def Forwards (g s t : State) (a : Nat) (w : Word) (lanes : BitVec 4) : Prop :=
  if g.granted then StoresWord Config.sramErased s.sram t.sram a w lanes ∧ t.path.held = s.path.held
  else t.sram = s.sram ∧ t.path.held = some (.forwarded (.write a w lanes))

/-- A forwarded host read of the word `w` taken in `s`: granted it is answered, otherwise it waits at the P-port with the word that it
returns (R119, R120, R129, log entry 11). -/
def Returns (s t : State) (w : Word) : Prop :=
  if s.granted then t.path.readData = w ∧ t.path.held = s.path.held
  else t.path.readData = s.path.readData ∧ t.path.held = some (.forwarded (.read w))

/-- A host read of the image word at `off`, whose latest word is `w`: answered at once from queue or live state, otherwise forwarded
(R120). -/
def ReadsImage (s t : State) (off : Nat) (w : Word) : Prop :=
  if off ∈ s.path.queue.map Prod.fst ++ s.path.resync then t.path.readData = w ∧ t.path.held = s.path.held
  else Returns s t w

/-- A forwarded access that waited in `s` is carried out when the M-port is free for it in `t`, and waits on otherwise; no other access
is touched (R129). -/
structure WaitingServed (s t : State) : Prop where
  read : ∀ w, s.path.held = some (.forwarded (.read w)) → t.granted →
    t.path.held = none ∧ t.path.readData = w ∧ t.sram = s.sram
  write : ∀ a w lanes, s.path.held = some (.forwarded (.write a w lanes)) → t.granted →
    t.path.held = none ∧ t.path.readData = s.path.readData ∧ StoresWord Config.sramErased s.sram t.sram a w lanes
  waits : ¬ t.granted ∨ (∀ x, s.path.held ≠ some (.forwarded x)) →
    t.path.held = s.path.held ∧ t.path.readData = s.path.readData ∧ t.sram = s.sram

/-- The device runs, the P-port takes the next host access, and the window is open (R119, R128). -/
abbrev State.hostReady (s : State) : Prop := s.running ∧ s.portFree = true ∧ s.path.windowOpen = true

/-! ## The invariant -/

/-- The update queue holds at most 32 entries, and no offset stands twice in queue and resync set together (R125, R127). -/
def MemoryPath.Inv (p : MemoryPath) : Prop :=
  p.queue.length ≤ Config.queueMax ∧ (p.queue.map Prod.fst ++ p.resync).Nodup

/-- The delay timer runs for a purpose. -/
def Warning.delaying (k : DelayKind) (w : Warning) : Bool := w.timer.any (fun t => t.1 = k)

/-- The states that a warning's flags and delay timer allow (R78 to R84). -/
def Warning.Inv (w : Warning) : Prop :=
  match w.state with
  | .inactive => w.timer = none ∧ w.latched = false ∧ w.armed = false
  | .pending => w.present = true ∧ w.delaying .onDelay = true ∧ w.latched = false ∧ w.armed = false
  | .activeUnack =>
    w.delaying .onDelay = false ∧ (w.present = true → w.timer = none) ∧
      (w.latched = true → w.present = false ∧ w.timer = none)
  | .activeAck => w.delaying .onDelay = false ∧ (w.present = true → w.timer = none) ∧ w.latched = false ∧ w.armed = false

/-- The open count is the number of doors that count open (R63). -/
def DoorUnit.Inv (u : DoorUnit) : Prop := u.openCount = (u.doors.indices Door.countsOpen).length

/-- The present set holds at most 64 codes, none twice, and the write queue no slot twice (R148, R158). -/
def FaultMemory.Inv (fm : FaultMemory) : Prop :=
  fm.present.length ≤ Config.presentMax ∧ fm.present.Nodup ∧ fm.writeQueue.Nodup

/-- What every step keeps. -/
structure State.Inv (s : State) : Prop where
  path : s.path.Inv
  warnings : ∀ w, (s.warn.rows.get w).Inv
  doors : s.door.Inv
  faults : s.fm.Inv
  sram : Memory.wf Config.sramErased s.sram = true
  cfg : Memory.wf Config.cfgErased s.cfg = true

/-! ## The window tells what the part holds (R120) -/

/-- A host read of an image word finds the word that the owners' state composes, from the moment image initialisation has begun;
and what that rests on: queue and resync set hold image words only, a write in flight is in SRAM, a host write that waits for the
M-port goes to no image word, and no read of the START sequence is in progress beside an open window or a running image
initialisation. -/
structure State.Coherent (s : State) : Prop where
  places : ∀ o ∈ s.path.queue.map Prod.fst ++ s.path.resync, isImageOffset o = true
  written : ∀ e, s.path.inFlight = some e → isImageOffset e.1 = true ∧ s.sramWord (s.windowAddr e.1) = e.2
  waiting :
    ∀ a w lanes, s.path.held = some (.forwarded (.write a w lanes)) →
      ∀ o, isImageOffset o = true → a + 4 ≤ s.windowAddr o ∨ s.windowAddr o + 4 ≤ a
  reading :
    s.mode.inReset = true ∨ s.ctrl.operation = .startProfileRead ∨ s.ctrl.operation = .startCountersRead ∨
      s.ctrl.operation = .startSlotsRead → s.path.windowOpen = false ∧ s.path.awaited = none
  latest :
    s.path.windowOpen = true ∨ s.path.awaited.isSome = true →
      ∀ o, isImageOffset o = true → s.latestWord o = s.imageWord o

/-! ## Words of the statements -/

/-- The command completes: exec answers a next state that keeps every part outside `l` and of which `P` holds. -/
def Gives (c : Instr) (s : State) (l : List Part) (P : State → Prop) : Prop :=
  ∃ t, exec c s = .next t ∧ KeepsBut l s t ∧ P t

/-- A code is reported present: it stands in the present set unless 64 codes stood there before (R148). -/
abbrev Reported (s t : State) (c : FaultCode) : Prop := s.fm.present.length < Config.presentMax → c ∈ t.fm.present

/-- An attention cause is pending (R132). -/
abbrev State.causePending (t : State) (c : Cause) : Prop := t.path.attnPending.getLsbD c.bit = true

/-- Signal `n` took an update with value `v` (R2): the value delivered, GOOD with age 0 in range, INVALID with its age outside. -/
abbrev State.Updated (s t : State) (n : Fin 256) (v : BitVec 16) : Prop :=
  (t.sig.entries.get n).value = v ∧
    (if inRange (s.profile.signals.get n) v then
      (t.sig.entries.get n).quality = .good ∧ (t.sig.entries.get n).age = 0
    else (t.sig.entries.get n).quality = .invalid ∧ (t.sig.entries.get n).age = (s.sig.entries.get n).age)

/-- A signal entry is as it was. -/
abbrev State.Unmoved (s t : State) (n : Fin 256) : Prop := t.sig.entries.get n = s.sig.entries.get n

/-- A line's receiver and monitor. -/
def State.line (s : State) (l : Line) : LineRx := s.rx.lines.get l.toFin

/-- Line `l` became `x`, and the other lines are as they were. -/
abbrev State.LineIs (s t : State) (l : Line) (x : LineRx) : Prop :=
  t.line l = x ∧ ∀ k, k ≠ l → t.line k = s.line k

/-- Line `l` holds the shared receiver no longer; a hold of the other line stands. -/
abbrev State.Released (s t : State) (l : Line) : Prop :=
  t.rx.owner = (if s.rx.owner = lineOwner l then .none else s.rx.owner)

/-- A line's receiver is inside a character: the device runs, the line is received and not broken, and a start edge was seen (R24,
R30, R42). -/
abbrev State.receives (s : State) (l : Line) : Prop :=
  s.running ∧ s.lineTakes l = true ∧ s.rx.received l = true ∧ (s.line l).inChar = true

/-- What a discard that leaves the line in HUNT makes of it, with its counts given (R29). -/
def LineRx.lost (x : LineRx) (c : LineCounts) : LineRx :=
  { x with receive := .hunt, hunting := true, gap := none, inChar := false, counts := c }

/-- One momentary report of a kind has acted on the record that stood for it: confirmed again and PASSIVE at once (R152, R153). -/
def ReportedOnce (s t : State) (k : FaultKind) : Prop :=
  ∀ i r, s.fm.slotOf { kind := k, subject := 0 } = some i → s.fm.records.get i = some r →
    t.fm.records.get i =
      some
        { r with
          state := .passive
          occurrence := satInc r.occurrence
          healing := 0
          last := some { cycle := s.mode.cycle, ms := s.mode.time }
          timer := none
          seen := true }

/-- A stored slot page whose check is correct names the record `r` (R162, R196, Table 12-5): kind, subject, counts, moments and frame
as stored, its state field ACTIVE or PASSIVE; loaded it is PASSIVE with its seen mark clear. A quality or motion number that is
not listed: log entry 31. -/
structure SlotHolds (page : List Byte) (r : Record) : Prop where
  kind : (pageWord page 0).toNat % 2 ^ 8 = r.code.kind.toNat
  subject : r.code.subject = ((pageWord page 0) >>> 8).setWidth 8
  stored : (pageWord page 0).toNat / 2 ^ 16 % 2 ^ 2 = 2 ∨ (pageWord page 0).toNat / 2 ^ 16 % 2 ^ 2 = 3
  loaded : r.state = .passive ∧ r.seen = false ∧ r.timer = none
  counts : r.occurrence = (pageWord page 1).setWidth 8 ∧ r.healing = ((pageWord page 1) >>> 8).setWidth 8
  moments : r.first = some { cycle := (pageWord page 2).setWidth 24, ms := pageWord page 3 } ∧
    r.last = some { cycle := (pageWord page 4).setWidth 24, ms := pageWord page 5 }
  frame : r.frame =
    (if (pageWord page 0).getLsbD 24 then
      some
        { motion := .decode ((pageWord page 6).toNat % 2 ^ 2)
          openCount := (pageWord page 6).toNat / 2 ^ 4 % 2 ^ 3
          entries := (List.range (min 4 ((pageWord page 6).toNat / 2 ^ 8 % 2 ^ 3))).map (fun k =>
            { signal := ((pageWord page (7 + k)) >>> 16).setWidth 8
              value := (pageWord page (7 + k)).setWidth 16
              quality := .decode ((pageWord page (7 + k)).toNat / 2 ^ 24 % 2 ^ 3) }) }
    else none)

/-- A stored slot page stands for what the slot of the table holds after the load: fifteen zero words for an empty slot (R196). -/
def SlotLoads (page : List Byte) : Option Record → Prop
  | none => ∀ k, k < 15 → pageWord page k = 0
  | some r => SlotHolds page r

/-- A stored slot page whose check is correct names no record: a kind that is none, or a state other than ACTIVE and PASSIVE (R162). -/
def NamesNoRecord (page : List Byte) : Prop :=
  (∃ k, k < 15 ∧ pageWord page k ≠ 0) ∧
    ((∀ kind : FaultKind, (pageWord page 0).toNat % 2 ^ 8 ≠ kind.toNat) ∨
      (pageWord page 0).toNat / 2 ^ 16 % 2 ^ 2 ≠ 2 ∧ (pageWord page 0).toNat / 2 ^ 16 % 2 ^ 2 ≠ 3)

/-- What the load makes of the 32 slots (R162): `loaded` gives the record of each, `bad` says which are bad slots. A slot that gave no
answer is neither; a failing check, a page that names no record and a code loaded from a lower slot make a bad slot. -/
structure State.SlotsLoad (s : State) (answered : BitVec 32) (loaded : Fin 32 → Option Record) (bad : Fin 32 → Prop) : Prop where
  unanswered : ∀ i, answered.getLsbD i.val = false → loaded i = none ∧ ¬ bad i
  failing : ∀ i, answered.getLsbD i.val = true →
    slotPageNo i ∈ s.ctrl.torn ∨ pageOk (s.cfgPage (slotPageNo i)) i.val = false → loaded i = none ∧ bad i
  readable : ∀ i, answered.getLsbD i.val = true → slotPageNo i ∉ s.ctrl.torn →
    pageOk (s.cfgPage (slotPageNo i)) i.val = true →
    NamesNoRecord (s.cfgPage (slotPageNo i)) ∧ loaded i = none ∧ bad i ∨
      ∃ stored, SlotLoads (s.cfgPage (slotPageNo i)) stored ∧
        ((∀ j r q, j < i → loaded j = some r → stored = some q → r.code ≠ q.code) ∧ loaded i = stored ∧ ¬ bad i ∨
          (∃ j r q, j < i ∧ loaded j = some r ∧ stored = some q ∧ r.code = q.code) ∧ loaded i = none ∧ bad i)

/-- A door named by its controller code, unless a rule gives FAULT (R53). -/
def codeNames (v : BitVec 16) (x : DoorState) : Prop :=
  v = 0 ∧ x = .closedLocked ∨ v = 1 ∧ x = .closed ∨ v = 2 ∧ x = .opening ∨ v = 3 ∧ x = .opened ∨ v = 4 ∧ x = .closing ∨
    v = 5 ∧ x = .reversing ∨ 6 ≤ v.toNat ∧ x = .fault

/-- The code contradicts the closed switch (R58). -/
def State.disagrees (s : State) (cfg : DoorCfg) (v : BitVec 16) : Prop :=
  ∃ n, cfg.closed = some n ∧ s.quality n = .good ∧ ((v = 0 ∨ v = 1) ∧ s.value n = 0 ∨ v = 3 ∧ s.value n ≠ 0)

/-- The quality lets a value be used: GOOD or SUBSTITUTED (R72). -/
abbrev State.canUse (s : State) (n : Fin 256) : Prop := s.quality n = .good ∨ s.quality n = .substituted

/-- What a condition says of the state, `was` being its raw condition before (R72 to R76). -/
def State.conditionHolds (s : State) (was hostSet : Bool) : Condition → Prop
  | .unused => False
  | .above n threshold hysteresis =>
    s.canUse n ∧ (threshold.toInt < (s.value n).toInt ∨ was = true ∧ threshold.toInt - hysteresis < (s.value n).toInt)
  | .below n threshold hysteresis =>
    s.canUse n ∧ ((s.value n).toInt < threshold.toInt ∨ was = true ∧ (s.value n).toInt < threshold.toInt + hysteresis)
  | .equal n threshold => s.canUse n ∧ s.value n = threshold
  | .qualityBad n => ¬ s.canUse n
  | .doorOpen mask => ∃ d : Fin 6, mask.getLsbD d.val = true ∧ (s.door.doors.get d).countsOpen = true
  | .doorFault mask => ∃ d : Fin 6, mask.getLsbD d.val = true ∧ (s.door.doors.get d).state = .fault
  | .faultKind k => ∃ i r, s.fm.records.get i = some r ∧ r.code.kind = k ∧ r.state = .active
  | .hostSet => hostSet = true

/-- What a change of a warning's condition present makes of it, `v` before and `w` after, at a clock's reading (R78 to R80). -/
structure TakesPresence (c : WarnCfg) (clock : BitVec 32) (v w : Warning) : Prop where
  same : w.present = v.present →
    w.state = v.state ∧ w.timer = v.timer ∧ w.latched = v.latched ∧ w.armed = v.armed ∧ w.number = v.number ∧ w.time = v.time
  activated : v.present = false → w.present = true → v.state = .inactive → c.onDelay = 0 →
    w.state = .activeUnack ∧ w.timer = none ∧ w.latched = false ∧ w.armed = false ∧ w.number = v.number + 1 ∧ w.time = clock
  delayed : v.present = false → w.present = true → v.state = .inactive → c.onDelay ≠ 0 →
    w.state = .pending ∧ w.timer = some (.onDelay, 0) ∧ w.number = v.number
  returned : v.present = false → w.present = true → v.state = .activeUnack ∨ v.state = .activeAck →
    w.state = v.state ∧ w.timer = none ∧ w.number = v.number ∧ w.time = v.time ∧ w.armed = v.armed ∧
      (v.state = .activeUnack → w.latched = false)
  withdrawn : v.present = true → w.present = false → v.state = .pending →
    w.state = .inactive ∧ w.timer = none ∧ w.number = v.number
  offDelayed : v.present = true → w.present = false → v.state = .activeUnack ∨ v.state = .activeAck → c.offDelay ≠ 0 →
    w.state = v.state ∧ w.timer = some (.offDelay, 0) ∧ w.latched = v.latched ∧ w.armed = v.armed ∧ w.number = v.number
  latches : v.present = true → w.present = false → v.state = .activeUnack → c.offDelay = 0 → c.latching = true →
    w.state = .activeUnack ∧ w.timer = none ∧ w.latched = true ∧ w.number = v.number
  ends : v.present = true → w.present = false → v.state = .activeAck ∨ v.state = .activeUnack ∧ c.latching = false →
    c.offDelay = 0 → w.state = .inactive ∧ w.timer = none ∧ w.latched = false ∧ w.armed = false ∧ w.number = v.number

/-- Warning `w` was acknowledged (R81, R82): a latched one has ended, any other is ACTIVE_ACK; the other warnings are as they were, but
for the chimed flag that the chime arbiter sets. -/
structure Acknowledged (s t : State) (w : Fin 96) : Prop where
  state : (t.warn.rows.get w).state = if (s.warn.rows.get w).latched then .inactive else .activeAck
  flags : (t.warn.rows.get w).armed = false ∧ (t.warn.rows.get w).latched = false
  kept : (t.warn.rows.get w).number = (s.warn.rows.get w).number ∧ (t.warn.rows.get w).present = (s.warn.rows.get w).present
  others : ∀ v, v ≠ w → { t.warn.rows.get v with chimed := false } = { s.warn.rows.get v with chimed := false }

/-- The ack input's level is that of signal `n` as it stands (R85). -/
structure State.AckLevelOf (t : State) (n : Fin 256) : Prop where
  high : t.warn.ackLevel = .high ↔ t.quality n = .good ∧ t.value n ≠ 0
  low : t.warn.ackLevel = .low ↔ t.quality n = .good ∧ t.value n = 0

/-- Warning `w` is the first ACTIVE_UNACK one in display order (R85, R87). -/
def State.FirstUnack (s : State) (w : Fin 96) : Prop :=
  (s.warn.rows.get w).state = .activeUnack ∧
    ∃ pre post, s.displayOrder = pre ++ w :: post ∧ ∀ v ∈ pre, (s.warn.rows.get v).state ≠ .activeUnack

/-- A source of telltale `k` is true (R96, Table 5-2). -/
def State.sourceHolds (s : State) (k : Fin 48) : LampSource → Prop
  | .warning w => (s.warn.rows.get w).state = .activeUnack ∨ (s.warn.rows.get w).state = .activeAck
  | .signal n => s.canUse n ∧ s.value n ≠ 0
  | .doorAnyOpen => 1 ≤ s.door.openCount
  | .doorOpen d => (s.door.doors.get d).countsOpen = true
  | .hostRequest =>
    (k.val < 32 ∧ s.ind.requestLow.getLsbD k.val = true ∨ 32 ≤ k.val ∧ s.ind.requestHigh.getLsbD (k.val - 32) = true) ∧
      s.sup.state = .normal
  | .hostLost => s.sup.state = .lost

/-- A bound signal is GOOD and nonzero (R174, R180). -/
def State.boundOn (s : State) (b : Option (Fin 256)) : Prop := ∃ n, b = some n ∧ s.quality n = .good ∧ s.value n ≠ 0

/-- The workshop level and its three conditions as they stand (R174). -/
structure State.LevelJudged (t : State) : Prop where
  switchOn : t.svc.switchOn = true ↔ t.boundOn t.profile.serviceSwitch
  standing : t.svc.standing = true ↔ t.sig.motion = .stopped
  brakeOn : t.svc.brakeOn = true ↔ t.boundOn t.profile.parkingBrake
  level : t.svc.level = true ↔
    t.inForce = true ∧ t.boundOn t.profile.serviceSwitch ∧ t.sig.motion = .stopped ∧ t.boundOn t.profile.parkingBrake

/-- The ignition as its signal stands: ON, OFF, and UNKNOWN in every other case (R180). -/
structure State.IgnitionIs (t : State) : Prop where
  on : t.mode.ignition = .on ↔ t.boundOn t.profile.ignition
  off : t.mode.ignition = .off ↔ ∃ n, t.profile.ignition = some n ∧ t.quality n = .good ∧ t.value n = 0

/-- A drive cycle has started (R181): the counter, the time and the flag, the counters write requested, the lamp check (R103) and the
homing of the active gauges (R105). -/
structure CycleStarted (s t : State) : Prop where
  cycle : t.mode.cycleOpen = true ∧ t.mode.time = 0 ∧
    t.mode.cycle = if s.mode.cycle.toNat = 16777215 then s.mode.cycle else s.mode.cycle + 1
  counters : t.ctrl.countersPending = true
  check : s.profile.lampCheck ≠ 0 →
    t.ind.lampCheck = some 0 ∧ (s.inForce = true → s.mode.mode = .run → ∀ k, (t.ind.lamps.get k).commanded = .on)
  noCheck : s.profile.lampCheck = 0 → t.ind.lampCheck = s.ind.lampCheck
  homing : ∀ g, (s.profile.gauges.get g).mode ≠ .off → (s.ind.gauges.get g).state ≠ .test →
    (t.ind.gauges.get g).state = .homing ∧ (t.ind.gauges.get g).homing = some 0 ∧
      (t.ind.gauges.get g).requested = (s.ind.gauges.get g).requested
  resting : ∀ g, (s.profile.gauges.get g).mode = .off ∨ (s.ind.gauges.get g).state = .test →
    t.ind.gauges.get g = s.ind.gauges.get g

/-- A clear taken: the table begun anew with a record for each present code in the set's order, PENDING with its confirm timer from 0, or
confirmed at once where the confirm time is 0, the first 32 of them in slots 0 to 31; a code beyond them counts an overflow and sets
the memory-full flag. The present set is kept, and all 32 slots are outstanding (R149, R150, R160). -/
structure ClearTaken (s t : State) : Prop where
  clearing : t.fm.clearing = true
  outstanding : t.fm.outstanding = List.finRange 32
  present : t.fm.present = s.fm.present
  pending : s.profile.confirm ≠ 0 → ∀ i : Fin 32,
    t.fm.records.get i = (s.fm.present[i.val]?).map (fun c => { code := c, state := .pending, timer := some 0 })
  confirmed : s.profile.confirm = 0 → ∀ i : Fin 32,
    t.fm.records.get i = (s.fm.present[i.val]?).map (fun c =>
      { code := c, state := .active, occurrence := 1, first := some s.now, last := some s.now, frame := s.freezeFrame })
  overflow : t.fm.overflow.toNat = min (s.fm.present.length - 32) 65535
  full : t.fm.full = true ↔ 32 < s.fm.present.length

/-- The door summary as the table of doors gives it: the number of doors that count open, and whether none does and every present door is
CLOSED_LOCKED (R63). -/
def State.SummaryTaken (s : State) : Prop :=
  s.door.openCount = ((List.finRange 6).filter (fun d => (s.door.doors.get d).countsOpen)).length ∧
    (s.door.allLocked = true ↔
      s.door.openCount = 0 ∧
        ∀ d, (s.profile.doors.get d).present = true → (s.door.doors.get d).state = .closedLocked)

/-- A gauge that has entered TEST from `x`, where `full` is its full scale: the sweep starts DOWN with target 0, or UP with target full
scale where the moving gauge had reached 0 (R106, R110); position and requested target are those of `x`. -/
structure Gauge.SweepsFrom (full : Nat) (y x : Gauge) : Prop where
  state : y.state = .test
  position : y.position = x.position
  requested : y.requested = x.requested
  down : x.moving = false ∨ x.position ≠ 0 → y.sweep = some .down ∧ y.target = 0 ∧ y.moving = decide (x.position ≠ 0)
  up : x.moving = true → x.position = 0 → y.sweep = some .up ∧ y.target = full ∧ y.moving = decide (full ≠ 0)

/-- The parts that a drive-cycle start changes. -/
def Part.cycleStart : List Part := Part.images ++ [.ignition, .cycle, .countersPending, .lampCheck, .lamps, .gauges]

/-- The ignition judged, `was` being what it was: a drive-cycle start, the ignition-off timer started or made idle, PARKING at once
with a delay of 0, and in every other mode the ignition alone (R180 to R182). -/
structure IgnitionTaken (was : Ignition) (s t : State) : Prop where
  judged : t.IgnitionIs
  elsewhere : s.mode.mode ≠ .run → KeepsBut [.ignition] s t ∧ t.mode.offTimer = s.mode.offTimer
  starts : s.mode.mode = .run → t.mode.ignition = .on → s.mode.cycleOpen = false →
    KeepsBut Part.cycleStart s t ∧ CycleStarted s t ∧ t.mode.offTimer = none
  goesOn : s.mode.mode = .run → t.mode.ignition = .on → s.mode.cycleOpen = true →
    KeepsBut [.ignition] s t ∧ t.mode.offTimer = none
  unknown : s.mode.mode = .run → t.mode.ignition = .unknown → KeepsBut [.ignition] s t ∧ t.mode.offTimer = none
  stays : s.mode.mode = .run → t.mode.ignition = .off → was = .off →
    KeepsBut [.ignition] s t ∧ t.mode.offTimer = s.mode.offTimer
  timed : s.mode.mode = .run → t.mode.ignition = .off → was ≠ .off → s.profile.ignitionOff ≠ 0 →
    KeepsBut [.ignition] s t ∧ t.mode.offTimer = some 0
  parks : s.mode.mode = .run → t.mode.ignition = .off → was ≠ .off → s.profile.ignitionOff = 0 →
    KeepsBut Part.ignitionJudged s t ∧ t.mode.mode = .parking ∧ t.mode.offTimer = none

/-- The pattern that the selection of the arbiter has just begun (R113). -/
def State.PatternBegun (t : State) : Prop :=
  match t.ind.chime.selection with
  | none => t.ind.chime.phase = .silent
  | some w =>
    match (t.profile.warnings.get w).pattern with
    | .none => t.ind.chime.phase = .silent
    | .single => t.ind.chime.phase = .singleTone 0 ∧ (t.warn.rows.get w).chimed = true
    | .repeating => t.ind.chime.phase = .repeatTone 0
    | .continuous => t.ind.chime.phase = .steady

/-- The time in ms, rounded up, that a gauge's full scale and its overtravel take at its maximum rate (R105). -/
def stepsTime (c : GaugeCfg) : Nat := (c.full + c.overtravel + (c.rate - 1)) / c.rate

/-- The low `k` bytes of a number, least significant first (chapter 12). -/
def littleEndian {n : Nat} (k : Nat) (v : BitVec n) : List Byte := (List.range k).map (fun i => (v >>> (8 * i)).setWidth 8)

/-- First seen as one number; nothing seen is 0. -/
def Record.firstAt (r : Record) : Nat := (r.first.map (fun m => m.cycle.toNat * 2 ^ 32 + m.ms.toNat)).getD 0

/-- Last seen as one number; nothing seen is 0. -/
def Record.lastAt (r : Record) : Nat := (r.last.map (fun m => m.cycle.toNat * 2 ^ 32 + m.ms.toNat)).getD 0

/-- The listed records: the slots of the ACTIVE and PASSIVE records by first seen and then by slot number (R157, R172). -/
structure State.Lists (s : State) (slots : List (Fin 32)) (records : List Record) : Prop where
  members : ∀ i, i ∈ slots ↔ ∃ r, s.fm.records.get i = some r ∧ r.state ≠ .pending
  held : slots.map s.fm.records.get = records.map some
  order : slots.Pairwise (fun i j => ∀ r q, s.fm.records.get i = some r → s.fm.records.get j = some q →
    r.firstAt < q.firstAt ∨ r.firstAt = q.firstAt ∧ i < j)

/-- The data of a positive response to a read-type request, byte by byte of the owners' state (R171, R172, Table 12-6). -/
def Request.Data (s : State) (params data : List Byte) : Request → Prop
  | .identify =>
    data = [0x46] ++ littleEndian 4 s.profile.identity ++ littleEndian 2 s.profile.version ++ littleEndian 3 s.mode.cycle
  | .readFaults =>
    ∃ slots records, s.Lists slots records ∧
      data = [BitVec.ofNat 8 records.length] ++
        ((records.drop (4 * (params.getD 0 0).toNat)).take 4).flatMap (fun r =>
          [BitVec.ofNat 8 r.code.kind.toNat, r.code.subject, r.occurrence, r.healing,
            BitVec.ofNat 8 (r.state.toNat + (if r.frame.isSome then 0x80 else 0))] ++
            littleEndian 3 (momentCycle r.first) ++ littleEndian 3 (momentCycle r.last) ++ littleEndian 4 (momentMs r.last))
  | .readFreeze =>
    ∃ i r, s.fm.records.get i = some r ∧ r.state ≠ .pending ∧ BitVec.ofNat 8 r.code.kind.toNat = params.getD 0 0 ∧
      r.code.subject = params.getD 1 0 ∧
      (r.frame = none → data = [params.getD 0 0, params.getD 1 0, 0]) ∧
      ∀ f, r.frame = some f →
        data = [params.getD 0 0, params.getD 1 0, 1, BitVec.ofNat 8 f.entries.length] ++
          f.entries.flatMap (fun e => [e.signal] ++ littleEndian 2 e.value ++ [BitVec.ofNat 8 e.quality.toNat]) ++
          [BitVec.ofNat 8 f.motion.toNat, BitVec.ofNat 8 f.openCount] ++ littleEndian 3 (momentCycle r.first) ++
          littleEndian 4 (momentMs r.first)
  | .readSignals =>
    data = params.flatMap (fun p =>
      [p] ++ littleEndian 2 (s.value p.toFin) ++ [BitVec.ofNat 8 (s.quality p.toFin).toNat] ++
        littleEndian 2 (s.sig.entries.get p.toFin).age)
  | .readDoors =>
    data = (List.finRange 6).flatMap (fun d =>
      [BitVec.ofNat 8
          ((s.door.doors.get d).state.toNat + (if (s.profile.doors.get d).present then 0x10 else 0) +
            (if (s.door.doors.get d).countsOpen then 0x20 else 0)),
        BitVec.ofNat 8 ((s.door.doors.get d).source.toNat + 4 * (s.door.doors.get d).cause.toNat)] ++
        littleEndian 4 (s.door.doors.get d).openCycles ++ littleEndian 4 (s.door.doors.get d).obstructions) ++
      [BitVec.ofNat 8 s.door.openCount, if s.door.allLocked then 1 else 0]
  | .readLines =>
    ∃ l : Fin 3, l.val = (params.getD 0 0).toNat ∧
      data = [BitVec.ofNat 8 ((s.rx.lines.get l).state.toNat + (if (s.rx.lines.get l).hunting then 4 else 0))] ++
        [(s.rx.lines.get l).counts.accepted, (s.rx.lines.get l).counts.ignored, (s.rx.lines.get l).counts.noise,
          (s.rx.lines.get l).counts.framing, (s.rx.lines.get l).counts.truncated, (s.rx.lines.get l).counts.long,
          (s.rx.lines.get l).counts.check, (s.rx.lines.get l).counts.length, (s.rx.lines.get l).counts.brk,
          (s.rx.lines.get l).counts.breaks, (s.rx.lines.get l).counts.collisions].flatMap (littleEndian 2)
  | .workshopStatus =>
    data = [BitVec.ofNat 8
        ((if s.svc.level then 0x01 else 0) + (if s.svc.switchOn then 0x02 else 0) + (if s.svc.standing then 0x04 else 0) +
          (if s.svc.brakeOn then 0x08 else 0) + (if s.fm.clearing then 0x10 else 0) + (if s.fm.full then 0x20 else 0)),
      BitVec.ofNat 8 s.svc.test.toNat, BitVec.ofNat 8 s.svc.lastOutcome.toNat] ++ littleEndian 2 s.svc.echoLosses
  | .clearFaults => data = []
  | .outputTest => data = []
  | .stopTest => data = []

/-! ## The layouts of chapter 12 -/

/-- The numbers that the window words give the listed values of each field (Tables 12-1 to 12-5). -/
structure WindowNumbers : Prop where
  quality : [Quality.never, .good, .invalid, .stale, .substituted].map Quality.toNat = [0, 1, 2, 3, 4]
  door : [DoorState.unknown, .closedLocked, .closed, .opening, .opened, .closing, .reversing, .fault].map DoorState.toNat =
    [0, 1, 2, 3, 4, 5, 6, 7]
  source : [DoorSource.none, .controller, .degraded].map DoorSource.toNat = [0, 1, 2]
  cause : [DoorCause.none, .code, .disagree, .slowOpen, .slowClose].map DoorCause.toNat = [0, 1, 2, 3, 4]
  warning : [WarnState.inactive, .pending, .activeUnack, .activeAck].map WarnState.toNat = [0, 1, 2, 3]
  cls : [WarnClass.stop, .caution, .info].map WarnClass.toNat = [0, 1, 2]
  gauge : [GaugeState.unhomed, .homing, .ready, .parked, .test].map GaugeState.toNat = [0, 1, 2, 3, 4]
  result : [ResultValue.idle, .inProgress, .done, .refused].map ResultValue.toNat = [0, 1, 2, 3]
  reason : [Reason.none, .busy, .notAllowed, .badCode, .profileInvalid, .memoryError].map Reason.toNat = [0, 1, 2, 3, 4, 5]
  mode : [Mode.start, .run, .parking, .parked].map Mode.toNat = [0, 1, 2, 3]
  motion : [Motion.unknown, .stopped, .moving].map Motion.toNat = [0, 1, 2]
  supervision : [SupState.starting, .normal, .lost].map SupState.toNat = [0, 1, 2]
  test : [TestKind.none, .lamp, .gaugeSweep, .chime].map TestKind.toNat = [0, 1, 2, 3]
  line : [LineState.never, .active, .silent, .broken].map LineState.toNat = [0, 1, 2, 3]
  kind : [FaultKind.signalStale, .signalInvalid, .lineSilent, .lineBreak, .doorDisagree, .doorSlowOpen, .doorSlowClose,
    .doorControllerFault, .lampOpen, .hostLost, .profileBad, .configMemory, .supplyLow].map FaultKind.toNat =
      [1, 2, 3, 4, 5, 6, 7, 8, 9, 10, 11, 12, 13]
  record : [RecordState.pending, .active, .passive].map RecordState.toNat = [1, 2, 3]

/-- Two 16-bit fields of a word. -/
abbrev Halves (w : Word) (low high : BitVec 16) : Prop := w.toNat = low.toNat + 2 ^ 16 * high.toNat

/-- The words of a fault record's cell (Table 12-5), its freeze frame's counts fitting their three bits. -/
structure ShowsRecord (word : Nat → Word) (r : Record) : Prop where
  head : (word 0).toNat =
    r.code.kind.toNat + 2 ^ 8 * r.code.subject.toNat + 2 ^ 16 * r.state.toNat + 2 ^ 24 * r.frame.isSome.toNat
  counts : (word 1).toNat = r.occurrence.toNat + 2 ^ 8 * r.healing.toNat
  first : ∀ m, r.first = some m → (word 2).toNat = m.cycle.toNat ∧ word 3 = m.ms
  noFirst : r.first = none → word 2 = 0 ∧ word 3 = 0
  last : ∀ m, r.last = some m → (word 4).toNat = m.cycle.toNat ∧ word 5 = m.ms
  noLast : r.last = none → word 4 = 0 ∧ word 5 = 0
  frame : ∀ f, r.frame = some f → f.openCount < 8 → f.entries.length ≤ 4 →
    (word 6).toNat = f.motion.toNat + 2 ^ 4 * f.openCount + 2 ^ 8 * f.entries.length ∧
      ∀ i, i < 4 →
        (f.entries[i]? = none → word (7 + i) = 0) ∧
        ∀ e, f.entries[i]? = some e →
          (word (7 + i)).toNat = e.value.toNat + 2 ^ 16 * e.signal.toNat + 2 ^ 24 * e.quality.toNat
  noFrame : r.frame = none → ∀ k, 6 ≤ k → k ≤ 10 → word k = 0
  rest : ∀ k, 11 ≤ k → k ≤ 15 → word k = 0

/-- Every image word as Tables 12-1 to 12-5 lay it out, each field at its bits and every other bit 0 (R195). A gauge's word carries the
position of its last arrival or state change (R111). -/
structure State.WindowLayout (s : State) : Prop where
  signal : ∀ n, (s.imageWord (4 * n.val)).toNat =
    (s.value n).toNat + 2 ^ 16 * (s.quality n).toNat + 2 ^ 24 * (s.sig.entries.get n).sequence.toNat
  door : ∀ d : Fin 6, (s.imageWord (0x0400 + 16 * d.val)).toNat =
    (s.door.doors.get d).state.toNat + 2 ^ 4 * (s.door.doors.get d).source.toNat +
      2 ^ 8 * (s.door.doors.get d).cause.toNat + 2 ^ 12 * (s.door.doors.get d).countsOpen.toNat
  doorCounts : ∀ d : Fin 6, s.imageWord (0x0404 + 16 * d.val) = 0 ∧
    s.imageWord (0x0408 + 16 * d.val) = (s.door.doors.get d).openCycles ∧
    s.imageWord (0x040C + 16 * d.val) = (s.door.doors.get d).obstructions
  warning : ∀ w : Fin 96, (s.imageWord (0x0480 + 4 * w.val)).toNat =
    (s.warn.rows.get w).state.toNat + 2 ^ 4 * (s.warn.rows.get w).present.toNat +
      2 ^ 5 * (s.warn.rows.get w).latched.toNat + 2 ^ 6 * (s.warn.rows.get w).hostSet.toNat +
      2 ^ 8 * (s.warn.rows.get w).number.toNat
  display : ∀ (k : Nat) (w : Fin 96), k < 8 → s.displayOrder[k]? = some w →
    (s.imageWord (0x0600 + 4 * k)).toNat =
      w.val + 2 ^ 8 * (s.profile.warnings.get w).cls.toNat +
        2 ^ 10 * (if (s.warn.rows.get w).state = .activeAck then 1 else 0) + 2 ^ 11 * (s.warn.rows.get w).present.toNat +
        2 ^ 15
  noDisplay : ∀ k, k < 8 → s.displayOrder[k]? = none → s.imageWord (0x0600 + 4 * k) = 0
  gaugeTarget : ∀ g : Fin 12, (s.ind.gauges.get g).requested < 2 ^ 12 →
    (s.imageWord (0x0620 + 8 * g.val)).toNat = (s.ind.gauges.get g).requested
  gaugeActual : ∀ g : Fin 12, (s.ind.gauges.get g).shown < 2 ^ 12 →
    (s.imageWord (0x0624 + 8 * g.val)).toNat =
      (if (s.ind.gauges.get g).state = .unhomed ∨ (s.ind.gauges.get g).state = .homing then 0
        else (s.ind.gauges.get g).shown) + 2 ^ 16 * (s.ind.gauges.get g).state.toNat
  result : (s.imageWord 0x0694).toNat =
    s.path.result.value.toNat + 2 ^ 8 * s.path.result.code.toNat + 2 ^ 16 * s.path.result.reason.toNat
  status : (s.imageWord 0x06A4).toNat =
    s.path.windowOpen.toNat + 2 * s.mode.mode.toNat + 2 ^ 3 * s.inForce.toNat + 2 ^ 4 * s.sig.motion.toNat +
      2 ^ 6 * s.door.openCount + 2 ^ 9 * s.door.allLocked.toNat + 2 ^ 10 * s.sup.state.toNat +
      2 ^ 12 * s.svc.testerActive.toNat + 2 ^ 13 * s.svc.level.toNat + 2 ^ 14 * s.svc.test.toNat +
      2 ^ 16 * s.fm.full.toNat + 2 ^ 17 * s.fm.clearing.toNat +
      2 ^ 18 * s.mode.wakeCause.ignition.toNat + 2 ^ 19 * s.mode.wakeCause.input.toNat +
      2 ^ 20 * s.mode.wakeCause.service.toNat + 2 ^ 21 * s.mode.wakeCause.front.toNat +
      2 ^ 22 * s.mode.causes.powerOn.toNat + 2 ^ 23 * s.mode.causes.pin.toNat + 2 ^ 24 * s.mode.causes.supplyLow.toNat
  counts : Halves (s.imageWord 0x06A8) s.path.violations s.warn.voidAcks ∧
    Halves (s.imageWord 0x06AC) s.path.overruns s.fm.overflow
  lineState : ∀ l : Fin 3, (s.imageWord (0x0700 + 32 * l.val)).toNat =
    (s.rx.lines.get l).state.toNat + 2 ^ 2 * (s.rx.lines.get l).hunting.toNat
  lineCounts : ∀ l : Fin 3,
    Halves (s.imageWord (0x0704 + 32 * l.val)) (s.rx.lines.get l).counts.accepted (s.rx.lines.get l).counts.ignored ∧
    Halves (s.imageWord (0x0708 + 32 * l.val)) (s.rx.lines.get l).counts.noise (s.rx.lines.get l).counts.framing ∧
    Halves (s.imageWord (0x070C + 32 * l.val)) (s.rx.lines.get l).counts.truncated (s.rx.lines.get l).counts.long ∧
    Halves (s.imageWord (0x0710 + 32 * l.val)) (s.rx.lines.get l).counts.check (s.rx.lines.get l).counts.length ∧
    Halves (s.imageWord (0x0714 + 32 * l.val)) (s.rx.lines.get l).counts.brk (s.rx.lines.get l).counts.breaks ∧
    Halves (s.imageWord (0x0718 + 32 * l.val)) (s.rx.lines.get l).counts.collisions 0 ∧
    s.imageWord (0x071C + 32 * l.val) = 0
  ever : ∀ k : Fin 64,
    (s.imageWord (0x0760 + 4 * (k.val / 32))).getLsbD (k.val % 32) = (s.rx.slots.get k).ever
  arrivals : ∀ k : Fin 32, Halves (s.imageWord (0x0780 + 4 * k.val))
    (s.rx.slots.get ⟨2 * k.val, by omega⟩).arrivals (s.rx.slots.get ⟨2 * k.val + 1, by omega⟩).arrivals
  zeros : ∀ off, 0x0768 ≤ off → off < 0x0780 → s.imageWord off = 0
  record : ∀ (i : Fin 32) (r : Record), s.fm.records.get i = some r →
    ShowsRecord (fun k => s.imageWord (0x0800 + 64 * i.val + 4 * k)) r
  noRecord : ∀ (i : Fin 32) (k : Nat), s.fm.records.get i = none → k < 16 →
    s.imageWord (0x0800 + 64 * i.val + 4 * k) = 0

/-- Table 12-7 assigns bit `b` of byte `a` of the profile image `rd`; the bytes from the fixed part to the length take part in the check
word and count as assigned: log entry 41. -/
def ProfileBit (rd : Nat → Byte) (a b : Nat) : Prop :=
  a < 0x0038 ∨
  (∃ n j, n < 64 ∧ a = 0x0038 + 4 * n + j ∧ (j = 0 ∧ (b ≤ 1 ∨ b = 7) ∨ j = 1 ∨ j = 2)) ∨
  (∃ n j, n < 256 ∧ a = 0x0138 + 16 * n + j ∧ (j = 0 ∨ j = 1 ∧ b ≤ 3 ∨ 2 ≤ j ∧ j ≤ 4 ∨ 6 ≤ j ∧ j ≤ 13)) ∨
  (∃ n j, n < 24 ∧ a = 0x1138 + 2 * n + j ∧ (j = 0 ∧ b ≤ 3 ∨ j = 1)) ∨
  (∃ n j, n < 6 ∧ a = 0x1168 + 16 * n + j ∧ (j = 0 ∧ b ≤ 1 ∨ 2 ≤ j ∧ j ≤ 15)) ∨
  (∃ n j, n < 96 ∧ a = 0x11C8 + 16 * n + j ∧
    (j = 0 ∨ j = 1 ∧ (b ≤ 5 ∨ rd (a - 1) ≠ 5 ∧ rd (a - 1) ≠ 6) ∨ 2 ≤ j ∧ j ≤ 9 ∨ j = 10 ∧ b ≤ 6 ∨ j = 11)) ∨
  (∃ n j, n < 48 ∧ a = 0x17C8 + 12 * n + j ∧ (j = 0 ∧ (b ≤ 2 ∨ 4 ≤ b ∧ b ≤ 6) ∨ 1 ≤ j ∧ j ≤ 8)) ∨
  (∃ n j, n < 12 ∧ a = 0x1A08 + 16 * n + j ∧ (j ≤ 8 ∨ 10 ≤ j ∧ j ≤ 13)) ∨
  0x1AC8 ≤ a

/-- The 64 bytes that a store writes as page `k` of the image `rd`: the staged bits that Table 12-7 assigns, and 0 in every other, the
bytes beyond the image's length among them (R192, R195, log entry 41). -/
def ProfilePageOf (rd : Nat → Byte) (k : Nat) (page : List Byte) : Prop :=
  page.length = 64 ∧ ∀ j b, j < 64 → b < 8 →
    ((page.getD j 0).getLsbD b = true ↔
      64 * k + j < imageLength rd ∧ ProfileBit rd (64 * k + j) b ∧ (rd (64 * k + j)).getLsbD b = true)

/-- The row of a service request. -/
def Request.row : Request → Target → Byte → List Byte → Instr
  | .identify => .identify
  | .readFaults => .readFaults
  | .readFreeze => .readFreeze
  | .clearFaults => .clearFaultsRequest
  | .readSignals => .readSignals
  | .readDoors => .readDoors
  | .readLines => .readLines
  | .outputTest => .outputTest
  | .stopTest => .stopTest
  | .workshopStatus => .workshopStatus

/-- One millisecond has passed: every age, clock, count, timer and movement of `s` has advanced, and nothing else has. -/
structure MillisecondLater (s t : State) : Prop where
  entries : ∀ n, t.sig.entries.get n =
    if s.takesUpdates && sourceAges (s.profile.signals.get n).source then
      { s.sig.entries.get n with
        age := satInc (s.sig.entries.get n).age
        due := (s.sig.entries.get n).due ||
          (decide ((s.profile.signals.get n).freshness ≠ 0) &&
            decide ((s.sig.entries.get n).age.toNat = (s.profile.signals.get n).freshness) &&
            (decide ((s.sig.entries.get n).quality = .good) || decide ((s.sig.entries.get n).quality = .invalid))) }
    else s.sig.entries.get n
  motion : t.sig.motion = s.sig.motion ∧ t.sig.hold = if s.takesUpdates then s.sig.hold.map (· + 1) else s.sig.hold
  inputs : ∀ i, t.inp.inputs.get i = { s.inp.inputs.get i with stable := (s.inp.inputs.get i).stable.map (· + 1) }
  speed : t.inp.timing = s.inp.timing ∧ t.inp.running = s.inp.running ∧
    t.inp.count = (if s.inp.running then min 65535 (s.inp.count + (100 - s.inp.edgeAt)) else s.inp.count) ∧ t.inp.edgeAt = 0
  lines : ∀ l, t.rx.lines.get l =
    { s.rx.lines.get l with
      gap := (s.rx.lines.get l).gap.map (· + 1)
      silence := (s.rx.lines.get l).silence.map (· + 1) }
  doors : t.door.openCount = s.door.openCount ∧ t.door.allLocked = s.door.allLocked ∧
    ∀ d, t.door.doors.get d =
      { s.door.doors.get d with timer := (s.door.doors.get d).timer.map (fun x => (x.1, x.2 + 1)) }
  warnings : t.warn.clock = (if s.mode.mode = .run then satInc s.warn.clock else s.warn.clock) ∧
    ∀ w, t.warn.rows.get w =
      if s.mode.mode = .run then
        { s.warn.rows.get w with timer := (s.warn.rows.get w).timer.map (fun x => (x.1, x.2 + 1)) }
      else s.warn.rows.get w
  lamps : t.ind.lampCheck = s.ind.lampCheck.map (· + 1) ∧
    ∀ k, t.ind.lamps.get k =
      { s.ind.lamps.get k with
        faultTimer := (s.ind.lamps.get k).faultTimer.map (· + 1)
        clearTimer := (s.ind.lamps.get k).clearTimer.map (· + 1) }
  blink : t.ind.blink =
    match s.ind.blink with
    | .stopped => .stopped
    | .onPhase ms => .onPhase (ms + 1)
    | .offPhase ms => .offPhase (ms + 1)
  gauges : ∀ g, t.ind.gauges.get g =
    { s.ind.gauges.get g with
      homing := (s.ind.gauges.get g).homing.map (· + 1)
      position :=
        if (s.ind.gauges.get g).state.homed && (s.ind.gauges.get g).moving then
          if (s.ind.gauges.get g).position < (s.ind.gauges.get g).target then
            min (s.ind.gauges.get g).target ((s.ind.gauges.get g).position + (s.profile.gauges.get g).rate)
          else max (s.ind.gauges.get g).target ((s.ind.gauges.get g).position - (s.profile.gauges.get g).rate)
        else (s.ind.gauges.get g).position }
  chime : t.ind.chime =
    { selection := s.ind.chime.selection
      phase :=
        match s.ind.chime.phase with
        | .silent => .silent
        | .singleTone ms => .singleTone (ms + 1)
        | .repeatTone ms => .repeatTone (ms + 1)
        | .repeatSilence ms => .repeatSilence (ms + 1)
        | .steady => .steady
      test :=
        match s.ind.chime.test with
        | none => none
        | some (.tone ms) => some (.tone (ms + 1))
        | some (.repeated ms) => some (.repeated (ms + 1))
        | some (.steady ms) => some (.steady (ms + 1)) }
  supervision : t.sup =
    { s.sup with timer := s.sup.timer.map (fun x => (x.1, x.2 + 1)), pulse := s.sup.pulse.map (· + 1) }
  records : ∀ i, t.fm.records.get i =
    if s.mode.mode = .parked then s.fm.records.get i
    else (s.fm.records.get i).map (fun r => { r with timer := r.timer.map (· + 1) })
  service : t.svc =
    { s.svc with
      gap := s.svc.gap.map (· + 1)
      turnaround := s.svc.turnaround.map (· + 1)
      testerTimer := s.svc.testerTimer.map (· + 1)
      testTimer := s.svc.testTimer.map (· + 1) }
  mode : t.mode =
    { s.mode with
      time := if s.mode.mode = .parked then s.mode.time else satInc s.mode.time
      offTimer := s.mode.offTimer.map (· + 1) }

/-- When the time of each expiry has come: its timer runs and stands at, or past, the limit that its rule gives, where its block takes
expiries. No other command is an expiry. Log entries 2 and 38. -/
structure State.DueWhen (s : State) : Prop where
  signals : ∀ n, s.due (.stalenessExpiry n) = true ↔
    s.takesUpdates = true ∧ sourceAges (s.profile.signals.get n).source = true ∧ (s.profile.signals.get n).freshness ≠ 0 ∧
      (s.quality n = .good ∨ s.quality n = .invalid) ∧ (s.sig.entries.get n).due = true
  inputs : ∀ i, s.due (.debounceSettle i) = true ↔
    s.inForce = true ∧ ∃ e, (s.inp.inputs.get i).stable = some e ∧ (s.profile.inputs.get i).debounce ≤ e
  speed : s.due .speedOverflow = true ↔ s.takesUpdates = true ∧ s.inp.running = true ∧ 65535 ≤ s.inp.count + (100 - s.inp.edgeAt)
  hold : s.due .holdExpiry = true ↔ ∃ e, s.sig.hold = some e ∧ s.profile.stopHold ≤ e
  gap : ∀ l, s.due (.gapExpiry l) = true ↔
    s.linesRun = true ∧ (s.line l).receive.inFrame = true ∧
      ∃ e, (s.line l).gap = some e ∧ (s.profile.lines.get l.toFin).gap < e
  silence : ∀ l, s.due (.silenceExpiry l) = true ↔
    s.linesRun = true ∧ ∃ e, (s.line l).silence = some e ∧ (silenceLimit (s.profile.lines.get l.toFin).silence).getD 0 ≤ e
  openTimeout : ∀ d, s.due (.openTimeoutExpiry d) = true ↔
    ∃ e, (s.door.doors.get d).timer = some (.openMotion, e) ∧ (s.profile.doors.get d).openTimeout < e
  closeTimeout : ∀ d, s.due (.closeTimeoutExpiry d) = true ↔
    ∃ e, (s.door.doors.get d).timer = some (.closeMotion, e) ∧ (s.profile.doors.get d).closeTimeout < e
  disagreement : ∀ d, s.due (.disagreementExpiry d) = true ↔
    ∃ e, (s.door.doors.get d).timer = some (.disagree, e) ∧ (s.profile.doors.get d).tolerance < e
  onDelay : ∀ w, s.due (.onDelayExpiry w) = true ↔
    s.warningsRun = true ∧ ∃ e, (s.warn.rows.get w).timer = some (.onDelay, e) ∧ (s.profile.warnings.get w).onDelay ≤ e
  offDelay : ∀ w, s.due (.offDelayExpiry w) = true ↔
    s.warningsRun = true ∧ ∃ e, (s.warn.rows.get w).timer = some (.offDelay, e) ∧ (s.profile.warnings.get w).offDelay ≤ e
  blink : s.due .blinkPhaseEnd = true ↔ ∃ ms, (s.ind.blink = .onPhase ms ∨ s.ind.blink = .offPhase ms) ∧ 500 ≤ ms
  openLoad : ∀ k, s.due (.openLoadExpiry k) = true ↔ ∃ e, (s.ind.lamps.get k).faultTimer = some e ∧ 200 ≤ e
  clear : ∀ k, s.due (.clearExpiry k) = true ↔ ∃ e, (s.ind.lamps.get k).clearTimer = some e ∧ 200 ≤ e
  lampCheck : s.due .lampCheckExpiry = true ↔ ∃ e, s.ind.lampCheck = some e ∧ s.profile.lampCheck ≤ e
  homing : ∀ g, s.due (.homingCompletion g) = true ↔
    (s.ind.gauges.get g).state = .homing ∧
      ∃ e, (s.ind.gauges.get g).homing = some e ∧ stepsTime (s.profile.gauges.get g) ≤ e
  arrival : ∀ g, s.due (.arrival g) = true ↔
    ((s.ind.gauges.get g).state = .ready ∨ (s.ind.gauges.get g).state = .parked ∨ (s.ind.gauges.get g).state = .test) ∧
      (s.ind.gauges.get g).moving = true ∧ (s.ind.gauges.get g).position = (s.ind.gauges.get g).target
  tone : s.due .toneEnd = true ↔
    ∃ ms, (s.ind.chime.phase = .singleTone ms ∨ s.ind.chime.phase = .repeatTone ms) ∧ 300 ≤ ms
  period : s.due .repeatPeriodExpiry = true ↔ ∃ ms, s.ind.chime.phase = .repeatSilence ms ∧ 1500 ≤ ms
  chimeTest : s.due .chimeTestPhaseEnd = true ↔
    ∃ ms, s.ind.chime.test = some (.tone ms) ∧ 300 ≤ ms ∨ s.ind.chime.test = some (.repeated ms) ∧ 3000 ≤ ms ∨
      s.ind.chime.test = some (.steady ms) ∧ 1000 ≤ ms
  grace : s.due .graceExpiry = true ↔ s.sup.state = .starting ∧ ∃ e, s.sup.timer = some (.grace, e) ∧ 5000 ≤ e
  timeout : s.due .timeoutExpiry = true ↔
    s.sup.state = .normal ∧ s.path.awaited = none ∧ ∃ e, s.sup.timer = some (.timeout, e) ∧ s.profile.supTimeout ≤ e
  timeoutInLost : s.due .timeoutExpiryInLost = true ↔
    s.sup.state = .lost ∧ s.path.awaited = none ∧ ∃ e, s.sup.timer = some (.timeout, e) ∧ s.profile.supTimeout ≤ e
  pulse : s.due .pulseEnd = true ↔ ∃ e, s.sup.pulse = some e ∧ 100 ≤ e
  confirm : ∀ i, s.due (.confirmExpiry i) = true ↔
    s.mode.mode ≠ .parked ∧
      ∃ r e, s.fm.records.get i = some r ∧ r.state = .pending ∧ r.timer = some e ∧ s.profile.confirm ≤ e
  quiet : s.due .quietExpiry = true ↔ s.svc.line = .skip ∧ ∃ e, s.svc.gap = some e ∧ 20 < e
  serviceGap : s.due .serviceGapExpiry = true ↔ s.svc.line = .receiving ∧ ∃ e, s.svc.gap = some e ∧ 20 < e
  turnaround : s.due .replyTurnaround = true ↔ ∃ e, s.svc.turnaround = some e ∧ 3 ≤ e
  tester : s.due .testerActiveExpiry = true ↔ ∃ e, s.svc.testerTimer = some e ∧ 5000 ≤ e
  lampTest : s.due .lampTestTimerExpiry = true ↔
    s.svc.test = .lamp ∧ ∃ e, s.svc.testTimer = some e ∧ 1000 * s.svc.testDuration ≤ e
  ignitionOff : s.due .ignitionOffExpiry = true ↔
    s.mode.mode = .run ∧ ∃ e, s.mode.offTimer = some e ∧ s.profile.ignitionOff ≤ e
  others : ∀ c, c ∉ expiries → s.due c = false

/-- What every full reset leaves, whatever stood before (R20, R49, R69, R94, R117, R138, R145, R162, R179, R186, R190): pin and
sense levels, the configuration memory and the waiting commands are kept. -/
structure AfterReset (straps : BitVec 2) (s t : State) : Prop where
  pending : t.pending = s.pending
  profile : t.profile = Config.emptyProfile ∧ t.profStatus = .notYet
  entries : ∀ n, t.sig.entries.get n = { value := 0, quality := .never, age := 0, sequence := 0, due := false }
  motion : t.sig.motion = .unknown ∧ t.sig.hold = none
  inputs : ∀ i, t.inp.inputs.get i =
    { high := (s.inp.inputs.get i).high, filtered := .unsettled, stable := none, resettle := false }
  lines : ∀ l, (t.rx.lines.get l).state = .never ∧ (t.rx.lines.get l).receive = .idle ∧
    (t.rx.lines.get l).hunting = false ∧ (t.rx.lines.get l).counts = {} ∧ (t.rx.lines.get l).silence = none ∧
    (t.rx.lines.get l).gap = none
  owner : t.rx.owner = .none
  slots : ∀ i, t.rx.slots.get i = { data := 0, arrivals := 0, ever := false }
  doors : ∀ d, (t.door.doors.get d).state = .unknown ∧ (t.door.doors.get d).source = .none ∧
    (t.door.doors.get d).cause = .none ∧ (t.door.doors.get d).timer = none ∧ (t.door.doors.get d).countsOpen = false
  summary : t.door.openCount = 0 ∧ t.door.allLocked = false
  warnings : ∀ w, t.warn.rows.get w =
    { state := .inactive, raw := false, present := false, latched := false, timer := none, number := 0, time := 0,
      armed := false, chimed := false, hostSet := false }
  acknowledgement : t.warn.clock = 0 ∧ t.warn.ackLevel = .unknown ∧ t.warn.voidAcks = 0
  lamps : ∀ k, t.ind.lamps.get k =
    { commanded := .off, faultTimer := none, clearTimer := none, lampOpen := false,
      senseOpen := (s.ind.lamps.get k).senseOpen }
  indication : t.ind.blink = .stopped ∧ t.ind.requestLow = 0 ∧ t.ind.requestHigh = 0 ∧ t.ind.lampCheck = none
  gauges : ∀ g, (t.ind.gauges.get g).state = .unhomed ∧ (t.ind.gauges.get g).position = 0 ∧
    (t.ind.gauges.get g).target = 0 ∧ (t.ind.gauges.get g).requested = 0
  chime : t.ind.chime = { selection := none, phase := .silent, test := none }
  window : t.path.straps = straps ∧ t.path.windowOpen = false ∧ t.path.queue = [] ∧ t.path.resync = [] ∧
    t.path.urgent = false ∧ t.path.inFlight = none ∧ t.path.held = none
  commands : t.path.command = none ∧ t.path.result.value = .idle ∧ t.path.violations = 0 ∧ t.path.overruns = 0
  attention : t.path.attnPending = 0 ∧ t.path.attnEnable = 0 ∧ t.atn = false
  supervision : t.sup =
    { state := .starting, reference := none, timer := none, run := 0, pulse := none, spent := false }
  faults : t.fm.present = [] ∧ (∀ i, t.fm.records.get i = none) ∧ t.fm.overflow = 0 ∧ t.fm.full = false ∧
    t.fm.clearing = false ∧ t.fm.writeQueue = [] ∧ t.fm.loaded = false
  service : t.svc.line = .idle ∧ t.svc.address = none ∧ t.svc.testerActive = false ∧ t.svc.level = false ∧
    t.svc.test = .none ∧ t.svc.lastOutcome = .none ∧ t.svc.echoLosses = 0 ∧ t.svc.wakeChar = false
  mode : t.mode.mode = .start ∧ t.mode.inReset = true ∧ t.mode.cycleOpen = false ∧ t.mode.time = 0 ∧
    t.mode.ignition = .unknown ∧ t.mode.offTimer = none ∧ t.mode.wakePending = {} ∧ t.mode.wakeCause = {}
  controller : t.ctrl.operation = .none ∧ t.ctrl.countersPending = false ∧ t.ctrl.store = .none ∧
    t.ctrl.restartWaiting = false
  cutOff : ∀ p, s.ctrl.operation.page = some p → p ∈ t.ctrl.torn
  cfg : t.cfg = s.cfg

/-- A profile restart has begun with a new profile, and its image initialisation runs (R194, Table 11-3). -/
structure Restarted (p : Profile) (s t : State) : Prop where
  profile : t.profile = p ∧ t.profStatus = .inForce ∧ t.loadBuffer = some p
  window : t.path.windowOpen = false ∧ t.path.awaited.isSome = true
  images : ∀ o, isImageOffset o = true → o ∈ t.path.queue.map Prod.fst ++ t.path.resync
  entries : ∀ n, t.sig.entries.get n = { value := 0, quality := .never, age := 0, sequence := 0, due := false }
  motion : t.sig.motion = .unknown ∧ t.sig.hold = none
  inputs : ∀ i, t.inp.inputs.get i =
    { high := (s.inp.inputs.get i).high, filtered := .unsettled, stable := some 0, resettle := false }
  speed : t.inp.timing = false ∧ t.inp.running = true ∧ t.inp.count = 0
  lines : ∀ l, (t.rx.lines.get l).state = .never ∧ (t.rx.lines.get l).receive = .idle ∧ (t.rx.lines.get l).counts = {}
  slots : ∀ i, t.rx.slots.get i = { data := 0, arrivals := 0, ever := false }
  doors : ∀ d, (t.door.doors.get d).state = .unknown ∧ (t.door.doors.get d).source = .none ∧
    (t.door.doors.get d).timer = none ∧ (t.door.doors.get d).openCycles = (s.door.doors.get d).openCycles ∧
    (t.door.doors.get d).obstructions = (s.door.doors.get d).obstructions
  warnings : ∀ w, t.warn.rows.get w =
    { state := .inactive, raw := false, present := false, latched := false, timer := none, number := 0, time := 0,
      armed := false, chimed := false, hostSet := false }
  acknowledgement : t.warn.clock = 0 ∧ t.warn.ackLevel = .unknown ∧ t.warn.voidAcks = s.warn.voidAcks ∧ t.displayOrder = []
  gauges : ∀ g, (t.ind.gauges.get g).state = .unhomed ∧ (t.ind.gauges.get g).requested = 0
  requests : t.ind.requestLow = s.ind.requestLow ∧ t.ind.requestHigh = s.ind.requestHigh
  supervision : t.sup.state = s.sup.state ∧ t.sup.reference = s.sup.reference ∧ t.sup.run = s.sup.run ∧
    t.sup.timer = s.sup.timer ∧ t.sup.pulse = s.sup.pulse
  present : t.fm.present = []
  records : ∀ i r, t.fm.records.get i = some r → r.state = .passive
  test : t.svc.test = .none
  busy : t.path.command = s.path.command

end Sys2Proof.Machine
end

