-- ==== Sys2Proof/WellFormed.lean ====
section
/-! DEFINITION. Well-formed commands: the operands that an event of the part can carry. A meaning is given to the others as well. -/

namespace Sys2Proof

/-- A page has 64 bytes (11 section 11). -/
def PageOutcome.wf : PageOutcome → Bool
  | .stored => true
  | .differs bytes => bytes.length = 64

/-- A request that a tester can send: its address in 0x80 to 0xFE, at most 15 parameters (R166). -/
def requestWf (tester : Byte) (params : List Byte) : Bool :=
  0x80 ≤ tester.toNat && tester.toNat ≤ 0xFE && params.length ≤ 15

/-- The command's operands are those of an event of the part: a completed character has a start bit (R24). -/
def Instr.wf : Instr → Bool
  | .characterComplete _ c => !c.falseStart
  | .faultSlotWriteComplete o => o.wf
  | .countersWriteComplete o => o.wf
  | .profilePageWriteComplete o => o.wf
  | .identify _ tester params => requestWf tester params
  | .readFaults _ tester params => requestWf tester params
  | .readFreeze _ tester params => requestWf tester params
  | .clearFaultsRequest _ tester params => requestWf tester params
  | .readSignals _ tester params => requestWf tester params
  | .readDoors _ tester params => requestWf tester params
  | .readLines _ tester params => requestWf tester params
  | .outputTest _ tester params => requestWf tester params
  | .stopTest _ tester params => requestWf tester params
  | .workshopStatus _ tester params => requestWf tester params
  | _ => true

end Sys2Proof
end

