-- ==== Sys2Proof/Certificates/Slice0/Obligations.lean ====
section
/-! DEFINITION. The statements for the provers. A frame lists the parts that a command may change; the parts in it that the command
only hands on to (images, warnings, lamps, records) are the readers that the spec names. -/

open Sys2Proof Sys2Proof.Machine

/-! ## The step -/

/-- The command at the front of the queue is taken with the queue's rest. -/
def Obligations.StepTakesTheFrontCommand : Prop :=
  ∀ (c : Instr) (rest : List Instr) (s : State), step (s.setPending (c :: rest)) = exec c (s.setPending rest)

/-- A step on an empty queue, which is the model's own (log entry 1). In reset nothing happens. While the time of an expiry has
come, every expiry that is due is queued and no time passes, the overflow of the speed timer, which falls inside the millisecond,
after the others; otherwise one millisecond passes, every age, clock, count, timer and movement advancing by it, and every expiry
that is then due at its end is queued. When the time of each expiry has come, and that an expiry before its time changes nothing, is
log entry 2; a TIMEOUT during a profile restart is log entry 38, where a gauge stands between two milliseconds log entry 24. -/
def Obligations.EmptyQueueLetsAMillisecondPass : Prop :=
  ∀ s : State,
    (s.pending = [] → s.mode.inReset = true → step s = .next s) ∧
    (s.pending = [] → s.running → (∃ c, s.due c = true ∧ c ≠ .speedOverflow) →
      ∃ t, step s = .next t ∧ KeepsBut [.pending] s t ∧ ∀ c, c ∈ t.pending ↔ s.due c = true ∧ c ≠ .speedOverflow) ∧
    (s.pending = [] → s.running → s.due .speedOverflow = true → (∀ c, c ≠ .speedOverflow → s.due c = false) →
      ∃ t, step s = .next t ∧ KeepsBut [.pending] s t ∧ t.pending = [.speedOverflow]) ∧
    (s.pending = [] → s.running → (∀ c, s.due c = false) →
      ∃ t, step s = .next t ∧
        KeepsBut [.pending, .entries, .motion, .inputs, .speed, .lines, .doors, .warnings, .clock, .lamps, .lampCheck, .gauges,
          .chime, .supervision, .records, .service, .tester, .test, .cycle, .ignition] s t ∧
        MillisecondLater s t ∧ ∀ c, c ∈ t.pending ↔ t.due c = true ∧ c ≠ .speedOverflow) ∧
    s.DueWhen ∧
    (∀ c, c ∈ expiries → s.due c = false → exec c s = .next s)

/-- The state after reset is that of a POWER-ON reset, holds the invariant and shows a coherent window. The model's own in it: that
the reset is a POWER-ON reset with the straps 00, no host access held and no image write in flight, is log entry 5; the SRAM with
nothing listed, log entry 6; the configuration memory with nothing listed, log entry 7 (PRESUMED). -/
def Obligations.ResetState : Prop :=
  State.reset.pending = [] ∧ AfterReset 0 State.reset State.reset ∧ State.reset.mode.causes = { powerOn := true } ∧
    State.reset.sram = [] ∧ State.reset.cfg = [] ∧ State.reset.Inv ∧ State.reset.Coherent

/-- Every step keeps the invariant. -/
def Obligations.StepKeepsTheInvariant : Prop := ∀ s t : State, s.Inv → step s = .next t → t.Inv

/-- In a state of the invariant whose window is coherent, every step leaves it coherent: a host read of an image word finds the
word that the owners' state composes. -/
def Obligations.WindowShowsTheLatestWord : Prop :=
  ∀ s t : State, s.Inv → s.Coherent → step s = .next t → t.Coherent

/-! ## Resets and the START sequence -/

/-- The three full resets complete from every state and leave every block as its chapter gives it. While a reset cause lasts, a
command other than a reset, the end of the reset, a pin or a sense does nothing (log entry 4). The model's own in it: the fields
without a stated reset value, the access held and the write in flight, the store and the reports held before among them, are log
entry 5; the SRAM with nothing listed after a POWER-ON reset is log entry 6; that the page of a cut-off write keeps its bytes and is
listed torn is log entry 8. -/
def Obligations.FullResets : Prop :=
  (∀ (straps : BitVec 2) (s : State),
      (∃ t, exec (.powerOnReset straps) s = .next t ∧ AfterReset straps s t ∧ t.mode.causes = { powerOn := true } ∧
        t.sram = [] ∧ t.fm.heldReports = []) ∧
      (∃ t, exec (.supplyLowReset straps) s = .next t ∧ AfterReset straps s t ∧
        t.mode.causes = { s.mode.causes with supplyLow := true } ∧ t.sram = s.sram ∧
        t.fm.heldReports = [{ kind := .supplyLow, subject := 0 }]) ∧
      (∃ t, exec (.pinReset straps) s = .next t ∧ AfterReset straps s t ∧
        t.mode.causes = { s.mode.causes with pin := true } ∧ t.sram = s.sram ∧ t.fm.heldReports = [])) ∧
  (∀ (c : Instr) (s : State), s.mode.inReset = true →
      (∀ w, c ≠ .powerOnReset w) → (∀ w, c ≠ .supplyLowReset w) → (∀ w, c ≠ .pinReset w) → c ≠ .resetEnd →
      (∀ i, c ≠ .logicalLevelChange i) → (∀ k b, c ≠ .openLoadSenseChange k b) → exec c s = .next s)

/-- The end of the reset cause begins the read of the profile; the read puts a valid stored profile into the load buffer, and an
unreadable or invalid one leaves none and holds PROFILE_BAD for the fault memory. The counters block with a correct check
gives the drive-cycle counter and the door counters; otherwise all thirteen are 0 and CONFIG_MEMORY is held for the fault
memory. The model's own in it: the memory's answer is the command's operand, torn pages are listed: log entries 8 and 9. -/
def Obligations.StartReadsProfileAndCounters : Prop :=
  ((∀ s : State, s.mode.inReset = true →
      Gives .resetEnd s [.inReset, .operation] (fun t => t.running ∧ t.ctrl.operation = .startProfileRead)) ∧
    (∀ (answered : Bool) (s : State), s.running → s.ctrl.operation = .startProfileRead → s.fm.loaded = false →
      Gives (.profileReadComplete answered) s [.loadBuffer, .operation, .loading] (fun t =>
        t.ctrl.operation = .startCountersRead ∧
        t.loadBuffer = (if answered then s.storedProfile else none) ∧
        t.fm.loaded = false ∧
        t.fm.heldReports =
          (if answered = true ∧ s.storedProfile.isSome = true then s.fm.heldReports
            else s.fm.heldReports ++ [{ kind := .profileBad, subject := 0 }])))) ∧
  (∀ (answered : Bool) (s : State), s.running → s.ctrl.operation = .startCountersRead → s.fm.loaded = false →
      Gives (.countersBlockRead answered) s [.operation, .cycle, .doors, .loading] (fun t =>
        t.ctrl.operation = .startSlotsRead ∧ t.fm.loaded = false ∧
        (if answered = true ∧ countersPageNo ∉ s.ctrl.torn ∧ pageOk (s.cfgPage countersPageNo) 0 = true then
          t.mode.cycle = (pageWord (s.cfgPage countersPageNo) 0).setWidth 24 ∧
          (∀ d, (t.door.doors.get d).openCycles = pageWord (s.cfgPage countersPageNo) (1 + d.val) ∧
            (t.door.doors.get d).obstructions = pageWord (s.cfgPage countersPageNo) (7 + d.val)) ∧
          t.fm.heldReports = s.fm.heldReports
        else
          t.mode.cycle = 0 ∧ (∀ d, (t.door.doors.get d).openCycles = 0 ∧ (t.door.doors.get d).obstructions = 0) ∧
          t.fm.heldReports = s.fm.heldReports ++ [{ kind := .configMemory, subject := 0 }])))

/-- The read of the fault slots ends the load. Into an empty table, with no report held, every slot page that was read and whose
check is correct gives the PASSIVE record of its slot, or leaves it empty when it is stored empty, whatever the other slots
hold; a record stored ACTIVE has its slot written, but for the kinds that are never written. A bad slot, whose check fails,
whose contents name no record or whose code a lower slot has loaded, gives no record and has its slot written, and it, like a
slot that gave no answer, leaves a PASSIVE record of CONFIG_MEMORY, which is the one record that may stand in such a slot. Then
what was read into the load buffer is in force, or the no-profile state with the cause PROFILE, and image initialisation has
every image word queued or marked. The model's own in it: torn pages and the memory's answers, which are the command's operand:
log entries 8 and 9; a quality or motion number of a stored page that no table lists: log entry 31. -/
def Obligations.StartLoadsTheFaultSlots : Prop :=
  ∀ (answered : BitVec 32) (s : State), s.running → s.ctrl.operation = .startSlotsRead → s.mode.mode = .start →
    Gives (.faultSlotsRead answered) s (.loading :: Part.force ++ Part.faults ++ Part.work) (fun t =>
      t.fm.loaded = true ∧ t.fm.heldReports = [] ∧ t.path.awaited.isSome = true ∧
      (∀ o, isImageOffset o = true → o ∈ t.path.queue.map Prod.fst ++ t.path.resync) ∧
      (∀ p, s.loadBuffer = some p → t.profile = p ∧ t.profStatus = .inForce) ∧
      (s.loadBuffer = none → t.profile = Config.emptyProfile ∧ t.profStatus = .noProfile ∧ t.causePending .profile) ∧
      (∀ (loaded : Fin 32 → Option Record) (bad : Fin 32 → Prop), (∀ i, s.fm.records.get i = none) → s.fm.heldReports = [] →
        s.SlotsLoad answered loaded bad →
        (∀ i r, loaded i = some r → r.code ≠ { kind := .configMemory, subject := 0 } → t.fm.records.get i = some r) ∧
        (∀ i r, loaded i = none → t.fm.records.get i = some r →
          r.code = { kind := .configMemory, subject := 0 } ∧ r.state = .passive) ∧
        ((∀ i, answered.getLsbD i.val = true ∧ ¬ bad i) → ∀ i, t.fm.records.get i = loaded i) ∧
        t.fm.present = s.fm.present ∧
        (∀ i, bad i → i ∈ t.fm.writeQueue ∨ ∃ snapshot, t.ctrl.operation = .slotWrite i snapshot false true) ∧
        ((∃ i, answered.getLsbD i.val = false ∨ bad i) →
          ∃ j r, t.fm.records.get j = some r ∧ r.code = { kind := .configMemory, subject := 0 } ∧ r.state = .passive) ∧
        (∀ i r, loaded i = some r → (pageWord (s.cfgPage (slotPageNo i)) 0).toNat / 2 ^ 16 % 2 ^ 2 = 2 →
          r.code.kind ≠ .configMemory → r.code.kind ≠ .profileBad →
          i ∈ t.fm.writeQueue ∨ ∃ snapshot, t.ctrl.operation = .slotWrite i snapshot false true)) ∧
      (∀ i : Fin 32, answered.getLsbD i.val = true →
        slotPageNo i ∈ s.ctrl.torn ∨ pageOk (s.cfgPage (slotPageNo i)) i.val = false →
        i ∈ t.fm.writeQueue ∨ ∃ snapshot, t.ctrl.operation = .slotWrite i snapshot false true) ∧
      ((∀ i, s.fm.records.get i = none) → s.fm.heldReports = [] →
        (∃ i : Fin 32, answered.getLsbD i.val = false ∨ slotPageNo i ∈ s.ctrl.torn ∨
          pageOk (s.cfgPage (slotPageNo i)) i.val = false) →
        ∃ j r, t.fm.records.get j = some r ∧ r.code = { kind := .configMemory, subject := 0 } ∧ r.state = .passive))

/-! ## Signals and inputs -/

/-- An update delivered by a source, whatever the quality of the entry that takes it (R2); other entries are as they were. -/
def Obligations.UpdateSetsTheEntry : Prop :=
  ∀ (s : State) (n : Fin 256) (v : BitVec 16), s.takesUpdates = true →
    KeepsBut Part.update s (s.deliver n v) ∧
    (∀ m, m ≠ n → s.Unmoved (s.deliver n v) m) ∧
    ((s.profile.signals.get n).low.toInt ≤ v.toInt ∧ v.toInt ≤ (s.profile.signals.get n).high.toInt →
      ((s.deliver n v).sig.entries.get n).value = v ∧ ((s.deliver n v).sig.entries.get n).quality = .good ∧
      ((s.deliver n v).sig.entries.get n).age = 0) ∧
    (¬ ((s.profile.signals.get n).low.toInt ≤ v.toInt ∧ v.toInt ≤ (s.profile.signals.get n).high.toInt) →
      ((s.deliver n v).sig.entries.get n).value = v ∧ ((s.deliver n v).sig.entries.get n).quality = .invalid ∧
      ((s.deliver n v).sig.entries.get n).age = (s.sig.entries.get n).age) ∧
    ((s.profile.signals.get n).high.toInt < (s.profile.signals.get n).low.toInt →
      ((s.deliver n v).sig.entries.get n).quality = .invalid)

/-- The staleness expiry of an entry whose age has passed its limit: STALE with the value kept, or SUBSTITUTED with the substitute
value, the age going on, one new image (R4, R6). -/
def Obligations.StalenessExpiry : Prop :=
  ∀ (n : Fin 256) (s : State), s.running → s.takesUpdates = true → sourceAges (s.profile.signals.get n).source = true →
    (s.profile.signals.get n).freshness ≠ 0 →
    ((s.sig.entries.get n).quality = .good ∨ (s.sig.entries.get n).quality = .invalid) →
    (s.sig.entries.get n).due = true → (s.profile.signals.get n).freshness < (s.sig.entries.get n).age.toNat →
    Gives (.stalenessExpiry n) s (Part.update ++ Part.work) (fun t =>
      t.sig.entries.get n =
        { value := if (s.profile.signals.get n).substitutes then (s.profile.signals.get n).substitute
            else (s.sig.entries.get n).value
          quality := if (s.profile.signals.get n).substitutes then .substituted else .stale
          age := (s.sig.entries.get n).age
          sequence := (s.sig.entries.get n).sequence + 1
          due := false } ∧
      ∀ m, m ≠ n → s.Unmoved t m)

/-- A pin that changes its level: outside a running filter nothing but the level; a running filter's stability timer restarts;
with a debounce time of 0 the filter settles at once (R10). A filter that settles takes the logical level. At a change of the
filtered state, or after a wake resume when a bound entry holds another value, every DISCRETE entry bound to the input takes
one update; every other entry is as it was (R10, R11, R23). The model's own in it: the re-settling after a wake resume is R23
to the letter: log entry 17; a debounce time of 0: log entry 36; an expiry before its time has come changes nothing: log
entry 2. -/
def Obligations.DiscreteInputs : Prop :=
  (∀ (i : Fin 24) (s : State),
      (s.inForce = false ∨ s.mode.inReset = true →
        Gives (.logicalLevelChange i) s ([.inputs] ++ Part.work) (fun t =>
          t.inp.inputs.get i = { s.inp.inputs.get i with high := !(s.inp.inputs.get i).high } ∧
          ∀ j, j ≠ i → t.inp.inputs.get j = s.inp.inputs.get j)) ∧
      (s.running → s.inForce = true → (s.profile.inputs.get i).debounce ≠ 0 →
        Gives (.logicalLevelChange i) s ([.inputs] ++ Part.work) (fun t =>
          t.inp.inputs.get i = { s.inp.inputs.get i with high := !(s.inp.inputs.get i).high, stable := some 0 } ∧
          ∀ j, j ≠ i → t.inp.inputs.get j = s.inp.inputs.get j)) ∧
      (s.running → s.inForce = true → s.mode.mode ≠ .parked → (s.profile.inputs.get i).debounce = 0 →
        Gives (.logicalLevelChange i) s (.inputs :: Part.update ++ Part.work) (fun t =>
          t.inp.inputs.get i =
            { high := !(s.inp.inputs.get i).high
              filtered := if (s.inp.inputs.get i).high = (s.profile.inputs.get i).activeLow then .active else .inactive
              stable := none
              resettle := false } ∧
          ∀ j, j ≠ i → t.inp.inputs.get j = s.inp.inputs.get j))) ∧
  (∀ (i : Fin 24) (s : State) (now : Filtered) (v : BitVec 16) (e : Nat), s.running → s.takesUpdates = true →
      (s.inp.inputs.get i).stable = some e → (s.profile.inputs.get i).debounce ≤ e →
      (if (s.inp.inputs.get i).high = (s.profile.inputs.get i).activeLow then now = .inactive ∧ v = 0
        else now = .active ∧ v = 1) →
      Gives (.debounceSettle i) s (.inputs :: Part.update ++ Part.work) (fun t =>
        t.inp.inputs.get i =
          { high := (s.inp.inputs.get i).high, filtered := now, stable := none, resettle := false } ∧
        (∀ j, j ≠ i → t.inp.inputs.get j = s.inp.inputs.get j) ∧
        (∀ n, (s.profile.signals.get n).source ≠ .discrete i → s.Unmoved t n) ∧
        ((if (s.inp.inputs.get i).resettle then
            ∃ n, (s.profile.signals.get n).source = .discrete i ∧ (s.sig.entries.get n).value ≠ v
          else (s.inp.inputs.get i).filtered ≠ now) →
          ∀ n, (s.profile.signals.get n).source = .discrete i → s.Updated t n v) ∧
        (¬ (if (s.inp.inputs.get i).resettle then
            ∃ n, (s.profile.signals.get n).source = .discrete i ∧ (s.sig.entries.get n).value ≠ v
          else (s.inp.inputs.get i).filtered ≠ now) →
          ∀ n, s.Unmoved t n)))

/-- The speed input: an edge in WAITING starts a count and gives no period; an edge in TIMING gives every SPEED entry K divided by
the period, at most 32 767; the overflow, at a count of 65 535, gives 0 and stops the count, and an edge that comes after the
running count has passed it finds WAITING: every SPEED entry takes 0, the count starts anew and no period ends (R13, R14, R15). The
model's own in it: the edge's units, and that an edge which falls together with the overflow comes in the order in which the two are
sent: log entry 33; before the count falls due the overflow changes nothing: log entry 2. -/
def Obligations.SpeedInput : Prop :=
  ∀ s : State, s.running → s.takesUpdates = true →
    (∀ units : BitVec 16, s.inp.timing = false → (s.inp.running = true → s.inp.count + units.toNat ≤ 65535) →
      Gives (.speedRisingEdge units) s ([.speed] ++ Part.work) (fun t =>
        t.inp.timing = true ∧ t.inp.running = true ∧ t.inp.count = 0 ∧
        t.inp.edgeAt = min 100 (s.inp.edgeAt + units.toNat))) ∧
    (∀ (units : BitVec 16) (period : Nat), s.inp.timing = true →
      (s.inp.running = true → s.inp.count + units.toNat ≤ 65535) → period = max 1 (s.inp.count + units.toNat) →
      Gives (.speedRisingEdge units) s (.speed :: Part.update ++ Part.work) (fun t =>
        t.inp.timing = true ∧ t.inp.running = true ∧ t.inp.count = 0 ∧
        t.inp.edgeAt = min 100 (s.inp.edgeAt + units.toNat) ∧
        (∀ n, (s.profile.signals.get n).source = .speed →
          s.Updated t n (BitVec.ofNat 16 (min (s.profile.k.toNat / period) 32767))) ∧
        ∀ n, (s.profile.signals.get n).source ≠ .speed → s.Unmoved t n)) ∧
    (∀ units : BitVec 16, s.inp.running = true → 65535 < s.inp.count + units.toNat →
      Gives (.speedRisingEdge units) s (.speed :: Part.update ++ Part.work) (fun t =>
        t.inp.timing = true ∧ t.inp.running = true ∧ t.inp.count = 0 ∧
        t.inp.edgeAt = min 100 (s.inp.edgeAt + units.toNat) ∧
        (∀ n, (s.profile.signals.get n).source = .speed → s.Updated t n 0) ∧
        ∀ n, (s.profile.signals.get n).source ≠ .speed → s.Unmoved t n)) ∧
    (s.inp.running = true → 65535 ≤ s.inp.count + (100 - s.inp.edgeAt) →
      Gives .speedOverflow s (.speed :: Part.update ++ Part.work) (fun t =>
        t.inp.timing = false ∧ t.inp.running = false ∧ t.inp.count = 0 ∧
        (∀ n, (s.profile.signals.get n).source = .speed → s.Updated t n 0) ∧
        ∀ n, (s.profile.signals.get n).source ≠ .speed → s.Unmoved t n))

/-- The motion state follows the class of the speed reference, and the hold expiry gives STOPPED (R16, R17, Table 1-6); at a change of
the motion state the workshop level is judged anew (R18, R174). The model's own in it: an expiry before its time has come changes
nothing: log entry 2. -/
def Obligations.MotionFollowsTheReference : Prop :=
  ∀ s : State,
    KeepsBut Part.motionChange s s.deriveMotion ∧
    (s.profile.reference = none → s.deriveMotion.sig.motion = .unknown ∧ s.deriveMotion.sig.hold = none) ∧
    (∀ n, s.profile.reference = some n →
      (s.quality n = .never ∨ s.quality n = .stale ∨ s.quality n = .invalid →
        s.deriveMotion.sig.motion = .unknown ∧ s.deriveMotion.sig.hold = none) ∧
      (s.quality n = .substituted → s.deriveMotion.sig.motion = .moving ∧ s.deriveMotion.sig.hold = none) ∧
      (s.quality n = .good → s.profile.movingThreshold.toInt ≤ (s.value n).toInt →
        s.deriveMotion.sig.motion = .moving ∧ s.deriveMotion.sig.hold = none) ∧
      (s.quality n = .good → (s.value n).toInt < s.profile.movingThreshold.toInt →
        (s.sig.motion = .stopped ∨ s.profile.stopHold = 0 →
          s.deriveMotion.sig.motion = .stopped ∧ s.deriveMotion.sig.hold = none) ∧
        (s.sig.motion ≠ .stopped → s.profile.stopHold ≠ 0 →
          s.deriveMotion.sig.motion = .moving ∧ s.deriveMotion.sig.hold = some (s.sig.hold.getD 0)))) ∧
    (s.deriveMotion.sig.motion ≠ s.sig.motion → s.deriveMotion.LevelJudged) ∧
    (∀ e, s.running → s.sig.hold = some e → s.profile.stopHold ≤ e →
      Gives .holdExpiry s (Part.motionChange ++ Part.work) (fun t =>
        t.sig.motion = .stopped ∧ t.sig.hold = none ∧ (s.sig.motion ≠ .stopped → t.LevelJudged)))

/-- A wake event in PARKED: the device returns to RUN with the cause of the wake (or, with an ignition OFF and a delay of 0, goes
on into PARKING at once: R180), LINE and HOST signals are NEVER, and supervision starts anew, STARTING with no reference (R146); the
character whose start edge woke the device is marked as one that is not received (R12, R23, R47, R178, R184, R185). An input that is
both the ignition's and a wake input is not among the wake events here: log entry 27 has it. The model's own in it: a filter that
leaves UNSETTLED for ACTIVE is an ignition wake: log entry 27; a filter settles when its debounce time has run: log entry 2; that
the expiry of a delay of 0 is taken inside the step: log entry 37; the mark: log entry 39. -/
def Obligations.WakeEventsResume : Prop :=
  ∀ s : State, s.running → s.mode.mode = .parked →
    (∀ (c : Instr) (k : WakeSet),
      (c = .serviceStartEdge ∧ k = { service := true } ∨
        c = .startEdge .front ∧ k = { front := true } ∧ s.inForce = true ∧ (s.profile.lines.get 0).wake = true ∨
        (∃ i, c = .debounceSettle i ∧ k = { input := true } ∧ s.inForce = true ∧
          (∃ e, (s.inp.inputs.get i).stable = some e ∧ (s.profile.inputs.get i).debounce ≤ e) ∧
          (s.profile.inputs.get i).wake = true ∧
          s.ignitionInput i = false ∧
          ((s.inp.inputs.get i).filtered = .inactive ∧
              (s.inp.inputs.get i).high ≠ (s.profile.inputs.get i).activeLow ∧
              (s.profile.inputs.get i).edge ≠ .falling ∨
            (s.inp.inputs.get i).filtered = .active ∧
              (s.inp.inputs.get i).high = (s.profile.inputs.get i).activeLow ∧
              (s.profile.inputs.get i).edge ≠ .rising)) ∨
        (∃ i, c = .debounceSettle i ∧ k = { ignition := true } ∧ s.inForce = true ∧
          (∃ e, (s.inp.inputs.get i).stable = some e ∧ (s.profile.inputs.get i).debounce ≤ e) ∧
          (s.profile.inputs.get i).wake = false ∧
          s.ignitionInput i = true ∧ (s.inp.inputs.get i).filtered ≠ .active ∧
          (s.inp.inputs.get i).high ≠ (s.profile.inputs.get i).activeLow)) →
      Gives c s (.wakeChar :: Part.resumed ++ Part.work) (fun t =>
        t.mode.wakeCause = s.mode.wakePending.union k ∧ t.mode.wakePending = {} ∧ t.causePending .wake ∧
        (t.mode.mode = .run ∨ t.mode.mode = .parking ∧ s.profile.ignitionOff = 0) ∧
        t.sup.state = .starting ∧ t.sup.reference = none ∧ t.svc.wakeChar = (s.svc.wakeChar || k.service) ∧
        (s.inForce = true → ∀ n, sourceAges (s.profile.signals.get n).source = true →
          (t.sig.entries.get n).value = 0 ∧ (t.sig.entries.get n).quality = .never ∧ (t.sig.entries.get n).age = 0) ∧
        (∀ n, sourceAges (s.profile.signals.get n).source = false → s.Unmoved t n)))

/-! ## Body lines -/

/-- Start edges and false starts (R24, R31, R33, R34, R35): an edge on a received line begins a character and stops the gap timer; one
on FRONT or REAR takes the free shared receiver; one on the line that does not hold it costs that line one collision loss and HUNT.
A high start-bit majority ends the character, restarts the gap timer of a frame and gives up a hold that it began. -/
def Obligations.StartEdges : Prop :=
  ∀ (l : Line) (s : State), s.running → s.lineTakes l = true →
    (s.rx.received l = true → (s.line l).inChar = false →
      Gives (.startEdge l) s [.lines] (fun t => s.LineIs t l { s.line l with inChar := true, gap := none })) ∧
    (s.rx.received l = false → s.rx.owner = .none →
      Gives (.startEdge l) s [.lines, .shared] (fun t =>
        s.LineIs t l { s.line l with inChar := true, gap := none } ∧
        t.rx.owner = lineOwner l ∧ t.rx.collision = false ∧ t.rx.firstChar = true)) ∧
    (s.rx.received l = false → s.rx.owner ≠ .none → s.rx.collision = false →
      Gives (.startEdge l) s (.lines :: .shared :: Part.images) (fun t =>
        s.LineIs t l
          { s.line l with
            receive := .hunt
            hunting := true
            counts := { (s.line l).counts with collisions := satInc (s.line l).counts.collisions } } ∧
        t.rx.owner = s.rx.owner ∧ t.rx.collision = true)) ∧
    (∀ x : Samples, s.rx.received l = true → (s.line l).inChar = true →
      (x.majority = true →
        Gives (.startBitSample l x) s [.lines, .shared] (fun t =>
          s.LineIs t l
            { s.line l with
              inChar := false
              gap := if (s.line l).receive.inFrame then some 0 else (s.line l).gap } ∧
          (s.rx.firstChar = true → s.Released t l) ∧ (s.rx.firstChar = false → t.rx.owner = s.rx.owner))) ∧
      (x.majority = false → exec (.startBitSample l x) s = .next s))

/-- A character in IDLE or HUNT: a clean mark character is a header and starts a frame; any other moves the line to HUNT, is counted
nowhere and releases the shared receiver (R27, R34). A character that carries a frame on: the length, and the data bytes (R28). The
model's own in it: a line that is inside no character takes none, so a CHARACTER_COMPLETE without a start edge before it changes
nothing: log entry 3. -/
def Obligations.CharactersOfAFrame : Prop :=
  (∀ (l : Line) (c : CharSamples) (s : State), s.receives l → c.falseStart = false → (s.line l).receive.inFrame = false →
      (c.clean = true → c.mark.majority = true →
        Gives (.characterComplete l c) s (.lines :: .shared :: Part.images ++ Part.work) (fun t =>
          s.LineIs t l
            { s.line l with
              receive := .headerSeen
              hunting := false
              node := c.byte.setWidth 5
              kind := (c.byte >>> 5).setWidth 3
              length := 0
              xor := c.byte
              taken := []
              gap := some 0
              inChar := false } ∧
          t.rx.owner = s.rx.owner)) ∧
      (¬ (c.clean = true ∧ c.mark.majority = true) →
        Gives (.characterComplete l c) s (.lines :: .shared :: Part.images ++ Part.work) (fun t =>
          s.LineIs t l { s.line l with receive := .hunt, hunting := true, inChar := false } ∧ s.Released t l))) ∧
  (∀ (l : Line) (c : CharSamples) (s : State), s.receives l → c.falseStart = false → c.clean = true →
      c.mark.majority = false →
      ((s.line l).receive = .headerSeen → c.byte.toNat ≤ 12 →
        Gives (.characterComplete l c) s (.lines :: Part.images ++ Part.work) (fun t =>
          s.LineIs t l
            { s.line l with
              receive := if c.byte = 0 then .check else .data
              hunting := false
              length := c.byte.toNat
              xor := (s.line l).xor ^^^ c.byte
              gap := some 0
              inChar := false })) ∧
      ((s.line l).receive = .data → (s.line l).hunting = false →
        Gives (.characterComplete l c) s (.lines :: Part.images ++ Part.work) (fun t =>
          s.LineIs t l
            { s.line l with
              receive := if (s.line l).taken.length + 1 = (s.line l).length then .check else .data
              taken := (s.line l).taken ++ [c.byte]
              xor := (s.line l).xor ^^^ c.byte
              gap := some 0
              inChar := false }))) ∧
  ∀ (l : Line) (c : CharSamples) (s : State), (s.line l).inChar = false → exec (.characterComplete l c) s = .next s

/-- A character that ends a frame without acceptance: FRAMING, NOISE, LONG and CHECK discards leave HUNT and release the hold; a clean
mark character is a TRUNCATED discard and the header of a new frame, the hold kept (R28, R29, R34). -/
def Obligations.CharacterDiscardsAFrame : Prop :=
  ∀ (l : Line) (c : CharSamples) (s : State), s.receives l → c.falseStart = false → (s.line l).receive.inFrame = true →
    (c.clean = true → c.mark.majority = true →
      Gives (.characterComplete l c) s (.lines :: .shared :: Part.images ++ Part.work) (fun t =>
        s.LineIs t l
          { s.line l with
            receive := .headerSeen
            hunting := false
            node := c.byte.setWidth 5
            kind := (c.byte >>> 5).setWidth 3
            length := 0
            xor := c.byte
            taken := []
            gap := some 0
            inChar := false
            counts := { (s.line l).counts with truncated := satInc (s.line l).counts.truncated } } ∧
        t.rx.owner = s.rx.owner)) ∧
    (c.framing = true →
      Gives (.characterComplete l c) s (.lines :: .shared :: Part.images ++ Part.work) (fun t =>
        s.LineIs t l
          ((s.line l).lost { (s.line l).counts with framing := satInc (s.line l).counts.framing }) ∧ s.Released t l)) ∧
    (c.framing = false → c.noisy = true →
      Gives (.characterComplete l c) s (.lines :: .shared :: Part.images ++ Part.work) (fun t =>
        s.LineIs t l ((s.line l).lost { (s.line l).counts with noise := satInc (s.line l).counts.noise }) ∧
          s.Released t l)) ∧
    (c.clean = true → c.mark.majority = false → (s.line l).receive = .headerSeen → 12 < c.byte.toNat →
      Gives (.characterComplete l c) s (.lines :: .shared :: Part.images ++ Part.work) (fun t =>
        s.LineIs t l
          { (s.line l).lost { (s.line l).counts with long := satInc (s.line l).counts.long } with
            xor := (s.line l).xor ^^^ c.byte } ∧ s.Released t l)) ∧
    (c.clean = true → c.mark.majority = false → (s.line l).receive = .check → (s.line l).xor ≠ c.byte →
      Gives (.characterComplete l c) s (.lines :: .shared :: Part.images ++ Part.work) (fun t =>
        s.LineIs t l
          { (s.line l).lost { (s.line l).counts with check := satInc (s.line l).counts.check } with
            xor := (s.line l).xor ^^^ c.byte } ∧ s.Released t l))

/-- A frame whose check is correct: IGNORED without a slot for its key, a LENGTH discard with another length than the slot's, and
otherwise accepted, with the slot's data, arrival count and flag, the line's marks and timer, and one update of every LINE signal
bound to the slot (R37, R39, R41). -/
def Obligations.CheckedFrame : Prop :=
  ∀ (l : Line) (c : CharSamples) (s : State), s.receives l → c.falseStart = false → c.clean = true →
    c.mark.majority = false → (s.line l).receive = .check → (s.line l).xor = c.byte →
    (s.slotFor l (s.line l).node (s.line l).kind = none →
      Gives (.characterComplete l c) s (.lines :: .shared :: Part.images ++ Part.work) (fun t =>
        s.LineIs t l
          { s.line l with
            receive := .idle
            hunting := false
            xor := 0
            gap := none
            inChar := false
            counts := { (s.line l).counts with ignored := satInc (s.line l).counts.ignored } } ∧ s.Released t l)) ∧
    (∀ (i : Fin 64) (k : SlotCfg), s.slotFor l (s.line l).node (s.line l).kind = some i →
      s.profile.slots.get i = some k →
      (k.length ≠ (s.line l).length →
        Gives (.characterComplete l c) s (.lines :: .shared :: Part.images ++ Part.work) (fun t =>
          s.LineIs t l
            { (s.line l).lost { (s.line l).counts with length := satInc (s.line l).counts.length } with xor := 0 } ∧
          s.Released t l)) ∧
      (k.length = (s.line l).length →
        Gives (.characterComplete l c) s (Part.accepted ++ Part.work) (fun t =>
          s.LineIs t l
            { s.line l with
              receive := .idle
              hunting := false
              xor := 0
              gap := none
              inChar := false
              everAccepted := true
              silentMark := false
              silence := armedSilence (s.profile.lines.get l.toFin)
              counts := { (s.line l).counts with accepted := satInc (s.line l).counts.accepted } } ∧
          s.Released t l ∧
          t.rx.slots.get i =
            { data := packData (s.line l).taken, arrivals := satInc (s.rx.slots.get i).arrivals, ever := true } ∧
          (∀ j, j ≠ i → t.rx.slots.get j = s.rx.slots.get j) ∧
          (∀ n start length signed, (s.profile.signals.get n).source = .line i start length signed →
            s.Updated t n (lineField (packData (s.line l).taken) start length signed)) ∧
          (∀ n, (∀ start length signed, (s.profile.signals.get n).source ≠ .line i start length signed) →
            s.Unmoved t n))))

/-- The field of a LINE signal: bit b of the data is bit b mod 8 of data byte b div 8, missing bytes are 0; unsigned fields are
clamped to 32 767, signed ones are two's complement; a field beyond bit 95 makes the profile invalid (R38). -/
def Obligations.LineSignalField : Prop :=
  (∀ (bytes : List Byte) (b k : Nat), bytes.length ≤ 12 → b < 12 → k < 8 →
    (packData bytes).getLsbD (8 * b + k) = (bytes.getD b 0).getLsbD k) ∧
  (∀ (data : BitVec 96) (start length : Nat), 1 ≤ length → length ≤ 16 → start + length ≤ 96 →
    (lineField data start length false).toInt = (min (data.extractLsb' start length).toNat 32767 : Nat) ∧
    (lineField data start length true).toInt = (data.extractLsb' start length).toInt) ∧
  (∀ (rd : Nat → Byte) (n : Nat), n < 256 → rd (atSignal n) = 3 →
    96 < (rd (atSignal n + 3)).toNat + (rd (atSignal n + 4)).toNat → validProfile rd = false)

/-- A break event counts, ends a frame as a BREAK discard, leaves HUNT and releases the hold, in every receive state and for every
line (R26, R27, R32, R34). The gap expiry is a TRUNCATED discard; the silence expiry marks the line silent once and reports it
(R31, R40, R43). The model's own in it: an expiry before its time has come changes nothing: log entry 2. -/
def Obligations.BreaksGapsAndSilence : Prop :=
  (∀ (l : Line) (s : State), s.running → s.lineTakes l = true →
      ((s.line l).receive.inFrame = true →
        Gives (.breakEvent l) s (.lines :: .shared :: Part.images) (fun t =>
          s.LineIs t l
            ((s.line l).lost
              { (s.line l).counts with
                breaks := satInc (s.line l).counts.breaks
                brk := satInc (s.line l).counts.brk }) ∧ s.Released t l)) ∧
      ((s.line l).receive.inFrame = false →
        Gives (.breakEvent l) s (.lines :: .shared :: Part.images) (fun t =>
          s.LineIs t l
            { s.line l with
              receive := .hunt
              hunting := true
              inChar := false
              counts := { (s.line l).counts with breaks := satInc (s.line l).counts.breaks } } ∧ s.Released t l))) ∧
  (∀ (l : Line) (e : Nat) (s : State), s.running → s.linesRun = true →
      ((s.line l).receive.inFrame = true → (s.line l).gap = some e →
        (s.profile.lines.get l.toFin).gap < e →
        Gives (.gapExpiry l) s (.lines :: .shared :: Part.images) (fun t =>
          s.LineIs t l
            { s.line l with
              receive := .hunt
              hunting := true
              gap := none
              counts := { (s.line l).counts with truncated := satInc (s.line l).counts.truncated } } ∧
          s.Released t l)) ∧
      ((s.line l).silence = some e → (silenceLimit (s.profile.lines.get l.toFin).silence).getD 0 ≤ e →
        Gives (.silenceExpiry l) s (.lines :: Part.faults ++ Part.work) (fun t =>
          s.LineIs t l { s.line l with silentMark := true, silence := none } ∧
          (t.line l).state = (if (s.line l).broken then .broken else .silent) ∧
          ((s.line l).broken = false → (s.line l).silentMark = false →
            Reported s t { kind := .lineSilent, subject := BitVec.ofNat 8 l.toFin.val }))))

/-- The broken event makes the line BROKEN and reports it; the return derives its state from silent mark and ever-accepted flag
and withdraws the report; a BROKEN line takes no edge, no character and no break (R42, R43). The model's own in it: that a
BROKEN line takes none is log entry 3; who times the low period, log entry 25. -/
def Obligations.BrokenAndReturn : Prop :=
  ∀ (l : Line) (s : State), s.running → s.linesRun = true →
    ((s.line l).broken = false →
      Gives (.brokenEvent l) s (.lines :: Part.faults ++ Part.work) (fun t =>
        s.LineIs t l { s.line l with broken := true } ∧ (t.line l).state = .broken ∧
        Reported s t { kind := .lineBreak, subject := BitVec.ofNat 8 l.toFin.val })) ∧
    ((s.line l).broken = true →
      Gives (.returnEvent l) s (.lines :: Part.faults ++ Part.work) (fun t =>
        s.LineIs t l { s.line l with broken := false } ∧
        (t.line l).state =
          (if (s.line l).silentMark then .silent else if (s.line l).everAccepted then .active else .never) ∧
        ({ kind := .lineBreak, subject := BitVec.ofNat 8 l.toFin.val } : FaultCode) ∉ t.fm.present) ∧
      Gives (.startEdge l) s Part.work (fun _ => True) ∧
      (∀ c, exec (.characterComplete l c) s = .next s) ∧ (∀ x, exec (.startBitSample l x) s = .next s) ∧
      exec (.breakEvent l) s = .next s)

/-! ## Doors -/

/-- A door timer's expiry: FAULT with the cause of its purpose, the timer idle, the fault reported, the other doors as they were
(R57, R58, R60, R63). Before that, the derivation of a door with a usable controller code: the state of the code, FAULT with
cause CODE for the code FAULT, a SLOW_OPEN, SLOW_CLOSE or DISAGREE that lasts as its rule says, the motion timer started at an
entry into OPENING or CLOSING and kept while the door stays there, the DISAGREE timer started when a contradiction begins and
kept while it lasts, no timer otherwise (R53, R56, R57, R58). The model's own in it: an expiry before its time has come changes
nothing: log entry 2. -/
def Obligations.DoorTimers : Prop :=
  (∀ (c : Instr) (d : Fin 6) (p : DoorPurpose) (cause : DoorCause) (kind : FaultKind) (e limit : Nat) (s : State),
    (c = .openTimeoutExpiry d ∧ p = .openMotion ∧ cause = .slowOpen ∧ kind = .doorSlowOpen ∧
        limit = (s.profile.doors.get d).openTimeout ∨
      c = .closeTimeoutExpiry d ∧ p = .closeMotion ∧ cause = .slowClose ∧ kind = .doorSlowClose ∧
        limit = (s.profile.doors.get d).closeTimeout ∨
      c = .disagreementExpiry d ∧ p = .disagree ∧ cause = .disagree ∧ kind = .doorDisagree ∧
        limit = (s.profile.doors.get d).tolerance) →
    s.running → (s.door.doors.get d).timer = some (p, e) → limit < e →
    Gives c s (.doors :: Part.faults ++ Part.work) (fun t =>
      t.door.doors.get d =
        { s.door.doors.get d with
          state := .fault
          cause := cause
          timer := none
          countsOpen := (s.profile.doors.get d).present } ∧
      (∀ o, o ≠ d → t.door.doors.get o = s.door.doors.get o) ∧
      t.door.openCount = (t.door.doors.indices Door.countsOpen).length ∧
      ((s.door.doors.get d).cause = .none → Reported s t { kind := kind, subject := BitVec.ofNat 8 d.val }))) ∧
  (∀ (s : State) (cfg : DoorCfg) (x : Door) (v : BitVec 16) (code : DoorState), s.usableValue cfg.controller = some v →
    codeNames v code →
    (s.derive cfg x).source = .controller ∧
    (s.disagrees cfg v →
      (x.cause = .disagree → s.derive cfg x = { x with source := .controller }) ∧
      (x.cause ≠ .disagree → x.timer.map Prod.fst = some .disagree →
        s.derive cfg x = { x with state := code, source := .controller, cause := .none }) ∧
      (x.cause ≠ .disagree → x.timer.map Prod.fst ≠ some .disagree →
        s.derive cfg x = { x with state := code, source := .controller, cause := .none, timer := some (.disagree, 0) })) ∧
    (¬ s.disagrees cfg v →
      (code = .fault → s.derive cfg x = { x with state := .fault, source := .controller, cause := .code, timer := none }) ∧
      (code = .opening → x.cause = .slowOpen → s.derive cfg x = { x with source := .controller }) ∧
      (code = .closing → x.cause = .slowClose → s.derive cfg x = { x with source := .controller }) ∧
      (code = .opening → x.cause ≠ .slowOpen →
        s.derive cfg x =
          { x with
            state := .opening
            source := .controller
            cause := .none
            timer := if x.state = .opening then x.timer else some (.openMotion, 0) }) ∧
      (code = .closing → x.cause ≠ .slowClose →
        s.derive cfg x =
          { x with
            state := .closing
            source := .controller
            cause := .none
            timer := if x.state = .closing then x.timer else some (.closeMotion, 0) }) ∧
      (code ≠ .fault → code ≠ .opening → code ≠ .closing →
        s.derive cfg x = { x with state := code, source := .controller, cause := .none, timer := none })))

/-- Without a usable controller code a door is derived from its switches (R54). -/
def Obligations.DegradedDoor : Prop :=
  ∀ (s : State) (cfg : DoorCfg) (x : Door),
    (cfg.controller = none ∨
      ∃ n, cfg.controller = some n ∧ (s.quality n = .never ∨ s.quality n = .stale ∨ s.quality n = .invalid)) →
    (s.rederive cfg x).timer = none ∧ (s.rederive cfg x).cause = .none ∧
    (∀ v, s.usableValue cfg.closed = some v → v ≠ 0 →
      (s.rederive cfg x).source = .degraded ∧
      (∀ u, s.usableValue cfg.locked = some u → u ≠ 0 → (s.rederive cfg x).state = .closedLocked) ∧
      (s.usableValue cfg.locked = none ∨ s.usableValue cfg.locked = some 0 → (s.rederive cfg x).state = .closed)) ∧
    (s.usableValue cfg.closed = some 0 → (s.rederive cfg x).source = .degraded ∧ (s.rederive cfg x).state = .opened) ∧
    (s.usableValue cfg.closed = none → (s.rederive cfg x).source = .none ∧ (s.rederive cfg x).state = .unknown)

/-- The door counters look at the state that a door leaves and the state it enters, and saturate (R61). A present door counts open while
it is neither CLOSED nor CLOSED_LOCKED, and a closed RAMP door while its ramp signal is GOOD and nonzero (R63). A handed change of a
signal derives every door bound to it, several where several are, and leaves the others as they are; the counts-open flags of the
derived doors, the open count and the all-closed-locked flag follow (R55, R63). The model's own in it: several doors bound to one signal
are derived in ascending order: log entry 12; with a disagreement tolerance of 0 the state of the code is passed through before the
expiry that follows at once (R58), and the counters see it: log entry 37. -/
def Obligations.DoorCounters : Prop :=
  ∀ s : State,
    (∀ (cfg : DoorCfg) (x : Door),
      (s.rederive cfg x).openCycles =
        (if (s.derive cfg x).state = .opened ∧
            (x.state = .unknown ∨ x.state = .closedLocked ∨ x.state = .closed ∨ x.state = .opening ∨ x.state = .closing) then
          (if x.openCycles = 4294967295 then 4294967295 else x.openCycles + 1)
        else x.openCycles) ∧
      (s.rederive cfg x).obstructions =
        (if (s.derive cfg x).state = .reversing ∧ x.state ≠ .reversing then
          (if x.obstructions = 4294967295 then 4294967295 else x.obstructions + 1)
        else x.obstructions) ∧
      (s.countsOpen cfg x = true ↔
        cfg.present = true ∧
          (x.state ≠ .closed ∧ x.state ≠ .closedLocked ∨
            cfg.ramp = true ∧ ∃ m, cfg.rampOut = some m ∧ s.quality m = .good ∧ s.value m ≠ 0))) ∧
    ∀ n : Fin 256,
      (∀ d, boundDoor (s.profile.doors.get d) n = true →
        (s.doorsHanded n).door.doors.get d =
          { s.rederive (s.profile.doors.get d) (s.door.doors.get d) with
            countsOpen := s.countsOpen (s.profile.doors.get d)
              (s.rederive (s.profile.doors.get d) (s.door.doors.get d)) }) ∧
      (∀ d, boundDoor (s.profile.doors.get d) n = false → (s.doorsHanded n).door.doors.get d = s.door.doors.get d) ∧
      ((∃ d, boundDoor (s.profile.doors.get d) n = true) → (s.doorsHanded n).SummaryTaken) ∧
      ((∀ d, boundDoor (s.profile.doors.get d) n = false) → (s.doorsHanded n).door = s.door)

/-! ## Warnings -/

/-- The delay timers' expiries: activation with the next number at the clock's reading, or the end of the warning, a latching
one that nobody acknowledged being held (R78, R79, R80, R81). An evaluation of some warnings in RUN with a profile in force and
no profile restart in progress (log entry 28): each one's raw condition is what its condition says of the state, its condition
present is that while its motion gate is open, and a change of it takes the warning as R78 to R80 say (R72 to R77). The model's
own in it: an expiry before its time has come changes nothing: log entry 2. -/
def Obligations.WarningDelays : Prop :=
  (∀ (w : Fin 96) (e : Nat) (s : State), s.running → s.warningsRun = true →
    ((s.warn.rows.get w).timer = some (.onDelay, e) → (s.profile.warnings.get w).onDelay ≤ e →
      Gives (.onDelayExpiry w) s Part.evaluation (fun t =>
        (t.warn.rows.get w).state = .activeUnack ∧ (t.warn.rows.get w).timer = none ∧
        (t.warn.rows.get w).latched = false ∧ (t.warn.rows.get w).armed = false ∧
        (t.warn.rows.get w).number = (s.warn.rows.get w).number + 1 ∧ (t.warn.rows.get w).time = s.warn.clock ∧
        t.causePending .warning ∧
        (∀ v, v ≠ w → { t.warn.rows.get v with chimed := false } = { s.warn.rows.get v with chimed := false }))) ∧
    ((s.warn.rows.get w).timer = some (.offDelay, e) → (s.profile.warnings.get w).offDelay ≤ e →
      Gives (.offDelayExpiry w) s Part.evaluation (fun t =>
        (t.warn.rows.get w).timer = none ∧ (t.warn.rows.get w).number = (s.warn.rows.get w).number ∧
        (t.warn.rows.get w).time = (s.warn.rows.get w).time ∧
        (if (s.warn.rows.get w).state = .activeUnack ∧ (s.profile.warnings.get w).latching = true then
          (t.warn.rows.get w).state = .activeUnack ∧ (t.warn.rows.get w).latched = true
        else
          (t.warn.rows.get w).state = .inactive ∧ (t.warn.rows.get w).latched = false ∧
          (t.warn.rows.get w).armed = false) ∧
        (∀ v, v ≠ w → { t.warn.rows.get v with chimed := false } = { s.warn.rows.get v with chimed := false })))) ∧
  (∀ (named : WarnCfg → Bool) (s : State), s.warningsRun = true →
    KeepsBut Part.evaluation s (s.evalWarnings named) ∧
    ∀ w,
      (named (s.profile.warnings.get w) = true → (s.profile.warnings.get w).condition ≠ .unused →
        (((s.evalWarnings named).warn.rows.get w).raw = true ↔
          s.conditionHolds (s.warn.rows.get w).raw (s.warn.rows.get w).hostSet (s.profile.warnings.get w).condition) ∧
        ((s.evalWarnings named).warn.rows.get w).present =
          (((s.evalWarnings named).warn.rows.get w).raw && gateOpen s.sig.motion (s.profile.warnings.get w).gate) ∧
        TakesPresence (s.profile.warnings.get w) s.warn.clock (s.warn.rows.get w) ((s.evalWarnings named).warn.rows.get w)) ∧
      (named (s.profile.warnings.get w) = false ∨ (s.profile.warnings.get w).condition = .unused →
        { (s.evalWarnings named).warn.rows.get w with chimed := false } = { s.warn.rows.get w with chimed := false }))

/-- A read of a warning cell returns the newest word, at once or when the M-port is free for it, and arms the warning exactly when
it is ACTIVE_UNACK; a closed window answers zero and arms nothing (R83, R120, R128, R129). A summary read returns every pending
cause and removes what it returned; a closed window answers zero and removes nothing (R133). The model's own in it: that a forwarded
read is whole at its grant: log entry 11; that a read which waits for the M-port arms the warning when it is taken: log entry 44. -/
def Obligations.ReadsWithAnEffect : Prop :=
  (∀ (w : Fin 96) (s : State), s.running → s.portFree = true →
      (s.path.windowOpen = true →
        Gives (.warningCellRead w) s [.readData, .held, .warnings] (fun t =>
          ReadsImage s t (offWarning w) (s.latestWord (offWarning w)) ∧
          (∀ v, v ≠ w → t.warn.rows.get v = s.warn.rows.get v) ∧
          t.warn.rows.get w =
            { s.warn.rows.get w with
              armed := (s.warn.rows.get w).armed || decide ((s.warn.rows.get w).state = .activeUnack) })) ∧
      (s.path.windowOpen = false → Gives (.warningCellRead w) s [.readData] (fun t => t.path.readData = 0))) ∧
  (∀ s : State, s.running → s.portFree = true →
      (s.path.windowOpen = true →
        Gives .attentionSummaryRead s [.readData, .attnPending] (fun t =>
          t.path.readData = s.path.attnPending.setWidth 32 ∧ t.path.attnPending = 0 ∧ t.atn = false)) ∧
      (s.path.windowOpen = false → Gives .attentionSummaryRead s [.readData] (fun t => t.path.readData = 0)))

/-- An ACK on an armed ACTIVE_UNACK warning acknowledges it, a latched one ending; any other ACK changes no warning and counts one
void ACK. The word reaches no memory (R81, R82, R84, R123). SET and RESET on a HOST_SET warning: in RUN the flag is set or
cleared, the raw condition is the flag, the condition present is that while the gate is open, and a change of it takes the warning
as its delays say: pending, activated, kept, timed out, held or ended; outside RUN the word is dropped (R76 to R80, R92, R123). The
ack input: a handed change of its signal sets the level, high, low or unknown, and a rising edge in RUN acknowledges the first
ACTIVE_UNACK warning of the display order, armed or not, or nothing where there is none (R85, R92); an update that changes the bound
signal is handed to it. The model's own in it: that no edge acknowledges anything while a profile restart keeps the window closed:
log entry 28; when the level is set to unknown: log entries 16 and 50. -/
def Obligations.HostAckSetAndReset : Prop :=
  (∀ (w : Fin 96) (s : State), s.hostReady →
      ((s.warn.rows.get w).armed = true → (s.warn.rows.get w).state = .activeUnack →
        Gives (.ack w) s Part.evaluation (fun t => Acknowledged s t w)) ∧
      ((s.warn.rows.get w).armed = false ∨ (s.warn.rows.get w).state ≠ .activeUnack →
        Gives (.ack w) s (.voidAcks :: Part.images) (fun t => t.warn.voidAcks = satInc s.warn.voidAcks))) ∧
  (∀ (w : Fin 96) (b : Bool) (c : Instr) (s : State), (b = true ∧ c = .set w ∨ b = false ∧ c = .reset w) →
      s.hostReady → (s.profile.warnings.get w).condition = .hostSet →
      (s.mode.mode = .run → s.inForce = true →
        Gives c s Part.evaluation (fun t =>
          (t.warn.rows.get w).hostSet = b ∧ (t.warn.rows.get w).raw = b ∧
          (t.warn.rows.get w).present = (b && gateOpen s.sig.motion (s.profile.warnings.get w).gate) ∧
          TakesPresence (s.profile.warnings.get w) s.warn.clock (s.warn.rows.get w) (t.warn.rows.get w) ∧
          (∀ v, v ≠ w → { t.warn.rows.get v with chimed := false } = { s.warn.rows.get v with chimed := false }))) ∧
      (s.mode.mode ≠ .run → exec c s = .next s)) ∧
  ∀ (n : Fin 256) (s : State),
    (s.profile.ackInput ≠ some n ∨ s.mode.mode = .parking ∨ s.mode.mode = .parked → s.ackInput n = s) ∧
    (s.profile.ackInput = some n → s.mode.mode ≠ .parking → s.mode.mode ≠ .parked →
      (s.ackInput n).AckLevelOf n ∧
      (¬ (s.warn.ackLevel = .low ∧ s.quality n = .good ∧ s.value n ≠ 0) ∨ s.warningsRun = false ∨
          (∀ w, (s.warn.rows.get w).state ≠ .activeUnack) →
        KeepsBut [.ackLevel] s (s.ackInput n)) ∧
      (∀ w, s.warn.ackLevel = .low → s.quality n = .good → s.value n ≠ 0 → s.mode.mode = .run → s.inForce = true →
        s.path.windowOpen = true → s.FirstUnack w →
        KeepsBut (.ackLevel :: Part.evaluation) s (s.ackInput n) ∧ Acknowledged s (s.ackInput n) w) ∧
      (∀ v, s.takesUpdates = true →
        s.value n ≠ (s.deliver n v).value n ∨ s.quality n ≠ (s.deliver n v).quality n → (s.deliver n v).AckLevelOf n))

/-- Host writes to a warning cell that are protection violations: a partial write, a word that is none of ACK, SET and RESET, and SET
or RESET to a warning of another kind. The write is dropped, one violation is counted, PROTECTION is set (R86, R124). -/
def Obligations.WarningCellViolations : Prop :=
  ∀ (w : Fin 96) (c : Instr) (s : State), s.hostReady →
    ((∃ word lanes, c = .windowWrite (s.windowWordAddr (offWarning w)) word lanes ∧
        (lanes ≠ 0xF ∨ word ≠ Config.ackWord ∧ word ≠ Config.setWord ∧ word ≠ Config.resetWord)) ∨
      (c = .set w ∨ c = .reset w ∨
          (∃ word, c = .windowWrite (s.windowWordAddr (offWarning w)) word 0xF ∧
            (word = Config.setWord ∨ word = Config.resetWord))) ∧
        (s.profile.warnings.get w).condition ≠ .hostSet) →
    Gives c s (.violations :: Part.images) (fun t =>
      t.path.violations = satInc s.path.violations ∧ t.causePending .protection)

/-- Two warnings of the display order: the first key in which they differ decides (R87). -/
def Obligations.DisplayOrder : Prop :=
  ∀ s : State, (∀ w, (s.profile.warnings.get w).priority ≤ 255) →
    s.displayOrder.Nodup ∧
    (∀ w, w ∈ s.displayOrder ↔
      (s.warn.rows.get w).state = .activeUnack ∨ (s.warn.rows.get w).state = .activeAck) ∧
    ∀ (i j : Nat) (v w : Fin 96), s.displayOrder[i]? = some v → s.displayOrder[j]? = some w → i < j →
      toLex ((s.profile.warnings.get v).cls.toNat,
        toLex ((if (s.warn.rows.get v).state = .activeUnack then 0 else 1 : Nat),
          toLex (255 - (s.profile.warnings.get v).priority,
            toLex ((s.warn.rows.get v).time.toNat, v.val)))) <
      toLex ((s.profile.warnings.get w).cls.toNat,
        toLex ((if (s.warn.rows.get w).state = .activeUnack then 0 else 1 : Nat),
          toLex (255 - (s.profile.warnings.get w).priority,
            toLex ((s.warn.rows.get w).time.toNat, w.val))))

/-! ## Indication -/

/-- The commanded state of a telltale. In RUN with a profile in force: ON in a lamp check or a LAMP test, BLINK or ON while a source of
its function set is true, as Table 5-2 gives each kind of source, OFF otherwise (R96, R97). In PARKING and PARKED: ON while a
WARNING source names a warning that is ACTIVE_UNACK or ACTIVE_ACK, OFF otherwise (R115). In the no-profile state: telltale 0 ON as
the instrument-fault lamp but in PARKING and PARKED, every other telltale OFF; and OFF from a full reset until a profile comes into
force, and then until RUN (R117). An evaluation commands each telltale what its commanded state then is (R98). -/
def Obligations.TelltaleCommanded : Prop :=
  ∀ (s : State) (k : Fin 48),
    (s.mode.mode = .run → s.inForce = true →
      (s.ind.lampCheck.isSome = true ∨ s.svc.test = .lamp → s.commanded k = .on) ∧
      (s.ind.lampCheck = none → s.svc.test ≠ .lamp →
        ((∃ q ∈ (s.profile.lamps.get k).sources, s.sourceHolds k q) →
          ((s.profile.lamps.get k).blinkUnack = true ∧
              (∃ w, LampSource.warning w ∈ (s.profile.lamps.get k).sources ∧ (s.warn.rows.get w).state = .activeUnack) →
            s.commanded k = .blink) ∧
          (¬ ((s.profile.lamps.get k).blinkUnack = true ∧
              ∃ w, LampSource.warning w ∈ (s.profile.lamps.get k).sources ∧ (s.warn.rows.get w).state = .activeUnack) →
            s.commanded k = .on)) ∧
        (¬ (∃ q ∈ (s.profile.lamps.get k).sources, s.sourceHolds k q) → s.commanded k = .off)) ∧
      (∀ w, LampSource.warning w ∈ (s.profile.lamps.get k).sources →
        (s.warn.rows.get w).state = .activeUnack ∨ (s.warn.rows.get w).state = .activeAck → s.commanded k ≠ .off)) ∧
    (s.mode.mode = .parking ∨ s.mode.mode = .parked → s.inForce = true →
      ((∃ w, LampSource.warning w ∈ (s.profile.lamps.get k).sources ∧ s.sourceHolds k (.warning w)) → s.commanded k = .on) ∧
      (¬ (∃ w, LampSource.warning w ∈ (s.profile.lamps.get k).sources ∧ s.sourceHolds k (.warning w)) →
        s.commanded k = .off)) ∧
    (s.profStatus = .noProfile →
      (k = 0 ∧ s.mode.mode ≠ .parking ∧ s.mode.mode ≠ .parked → s.commanded k = .on) ∧
      (k ≠ 0 ∨ s.mode.mode = .parking ∨ s.mode.mode = .parked → s.commanded k = .off)) ∧
    (s.profStatus = .notYet ∨ s.inForce = true ∧ s.mode.mode = .start → s.commanded k = .off) ∧
    (s.evalAllLamps.ind.lamps.get k).commanded = s.commanded k

/-- The blink clock's half period ends: the other phase begins, commanded states stand, and a telltale with sensing that was and stays
driven keeps its open-load timers (R99, R101). The open-load sense of a telltale: a change stops both timers and starts the one
of the new level while the telltale is driven; the open-load expiry makes LAMP_OPEN present, the clear expiry makes it absent
(R101). The model's own in it: an expiry before its time has come changes nothing: log entry 2. -/
def Obligations.BlinkAndOpenLoad : Prop :=
  (∀ (ms : Nat) (s : State), s.running → 500 ≤ ms →
      (s.ind.blink = .onPhase ms →
        Gives .blinkPhaseEnd s [.lamps] (fun t =>
          t.ind.blink = .offPhase 0 ∧
          (∀ k, t.ind.lamps.get k =
            { s.ind.lamps.get k with
              faultTimer := if (s.ind.lamps.get k).commanded = .on ∧ (s.profile.lamps.get k).sensing = true
                then (s.ind.lamps.get k).faultTimer else none
              clearTimer := if (s.ind.lamps.get k).commanded = .on ∧ (s.profile.lamps.get k).sensing = true
                then (s.ind.lamps.get k).clearTimer else none }))) ∧
      (s.ind.blink = .offPhase ms →
        Gives .blinkPhaseEnd s [.lamps] (fun t =>
          t.ind.blink = .onPhase 0 ∧
          (∀ k,
            ((s.ind.lamps.get k).commanded = .on → (s.profile.lamps.get k).sensing = true →
              t.ind.lamps.get k = s.ind.lamps.get k) ∧
            ((s.ind.lamps.get k).commanded = .blink → (s.profile.lamps.get k).sensing = true →
              t.ind.lamps.get k =
                { s.ind.lamps.get k with
                  faultTimer := if (s.ind.lamps.get k).senseOpen then some 0 else none
                  clearTimer := if (s.ind.lamps.get k).senseOpen then none else some 0 }) ∧
            ((s.ind.lamps.get k).commanded = .off ∨ (s.profile.lamps.get k).sensing = false →
              t.ind.lamps.get k = { s.ind.lamps.get k with faultTimer := none, clearTimer := none }))))) ∧
  (∀ (k : Fin 48) (s : State),
      (∀ b, b ≠ (s.ind.lamps.get k).senseOpen →
        Gives (.openLoadSenseChange k b) s [.lamps] (fun t =>
          t.ind.lamps.get k =
            { s.ind.lamps.get k with
              senseOpen := b
              faultTimer := if (s.profile.lamps.get k).sensing && lampDriven s.ind.blink (s.ind.lamps.get k) && b
                then some 0 else none
              clearTimer := if (s.profile.lamps.get k).sensing && lampDriven s.ind.blink (s.ind.lamps.get k) && !b
                then some 0 else none } ∧
          t.ind.blink = s.ind.blink ∧ ∀ j, j ≠ k → t.ind.lamps.get j = s.ind.lamps.get j)) ∧
      exec (.openLoadSenseChange k (s.ind.lamps.get k).senseOpen) s = .next s ∧
      (∀ e, s.running → (s.ind.lamps.get k).faultTimer = some e → 200 ≤ e →
        Gives (.openLoadExpiry k) s (Part.faults ++ Part.work) (fun t =>
          (t.ind.lamps.get k).lampOpen = true ∧
          (∀ j, j ≠ k → (t.ind.lamps.get j).lampOpen = (s.ind.lamps.get j).lampOpen) ∧
          ((s.ind.lamps.get k).lampOpen = false →
            Reported s t { kind := .lampOpen, subject := BitVec.ofNat 8 k.val }))) ∧
      (∀ e, s.running → (s.ind.lamps.get k).clearTimer = some e → 200 ≤ e →
        Gives (.clearExpiry k) s (Part.faults ++ Part.work) (fun t =>
          (t.ind.lamps.get k).lampOpen = false ∧
          (∀ j, j ≠ k → (t.ind.lamps.get j).lampOpen = (s.ind.lamps.get j).lampOpen) ∧
          ((s.ind.lamps.get k).lampOpen = true →
            ({ kind := .lampOpen, subject := BitVec.ofNat 8 k.val } : FaultCode) ∉ t.fm.present))))

/-- A lamp request word reaches its copy, and SRAM at once or when the M-port is free for it, and every telltale whose request bit
changed is evaluated if its function set names HOST_REQUEST; the lamp check's end evaluates every telltale (R98, R102, R103, R121,
R129). The model's own in it: that a forwarded write is whole at its grant: log entry 11; an expiry before its time has come changes
nothing: log entry 2. -/
def Obligations.LampRequests : Prop :=
  ∀ s : State,
    (∀ (upper : Bool) (word : Word), s.hostReady → s.mode.mode ≠ .parked →
      Memory.wf Config.sramErased s.sram = true →
      Gives (.lampRequestWrite upper word) s [.requests, .lamps, .sram, .held] (fun t =>
        t.ind.requestHigh = (if upper then word else s.ind.requestHigh) ∧
        t.ind.requestLow = (if upper then s.ind.requestLow else word) ∧
        Forwards s s t (s.windowAddr (if upper then 0x0684 else 0x0680)) word 0xF ∧
        ∀ k, LampSource.hostRequest ∈ (s.profile.lamps.get k).sources →
          s.ind.requestBit k ≠ t.ind.requestBit k → (t.ind.lamps.get k).commanded = t.commanded k)) ∧
    (∀ (upper : Bool) (word : Word), s.hostReady → s.mode.mode = .parked →
      exec (.lampRequestWrite upper word) s = .next s) ∧
    (∀ e, s.running → s.ind.lampCheck = some e → s.profile.lampCheck ≤ e →
      Gives .lampCheckExpiry s [.lampCheck, .lamps] (fun t =>
        t.ind.lampCheck = none ∧ ∀ k, (t.ind.lamps.get k).commanded = t.commanded k))

/-- The homing completion, once the drive's time has run: position 0, READY or PARKED as its cause decides, the target of that state
taken at once (R105, R106, R109). An arrival: the pointer stands at its target. In TEST the sweep goes from DOWN to UP and from
UP to RETURN, and at the arrival in RETURN the gauge leaves TEST for READY or PARKED; the last one completes a GAUGE_SWEEP test
(R106, R110, R175, R177). A gauge that stands at its target, in TEST too, takes no arrival (R106). The model's own in it: an event
whose time has not come changes nothing: log entry 2. -/
def Obligations.GaugeEvents : Prop :=
  (∀ (g : Fin 12) (e : Nat) (s : State), s.running → (s.ind.gauges.get g).state = .homing →
      (s.ind.gauges.get g).homing = some e → stepsTime (s.profile.gauges.get g) ≤ e →
      Gives (.homingCompletion g) s (.gauges :: Part.images) (fun t =>
        (t.ind.gauges.get g).position = 0 ∧ (t.ind.gauges.get g).homing = none ∧
        (t.ind.gauges.get g).requested = (s.ind.gauges.get g).requested ∧
        (t.ind.gauges.get g).state =
          (match (s.profile.gauges.get g).mode with
            | .off => .ready
            | .bound n _ _ => if s.quality n = .good ∨ s.quality n = .substituted then .ready else .parked
            | .host => if s.sup.state = .lost then .parked else .ready) ∧
        (t.ind.gauges.get g).target =
          (if (t.ind.gauges.get g).state = .ready then (s.ind.gauges.get g).requested else (s.profile.gauges.get g).park) ∧
        (t.ind.gauges.get g).moving = decide ((t.ind.gauges.get g).target ≠ 0) ∧
        ∀ h, h ≠ g → t.ind.gauges.get h = s.ind.gauges.get h)) ∧
  (∀ (g : Fin 12) (s : State), (s.ind.gauges.get g).moving = false → exec (.arrival g) s = .next s) ∧
  (∀ (g : Fin 12) (s : State), s.running → (s.ind.gauges.get g).moving = true →
      (s.ind.gauges.get g).position = (s.ind.gauges.get g).target →
      ((s.ind.gauges.get g).state = .ready ∨ (s.ind.gauges.get g).state = .parked →
        s.svc.test ≠ .gaugeSweep ∨ (∃ h, (s.ind.gauges.get h).state = .test) →
        Gives (.arrival g) s (.gauges :: Part.images) (fun t =>
          t.ind.gauges.get g =
            { s.ind.gauges.get g with
              position := (s.ind.gauges.get g).target
              moving := false
              shown := (s.ind.gauges.get g).target } ∧
          ∀ h, h ≠ g → t.ind.gauges.get h = s.ind.gauges.get h)) ∧
      ((s.ind.gauges.get g).state = .test → (s.ind.gauges.get g).sweep = some .down →
        Gives (.arrival g) s (.gauges :: Part.images) (fun t =>
          (t.ind.gauges.get g).state = .test ∧ (t.ind.gauges.get g).sweep = some .up ∧
          (t.ind.gauges.get g).position = (s.ind.gauges.get g).target ∧
          (t.ind.gauges.get g).target = (s.profile.gauges.get g).full ∧
          ∀ h, h ≠ g → t.ind.gauges.get h = s.ind.gauges.get h)) ∧
      ((s.ind.gauges.get g).state = .test → (s.ind.gauges.get g).sweep = some .up →
        Gives (.arrival g) s (.gauges :: Part.images) (fun t =>
          (t.ind.gauges.get g).state = .test ∧ (t.ind.gauges.get g).sweep = some .back ∧
          (t.ind.gauges.get g).position = (s.ind.gauges.get g).target ∧ (t.ind.gauges.get g).target = 0 ∧
          ∀ h, h ≠ g → t.ind.gauges.get h = s.ind.gauges.get h)) ∧
      ((s.ind.gauges.get g).state = .test → (s.ind.gauges.get g).sweep = some .back →
        Gives (.arrival g) s (.gauges :: .test :: Part.images) (fun t =>
          (t.ind.gauges.get g).state =
            (match (s.profile.gauges.get g).mode with
              | .off => .ready
              | .bound n _ _ => if s.quality n = .good ∨ s.quality n = .substituted then .ready else .parked
              | .host => if s.sup.state = .lost then .parked else .ready) ∧
          (t.ind.gauges.get g).sweep = none ∧ (t.ind.gauges.get g).position = (s.ind.gauges.get g).target ∧
          (t.ind.gauges.get g).requested = (s.ind.gauges.get g).requested ∧
          (t.ind.gauges.get g).target =
            (if (t.ind.gauges.get g).state = .ready then (s.ind.gauges.get g).requested
              else (s.profile.gauges.get g).park) ∧
          (t.ind.gauges.get g).moving = decide ((t.ind.gauges.get g).target ≠ (s.ind.gauges.get g).target) ∧
          (∀ h, h ≠ g → t.ind.gauges.get h = s.ind.gauges.get h) ∧
          (s.svc.test = .gaugeSweep → (∀ h, h ≠ g → (s.ind.gauges.get h).state ≠ .test) →
            t.svc.test = .none ∧ t.svc.lastOutcome = .completed) ∧
          (s.svc.test ≠ .gaugeSweep ∨ (∃ h, h ≠ g ∧ (s.ind.gauges.get h).state = .test) →
            t.svc.test = s.svc.test ∧ t.svc.lastOutcome = s.svc.lastOutcome))))

/-- A BOUND gauge's position for a value, truncated towards zero and clamped to full scale; a reversed scale by the same formula (R107). -/
def Obligations.BoundGaugePosition : Prop :=
  ∀ (full : Nat) (rawZero rawFull v : BitVec 16),
    boundTarget full rawZero rawFull v ≤ full ∧
    (rawZero = rawFull →
      (v.toInt < rawZero.toInt → boundTarget full rawZero rawFull v = 0) ∧
      (rawZero.toInt ≤ v.toInt → boundTarget full rawZero rawFull v = full)) ∧
    (rawZero.toInt < rawFull.toInt →
      (v.toInt ≤ rawZero.toInt → boundTarget full rawZero rawFull v = 0) ∧
      (rawFull.toInt ≤ v.toInt → boundTarget full rawZero rawFull v = full) ∧
      (rawZero.toInt ≤ v.toInt → v.toInt ≤ rawFull.toInt →
        (boundTarget full rawZero rawFull v : Int) * (rawFull.toInt - rawZero.toInt) ≤ full * (v.toInt - rawZero.toInt) ∧
        (full : Int) * (v.toInt - rawZero.toInt) <
          (boundTarget full rawZero rawFull v + 1) * (rawFull.toInt - rawZero.toInt))) ∧
    (rawFull.toInt < rawZero.toInt →
      (rawZero.toInt ≤ v.toInt → boundTarget full rawZero rawFull v = 0) ∧
      (v.toInt ≤ rawFull.toInt → boundTarget full rawZero rawFull v = full) ∧
      (rawFull.toInt ≤ v.toInt → v.toInt ≤ rawZero.toInt →
        (boundTarget full rawZero rawFull v : Int) * (rawZero.toInt - rawFull.toInt) ≤ full * (rawZero.toInt - v.toInt) ∧
        (full : Int) * (rawZero.toInt - v.toInt) <
          (boundTarget full rawZero rawFull v + 1) * (rawZero.toInt - rawFull.toInt)))

/-- The chime's phases: a SINGLE falls silent at its tone end and the next candidate is selected; a REPEAT is silent and sounds
again; the CHIME test goes through its three phases, and its end completes it, selects the first candidate and begins that
warning's pattern from its start (R112, R113, R114, R177). The model's own in it: an expiry before its time has come changes
nothing: log entry 2. -/
def Obligations.ChimePhases : Prop :=
  ∀ (ms : Nat) (s : State), s.running →
    (s.ind.chime.phase = .singleTone ms → 300 ≤ ms → s.ind.chime.test = none →
      Gives .toneEnd s [.chime, .chimed] (fun t =>
        t.ind.chime.selection = (s.setChime { s.ind.chime with phase := .silent }).firstCandidate ∧
        (t.ind.chime.selection = none → t.ind.chime.sounding = false))) ∧
    (s.ind.chime.phase = .repeatTone ms → 300 ≤ ms →
      Gives .toneEnd s [.chime] (fun t => t.ind.chime = { s.ind.chime with phase := .repeatSilence ms })) ∧
    (s.ind.chime.phase = .repeatSilence ms → 1500 ≤ ms →
      Gives .repeatPeriodExpiry s [.chime] (fun t => t.ind.chime = { s.ind.chime with phase := .repeatTone 0 })) ∧
    (s.ind.chime.test = some (.tone ms) → 300 ≤ ms →
      Gives .chimeTestPhaseEnd s [.chime] (fun t => t.ind.chime = { s.ind.chime with test := some (.repeated 0) })) ∧
    (s.ind.chime.test = some (.repeated ms) → 3000 ≤ ms →
      Gives .chimeTestPhaseEnd s [.chime] (fun t => t.ind.chime = { s.ind.chime with test := some (.steady 0) })) ∧
    (s.ind.chime.test = some (.steady ms) → 1000 ≤ ms → s.svc.test = .chime →
      Gives .chimeTestPhaseEnd s Part.testEnd (fun t =>
        t.svc.test = .none ∧ t.svc.lastOutcome = .completed ∧ t.ind.chime.test = none ∧
        t.ind.chime.selection = (s.setChime { selection := none, phase := .silent, test := none }).firstCandidate ∧
        t.PatternBegun))

/-! ## The image window -/

/-- A full write to a HOST signal's cell or a HOST gauge's target word is held until its grant; one to another signal or gauge is
a violation; in PARKED, and while the window is closed, it is dropped (R122, R124, R128, R137). The model's own in it: the
port takes one access at a time: log entry 10. -/
def Obligations.CapturedWritesAreHeld : Prop :=
  ∀ (c : Instr) (h : HeldAccess) (host : Prop) (s : State),
    ((∃ n word, c = .hostSignalWrite n word ∧ h = .signal n word ∧
        (host ↔ (s.profile.signals.get n).source = .host)) ∨
      (∃ g word, c = .hostGaugeTargetWrite g word ∧ h = .gauge g word ∧
        (host ↔ (s.profile.gauges.get g).mode = .host))) →
    s.running → s.portFree = true →
    (s.path.windowOpen = true → host → s.mode.mode ≠ .parked →
      Gives c s [.held] (fun t => t.path.held = some h)) ∧
    (s.path.windowOpen = true → host → s.mode.mode = .parked → exec c s = .next s) ∧
    (s.path.windowOpen = true → ¬ host →
      Gives c s (.violations :: Part.images) (fun t =>
        t.path.violations = satInc s.path.violations ∧ t.causePending .protection)) ∧
    (s.path.windowOpen = false → exec c s = .next s)

/-- The grant of a held write: the owner takes the value and the composed word goes to SRAM; a held write whose window has closed or
whose device is PARKED is dropped (R5, R108, R122). The model's own in it: the order inside the grant is log entries 11 and 34; that
any other access which the P-port holds waits on: log entry 44. -/
def Obligations.CapturedWriteGrant : Prop :=
  ∀ s : State, s.running → s.hostGranted = true → Memory.wf Config.sramErased s.sram = true →
    (∀ n word, s.path.held = some (.signal n word) → s.path.windowOpen = true → s.mode.mode ≠ .parked →
      s.inForce = true → (s.profile.signals.get n).source = .host →
      Gives .capturedWriteGrant s (Part.granted ++ Part.work) (fun t =>
        t.path.held = none ∧ s.Updated t n (word.setWidth 16) ∧
        (t.sig.entries.get n).sequence = (s.sig.entries.get n).sequence + 1 ∧
        (∀ m, m ≠ n → s.Unmoved t m) ∧
        StoresWord Config.sramErased s.sram t.sram (s.windowAddr (4 * n.val)) (signalWord (t.sig.entries.get n)) 0xF)) ∧
    (∀ g word, s.path.held = some (.gauge g word) → s.path.windowOpen = true → s.mode.mode ≠ .parked →
      (s.profile.gauges.get g).mode = .host →
      Gives .capturedWriteGrant s (.held :: .awaited :: .sram :: .gauges :: Part.images ++ Part.work) (fun t =>
        t.path.held = none ∧
        (t.ind.gauges.get g).requested = min (word.setWidth 16).toNat (s.profile.gauges.get g).full ∧
        ((s.ind.gauges.get g).state = .ready →
          (t.ind.gauges.get g).target = min (word.setWidth 16).toNat (s.profile.gauges.get g).full) ∧
        ((s.ind.gauges.get g).state ≠ .ready → (t.ind.gauges.get g).target = (s.ind.gauges.get g).target) ∧
        (∀ j, j ≠ g → t.ind.gauges.get j = s.ind.gauges.get j) ∧
        StoresWord Config.sramErased s.sram t.sram (s.windowAddr (0x0620 + 8 * g.val))
          (BitVec.ofNat 32 (t.ind.gauges.get g).requested) 0xF)) ∧
    ((∃ n word, s.path.held = some (.signal n word)) ∨ (∃ g word, s.path.held = some (.gauge g word)) →
      s.path.windowOpen = false ∨ s.mode.mode = .parked →
      Gives .capturedWriteGrant s (.held :: Part.work) (fun t => t.path.held = none)) ∧
    (∀ x, s.path.held = some (.forwarded x) → exec .capturedWriteGrant s = .next s)

/-- A host write of any word: outside the window it goes to SRAM with its byte enables; a word that nothing owns is plain; a write
to a part-owned word, a partial write to a captured or command-bearing word, and a write to the staging area during a store are
violations; a closed window drops writes but to its three live cells (R119, R124, R128). What goes to SRAM waits while the M-port is
taken (R129). The model's own in it: that a forwarded write is whole at its grant: log entry 11; a partial write to a live cell of a
closed window: log entry 15. -/
def Obligations.WindowWrites : Prop :=
  ∀ (a : BitVec 22) (word : Word) (lanes : BitVec 4) (s : State), s.running → s.portFree = true →
    Memory.wf Config.sramErased s.sram = true →
    (s.windowOffset a = none →
      Gives (.windowWrite a word lanes) s [.sram, .held] (fun t => Forwards s s t (4 * a.toNat) word lanes)) ∧
    (∀ off, s.windowOffset a = some off →
      off < 0x4000 ∧ 4 * a.toNat = s.windowAddr off ∧
      (s.path.windowOpen = true → isLiveCell off = false → isReadOnly off = false → isOwned off = false →
        (off < 0x2000 ∨ s.ctrl.store = .none) →
        Gives (.windowWrite a word lanes) s [.sram, .held] (fun t => Forwards s s t (s.windowAddr off) word lanes)) ∧
      ((s.path.windowOpen = true ∧
          (0x0400 ≤ off ∧ off < 0x0460 ∨ 0x0600 ≤ off ∧ off < 0x0620 ∨
            0x0620 ≤ off ∧ off < 0x0680 ∧ off % 8 = 4 ∨ off = 0x0694 ∨ off = 0x0698 ∨ off = 0x06A4 ∨
            off = 0x06A8 ∨ off = 0x06AC ∨ 0x0700 ≤ off ∧ off < 0x1000 ∨
            0x2000 ≤ off ∧ s.ctrl.store ≠ .none ∨
            lanes ≠ 0xF ∧ (off < 0x0400 ∨ 0x0480 ≤ off ∧ off < 0x0600 ∨ 0x0620 ≤ off ∧ off < 0x0688)) ∨
          lanes ≠ 0xF ∧ (off = 0x0690 ∨ off = 0x069C ∨ off = 0x06A0)) →
        Gives (.windowWrite a word lanes) s (.violations :: Part.images) (fun t =>
          t.path.violations = satInc s.path.violations ∧ t.causePending .protection)) ∧
      (s.path.windowOpen = false → off ≠ 0x0690 → off ≠ 0x069C → off ≠ 0x06A0 →
        exec (.windowWrite a word lanes) s = .next s))

/-- A host read of an image word is answered from the update queue, from live state, or from SRAM, wherever the newest word stands;
every other word of an open window is answered from SRAM, but for the attention summary, whose read returns and removes the pending
causes; a read of a warning's word arms it as the row of warning cells does; a closed window reads zero but for its live cells (R83,
R119, R120, R128, R133). A read that is answered from SRAM waits while the M-port is taken, and returns the word as it stood when
the read was taken (R120, R129). In a state of the invariant every image word is laid out as chapter 12 gives it: each field of Tables
12-1 to 12-5 at its bits with the numbers listed, every other bit 0 (R195); a gauge's words and a freeze frame's counts are so while
the positions fit 12 bits and the counts 3. The model's own in it: that a forwarded read is whole at its grant: log entry 11; that one
which waits arms its warning when it is taken: log entry 44. -/
def Obligations.ImageWordReads : Prop :=
  (WindowNumbers ∧ ∀ s : State, s.Inv → s.WindowLayout) ∧
  ∀ (a : BitVec 22) (s : State), s.running → s.portFree = true →
    (s.windowOffset a = none →
      Gives (.imageWordRead a) s [.readData, .held] (fun t => Returns s t (s.sramWord (4 * a.toNat)))) ∧
    (∀ off, s.windowOffset a = some off →
      (off = 0x0690 ∨ off = 0x069C ∨ off = 0x06A0 →
        Gives (.imageWordRead a) s [.readData, .held] (fun t => Returns s t (s.sramWord (s.windowAddr off)))) ∧
      (s.path.windowOpen = false → off ≠ 0x0690 → off ≠ 0x069C → off ≠ 0x06A0 →
        Gives (.imageWordRead a) s [.readData] (fun t => t.path.readData = 0)) ∧
      (s.path.windowOpen = true →
        0x0460 ≤ off ∧ off < 0x0480 ∨ 0x0680 ≤ off ∧ off < 0x0690 ∨ 0x06B0 ≤ off ∧ off < 0x0700 ∨ 0x1000 ≤ off →
        Gives (.imageWordRead a) s [.readData, .held] (fun t => Returns s t (s.sramWord (s.windowAddr off)))) ∧
      (s.path.windowOpen = true → off = 0x0698 →
        Gives (.imageWordRead a) s [.readData, .attnPending] (fun t =>
          t.path.readData = s.path.attnPending.setWidth 32 ∧ t.path.attnPending = 0)) ∧
      (∀ parts, s.path.windowOpen = true → isImageOffset off = true →
        ((off < 0x0480 ∨ 0x0600 ≤ off) ∧ parts = [.readData, .held] ∨
          0x0480 ≤ off ∧ off < 0x0600 ∧ parts = [.readData, .held, .warnings]) →
        Gives (.imageWordRead a) s parts (fun t =>
          (∀ w, (off, w) ∈ s.path.queue → (s.path.queue.map Prod.fst).Nodup →
            t.path.readData = w ∧ t.path.held = none) ∧
          (off ∉ s.path.queue.map Prod.fst → off ∈ s.path.resync →
            t.path.readData = s.imageWord off ∧ t.path.held = none) ∧
          (off ∉ s.path.queue.map Prod.fst → off ∉ s.path.resync → Returns s t (s.sramWord (s.windowAddr off))) ∧
          (∀ w, off = offWarning w →
            (∀ v, v ≠ w → t.warn.rows.get v = s.warn.rows.get v) ∧
            t.warn.rows.get w =
              { s.warn.rows.get w with
                armed := (s.warn.rows.get w).armed || decide ((s.warn.rows.get w).state = .activeUnack) }))))

/-- An offered image word coalesces into its entry, leaves a mark as it is, is appended while fewer than 32 entries stand, and is
otherwise marked, with UPDATE_OVERFLOW while the window is open (R125). The urgent flag becomes set by the entry with which the queue
reaches 24, and no offer changes it otherwise (R129; with at most 8 entries it is clear, ImageWriter). -/
def Obligations.OfferedImages : Prop :=
  ∀ (p : MemoryPath) (off : Nat) (w : Word),
    (off ∈ p.queue.map Prod.fst →
      (p.offer off w).queue = p.queue.map (fun e => if e.1 = off then (off, w) else e) ∧
      (p.offer off w).resync = p.resync ∧ (p.offer off w).attnPending = p.attnPending ∧ (p.offer off w).urgent = p.urgent) ∧
    (off ∉ p.queue.map Prod.fst → off ∈ p.resync → p.offer off w = p) ∧
    (off ∉ p.queue.map Prod.fst → off ∉ p.resync → p.queue.length < 32 →
      (p.offer off w).queue = p.queue ++ [(off, w)] ∧ (p.offer off w).resync = p.resync ∧
      (p.offer off w).attnPending = p.attnPending ∧
      (23 ≤ p.queue.length → (p.offer off w).urgent = true) ∧
      (p.queue.length < 23 → 8 ≤ p.queue.length ∨ p.urgent = false → (p.offer off w).urgent = p.urgent)) ∧
    (off ∉ p.queue.map Prod.fst → off ∉ p.resync → 32 ≤ p.queue.length →
      (p.offer off w).queue = p.queue ∧ (p.offer off w).urgent = p.urgent ∧ (∀ o, o ∈ (p.offer off w).resync ↔ o = off ∨ o ∈ p.resync) ∧
      (p.offer off w).attnPending =
        (if p.windowOpen then p.attnPending ||| Cause.mask .updateOverflow else p.attnPending))

/-- The image writer: a grant writes the head entry's word, which stays in the queue; at the completion it leaves unless a newer
word replaced it, and marked words follow until the queue holds eight; the urgent flag becomes clear when an entry that leaves brings
the queue down to 8; a host access that waits for the M-port is then carried out, unless the image writer goes first (R126, R127, R129). The last write of an image initialisation opens the window: START ends, or
the profile restart ends with the cause PROFILE and its command is DONE (R128, R191, R194). The model's own in it: the word is in
SRAM from the grant on while its entry stays queued: log entry 11; what an initialisation still awaits is kept as log entries 20 and
32 say; the moment of a waiting access's grant: log entry 44. -/
def Obligations.ImageWriter : Prop :=
  (∀ (e h : Nat × Word) (rest : List (Nat × Word)) (s : State), s.running → s.path.queue = h :: rest →
      (s.path.inFlight = none → s.path.urgent = true ∨ s.path.held = none →
        Memory.wf Config.sramErased s.sram = true →
        Gives .imageWriteGrant s [.inFlight, .sram] (fun t =>
          t.path.inFlight = some h ∧ StoresWord Config.sramErased s.sram t.sram (s.windowAddr h.1) h.2 0xF)) ∧
      (s.path.inFlight = none → s.path.urgent = false → s.path.held.isSome = true →
        exec .imageWriteGrant s = .next s) ∧
      (s.path.inFlight = some e → s.path.awaited = none →
        (s.mode.mode = .parking → s.fm.writeQueue ≠ [] ∨ s.ctrl.countersPending = true) →
        Memory.wf Config.sramErased s.sram = true →
        Gives .imageWriteComplete s (.inFlight :: .queue :: Part.forwarded ++ Part.work) (fun t =>
          t.path.inFlight = none ∧ WaitingServed s t ∧
          ∃ q, q = (if h = e then rest else h :: rest) ∧
            t.path.queue = q ++ (s.path.resync.take (8 - q.length)).map (fun o => (o, s.imageWord o)) ∧
            t.path.resync = s.path.resync.drop (8 - q.length) ∧
            (h = e → rest.length ≤ 8 → t.path.urgent = false) ∧
            (h = e → 8 < rest.length → rest.length < 24 ∨ s.path.urgent = true → t.path.urgent = s.path.urgent) ∧
            (h ≠ e → 8 ≤ q.length ∨ s.path.urgent = false → t.path.urgent = s.path.urgent)))) ∧
  (∀ (e : Nat × Word) (s : State), s.running → s.path.queue = [e] → s.path.inFlight = some e →
      s.path.resync = [] → s.path.awaited = some [e.1] →
      Gives .imageWriteComplete s (Part.imagesEnd ++ .inFlight :: Part.forwarded ++ Part.workFlushed) (fun t =>
        (s.path.held = none → t.path.held = none ∧ t.path.readData = s.path.readData ∧ t.sram = s.sram) ∧
        t.path.windowOpen = true ∧ t.path.awaited = none ∧ t.path.inFlight = none ∧ t.mode.mode ≠ .start ∧
        t.svc.address = s.profile.address ∧
        (s.mode.mode ≠ .start →
          t.causePending .profile ∧ t.causePending .command ∧ t.path.command = none ∧ t.path.result.value = .done)))

/-! ## Commands and attention -/

/-- The commands that complete at once: CLEAR_CAUSES empties the reset cause set, CLEAR_STATS clears counts and arrival counts and
nothing else of the lines, PARK_NOW enters PARKING; each is DONE with the cause COMMAND (R45, R130, R131, R180, R190). The command
word goes to SRAM as a plain write (R130), at once or when the M-port is free for it (R129). The commands that go on: CLEAR_FAULTS
takes a clear with all 32 slots outstanding, the present codes given records anew, PENDING or confirmed at once, in slots 0 to 31 and
counted as overflow beyond them; PROFILE_STORE begins its validation, RESTART waits for the controller or has it read (a
page of a store, whose command is busy, is never read meanwhile); each is IN_PROGRESS (R130, R131, R149, R150, R160, R192, R193). The model's
own in it: that a forwarded write is whole at its grant: log entry 11. -/
def Obligations.CommandsTaken : Prop :=
  (∀ (upper : BitVec 24) (s : State), s.running → s.portFree = true → s.path.command = none →
      Memory.wf Config.sramErased s.sram = true →
      (s.mode.mode = .run ∨ s.mode.mode = .parking →
        Gives (.clearCauses upper) s (.command :: .result :: .sram :: .held :: .causes :: Part.images) (fun t =>
          t.mode.causes = {} ∧ t.path.command = none ∧
          t.path.result = { value := .done, code := 4, reason := .none } ∧ t.causePending .command ∧
          Forwards s s t (s.windowAddr 0x0690) (upper ++ (4 : Byte)) 0xF)) ∧
      (s.mode.mode = .run ∨ s.mode.mode = .parking →
        Gives (.clearStats upper) s (.command :: .result :: .sram :: .held :: .lines :: .slots :: Part.images) (fun t =>
          (∀ l, t.rx.lines.get l = { s.rx.lines.get l with counts := {} }) ∧
          (∀ i, t.rx.slots.get i = { s.rx.slots.get i with arrivals := 0 }) ∧ t.path.command = none ∧
          t.path.result = { value := .done, code := 5, reason := .none } ∧ t.causePending .command ∧
          Forwards s s t (s.windowAddr 0x0690) (upper ++ (5 : Byte)) 0xF)) ∧
      (s.mode.mode = .run → s.goodNonzero s.profile.ignition = false →
        Gives (.parkNow upper) s (.command :: .result :: .sram :: .held :: Part.ignitionJudged ++ Part.work) (fun t =>
          t.mode.mode = .parking ∧ t.path.command = none ∧
          t.path.result = { value := .done, code := 6, reason := .none } ∧ t.causePending .command ∧
          Forwards s s t (s.windowAddr 0x0690) (upper ++ (6 : Byte)) 0xF))) ∧
  (∀ (upper : BitVec 24) (s : State), s.running → s.portFree = true → s.path.command = none →
      Memory.wf Config.sramErased s.sram = true →
      (s.mode.mode = .run ∨ s.mode.mode = .parking → s.svc.level = true → s.fm.clearing = false →
        Gives (.clearFaultsCommand upper) s (.command :: .result :: .sram :: .held :: .clear :: Part.faults ++ Part.work) (fun t =>
          t.path.command = some 1 ∧ t.path.result = { value := .inProgress, code := 1, reason := .none } ∧
          ClearTaken s t ∧ t.fm.requester = some .command ∧
          Forwards s s t (s.windowAddr 0x0690) (upper ++ (1 : Byte)) 0xF)) ∧
      (s.mode.mode = .run →
        Gives (.profileStore upper) s (.command :: .result :: .sram :: .held :: .store :: Part.images) (fun t =>
          t.path.command = some 2 ∧ t.path.result = { value := .inProgress, code := 2, reason := .none } ∧
          t.ctrl.store = .validating ∧
          Forwards s s t (s.windowAddr 0x0690) (upper ++ (2 : Byte)) 0xF)) ∧
      (s.mode.mode = .run →
        Gives (.restart upper) s (.command :: .result :: .sram :: .held :: Part.images ++ Part.work) (fun t =>
          t.path.command = some 3 ∧ t.path.result = { value := .inProgress, code := 3, reason := .none } ∧
          (s.ctrl.operation = .none → s.fm.loaded = true → s.ctrl.store = .none →
            t.ctrl.operation = .restartRead ∧ t.ctrl.restartWaiting = false) ∧
          (s.ctrl.operation ≠ .none → (∀ p n k, s.ctrl.operation ≠ .storeRead p n k) →
            t.ctrl.operation = s.ctrl.operation ∧ t.ctrl.restartWaiting = true) ∧
          Forwards s s t (s.windowAddr 0x0690) (upper ++ (3 : Byte)) 0xF)))

/-- Commands refused, and the overrun: START and PARKED refuse every known command NOT_ALLOWED, a check of Table 6-3 that fails
gives its reason, an unknown code is BAD_CODE; the word of a refused command has gone to SRAM as a plain write; a command written
while one is busy is dropped and counted (R129 to R131). The model's own in it: that a forwarded write is whole at its grant: log
entry 11. -/
def Obligations.CommandsRefused : Prop :=
  ∀ (c : Instr) (upper : BitVec 24) (code : Byte) (s : State),
    (c = .clearFaultsCommand upper ∧ code = 1 ∨ c = .profileStore upper ∧ code = 2 ∨ c = .restart upper ∧ code = 3 ∨
      c = .clearCauses upper ∧ code = 4 ∨ c = .clearStats upper ∧ code = 5 ∨ c = .parkNow upper ∧ code = 6 ∨
      c = .windowWrite (s.windowWordAddr 0x0690) (upper ++ code) 0xF ∧ (code = 0 ∨ 6 < code.toNat)) →
    s.running → s.portFree = true →
    (∀ reason, s.path.command = none →
      (reason = .badCode ∧ (code = 0 ∨ 6 < code.toNat) ∨
        reason = .notAllowed ∧ 1 ≤ code.toNat ∧ code.toNat ≤ 6 ∧
          (s.mode.mode = .start ∨ s.mode.mode = .parked ∨ code = 1 ∧ s.svc.level = false ∨
            (code = 2 ∨ code = 3 ∨ code = 6) ∧ s.mode.mode ≠ .run ∨
            code = 6 ∧ s.goodNonzero s.profile.ignition = true) ∨
        reason = .busy ∧ code = 1 ∧ (s.mode.mode = .run ∨ s.mode.mode = .parking) ∧ s.svc.level = true ∧
          s.fm.clearing = true) →
      Memory.wf Config.sramErased s.sram = true →
      Gives c s (.command :: .result :: .sram :: .held :: Part.images) (fun t =>
        Forwards s s t (s.windowAddr 0x0690) (upper ++ code) 0xF ∧ t.path.command = none ∧
        t.path.result = { value := .refused, code := code, reason := reason } ∧
        t.causePending .command)) ∧
    (s.path.command.isSome = true →
      Gives c s (.overruns :: Part.images) (fun t => t.path.overruns = satInc s.path.overruns))

/-- A full write to the attention enable cell replaces the enable set by the causes that the word selects and stores the whole word,
at once or when the M-port is free for it; ATN follows; the cell reads what SRAM holds (R121, R134). The model's own in it, in the
clauses of what is stored and of what is read: that a forwarded access is whole at its grant: log entry 11; what an access that waits
has done before: log entry 44. -/
def Obligations.AttentionEnable : Prop :=
  ∀ s : State, s.running → s.portFree = true → Memory.wf Config.sramErased s.sram = true →
    (∀ word : Word, Gives (.attentionEnableWrite word) s [.attnEnable, .sram, .held] (fun t =>
      (∀ k, k < 10 → t.path.attnEnable.getLsbD k = word.getLsbD k) ∧
      (t.atn = true ↔ ∃ k, k < 10 ∧ word.getLsbD k = true ∧ s.path.attnPending.getLsbD k = true) ∧
      Forwards s s t (s.windowAddr 0x069C) word 0xF)) ∧
    Gives (.imageWordRead (s.windowWordAddr 0x069C)) s [.readData, .held] (fun t =>
      Returns s t (s.sramWord (s.windowAddr 0x069C)))

/-! ## Host supervision -/

/-- An alive write is stored in SRAM, at once or when the M-port is free for it after the copy is handed; in PARKED it is not
handed, in START and without a profile it sets the reference only, and otherwise it is judged by the rule of the state (R121, R129,
R137, R139 to R142, R145). The model's own in it: that a forwarded write is whole at its grant: log entry 11. -/
def Obligations.AliveWrites : Prop :=
  ∀ (word : Word) (k : Byte) (s : State), k = word.setWidth 8 → s.running → s.portFree = true →
    Memory.wf Config.sramErased s.sram = true →
    Gives (.hostAliveWrite word) s (.supervision :: .sram :: .held :: Part.faults ++ Part.work) (fun t =>
      Forwards t s t (s.windowAddr 0x06A0) word 0xF ∧
      (s.mode.mode = .parked → t.sup = s.sup) ∧
      (s.mode.mode ≠ .parked → s.mode.mode = .start ∨ s.inForce = false →
        t.sup = { s.sup with reference := some k }) ∧
      (s.mode.mode = .run ∨ s.mode.mode = .parking → s.inForce = true →
        (s.sup.reference ≠ some (k - 1) → s.sup.state ≠ .lost → t.sup = { s.sup with reference := some k }) ∧
        (s.sup.reference ≠ some (k - 1) → s.sup.state = .lost →
          t.sup = { s.sup with reference := some k, run := 0, timer := some (.timeout, 0) }) ∧
        (s.sup.reference = some (k - 1) → s.sup.state = .normal →
          t.sup = { s.sup with reference := some k, timer := some (.timeout, 0) }) ∧
        (s.sup.reference = some (k - 1) → s.sup.state = .lost → s.sup.run < 2 →
          t.sup = { s.sup with reference := some k, run := s.sup.run + 1, timer := some (.timeout, 0) }) ∧
        (s.sup.reference = some (k - 1) → s.sup.state = .starting ∨ s.sup.state = .lost ∧ 2 ≤ s.sup.run →
          t.sup =
            { state := .normal
              reference := some k
              timer := some (.timeout, 0)
              run := 0
              pulse := s.sup.pulse
              spent := false } ∧
          t.causePending .host)))

/-- The grace and timeout expiries enter LOST, report HOST_LOST, set HOST and pulse HRST once for the episode; the timeout in LOST
makes the next write a base write; the pulse end deasserts HRST (R140 to R144). The model's own in it: an expiry before
its time has come changes nothing: log entry 2; while the images of a profile restart are written no TIMEOUT is judged, and a grace
expiry is taken there and pulses HRST by the new profile's enable, which R145 dates from the end of the restart: both log entry 38. -/
def Obligations.SupervisionExpiries : Prop :=
  ∀ (e : Nat) (s : State), s.running →
    (∀ c, (c = .graceExpiry ∧ s.sup.state = .starting ∧ s.sup.timer = some (.grace, e) ∧ 5000 ≤ e ∨
        c = .timeoutExpiry ∧ s.sup.state = .normal ∧ s.sup.timer = some (.timeout, e) ∧ s.profile.supTimeout ≤ e ∧
          s.path.awaited = none) →
      Gives c s (.supervision :: Part.faults ++ Part.work) (fun t =>
        t.sup =
          { state := .lost
            reference := none
            timer := none
            run := 0
            pulse := if s.profile.hrst = true ∧ s.sup.spent = false then some 0 else s.sup.pulse
            spent := s.sup.spent || s.profile.hrst } ∧
        Reported s t { kind := .hostLost, subject := 0 } ∧ t.causePending .host)) ∧
    (s.sup.state = .lost → s.sup.timer = some (.timeout, e) → s.profile.supTimeout ≤ e → s.path.awaited = none →
      Gives .timeoutExpiryInLost s [.supervision] (fun t =>
        t.sup = { s.sup with reference := none, run := 0, timer := none })) ∧
    (s.sup.pulse = some e → 100 ≤ e →
      Gives .pulseEnd s [.supervision] (fun t => t.sup = { s.sup with pulse := none } ∧ t.hrst = false))

/-! ## Fault memory and configuration memory -/

/-- The confirm expiry: the record ACTIVE with occurrence 1, both moments now and the freeze frame of the live state; its slot
is queued for writing or already being written; FAULT is set (R149, R154, R156, R158). Appearances and disappearances: a code of
the present set appears without effect; the 65th is counted and leaves no trace; a new one is appended and takes the lowest
empty slot as PENDING, or ACTIVE with a confirm time of 0; a code that leaves the set takes its PENDING record with it and makes
its ACTIVE record PASSIVE, all else of it kept (R147, R148, R149, R151). In a full table a new code's record displaces the
PASSIVE record with the highest healing count, then the earliest last seen, then the lowest slot; without a PASSIVE record it
gets none, is counted, and sets memory-full (R150). The healing pass raises the healing count of every PASSIVE record not seen
since the last, removes it at the heal limit, and marks as seen what is present (R155). The model's own in it: an expiry before
its time has come changes nothing: log entry 2; that a displacement clears memory-full: log entry 19; that it queues the slot also
where a record of kind CONFIG_MEMORY or PROFILE_BAD is displaced or takes the slot: log entry 53. -/
def Obligations.FaultRecords : Prop :=
  (∀ (i : Fin 32) (r : Record) (e : Nat) (s : State), s.running → s.mode.mode ≠ .parked → s.fm.records.get i = some r →
      r.state = .pending → r.timer = some e → s.profile.confirm ≤ e →
      Gives (.confirmExpiry i) s (Part.faults ++ Part.work) (fun t =>
        t.fm.records.get i =
          some
            { r with
              state := .active
              occurrence := 1
              first := some { cycle := s.mode.cycle, ms := s.mode.time }
              last := some { cycle := s.mode.cycle, ms := s.mode.time }
              frame := s.freezeFrame
              timer := none } ∧
        (∀ j, j ≠ i → t.fm.records.get j = s.fm.records.get j) ∧ t.fm.present = s.fm.present ∧ t.causePending .fault ∧
        (r.code.kind ≠ .configMemory → r.code.kind ≠ .profileBad →
          i ∈ t.fm.writeQueue ∨ ∃ snapshot, t.ctrl.operation = .slotWrite i snapshot false true))) ∧
  (∀ (s : State) (c : FaultCode),
      (c ∈ s.fm.present → s.appear c = s) ∧
      (c ∉ s.fm.present → 64 ≤ s.fm.present.length →
        (s.appear c).fm = { s.fm with overflow := satInc s.fm.overflow }) ∧
      (c ∉ s.fm.present → s.fm.present.length < 64 →
        (s.appear c).fm.present = s.fm.present ++ [c] ∧
        (∀ j, s.fm.slotOf c = none → s.fm.freeSlot = some j →
          (s.appear c).fm.records = s.fm.records.set j (some
            (if s.profile.confirm = 0 then
              { code := c, state := .active, occurrence := 1, first := some s.now, last := some s.now, frame := s.freezeFrame }
            else { code := c, state := .pending, timer := some 0 })))) ∧
      (c ∉ s.fm.present → s.disappear c = s) ∧
      (c ∈ s.fm.present →
        (s.disappear c).fm.present = s.fm.present.filter (fun x => x ≠ c) ∧
        (∀ j r, s.fm.slotOf c = some j → s.fm.records.get j = some r →
          (r.state = .pending → (s.disappear c).fm.records = s.fm.records.set j none ∧ (s.disappear c).fm.full = false) ∧
          (r.state = .active → (s.disappear c).fm.records = s.fm.records.set j (some { r with state := .passive })) ∧
          (r.state = .passive → (s.disappear c).fm.records = s.fm.records)))) ∧
  (∀ (s : State) (c : FaultCode), c ∉ s.fm.present → s.fm.present.length < 64 → s.fm.slotOf c = none →
      (∀ i, (s.fm.records.get i).isSome = true) →
      (∀ j r, s.fm.records.get j = some r → r.state = .passive →
        (∀ k q, k ≠ j → s.fm.records.get k = some q → q.state = .passive →
          q.healing.toNat < r.healing.toNat ∨
            q.healing = r.healing ∧ (r.lastAt < q.lastAt ∨ r.lastAt = q.lastAt ∧ j < k)) →
        (s.appear c).fm.records = s.fm.records.set j (some
          (if s.profile.confirm = 0 then
            { code := c, state := .active, occurrence := 1, first := some s.now, last := some s.now, frame := s.freezeFrame }
          else { code := c, state := .pending, timer := some 0 })) ∧
        (s.appear c).fm.full = false ∧ (s.appear c).fm.overflow = s.fm.overflow ∧ j ∈ (s.appear c).fm.writeQueue) ∧
      ((∀ j r, s.fm.records.get j = some r → r.state ≠ .passive) →
        (s.appear c).fm.records = s.fm.records ∧ (s.appear c).fm.full = true ∧
        (s.appear c).fm.overflow = satInc s.fm.overflow)) ∧
  (∀ (s : State) (i : Fin 32),
      (s.fm.records.get i = none → (s.healingPass).fm.records.get i = none) ∧
      (∀ r, s.fm.records.get i = some r →
        (r.state = .passive → r.seen = false → s.profile.heal ≠ 0 → s.profile.heal ≤ (satInc r.healing).toNat →
          (s.healingPass).fm.records.get i = none ∧ (s.healingPass).fm.full = false) ∧
        (r.state = .passive → r.seen = false → s.profile.heal = 0 ∨ (satInc r.healing).toNat < s.profile.heal →
          (s.healingPass).fm.records.get i =
            some { r with healing := satInc r.healing, seen := decide (r.code ∈ s.fm.present) }) ∧
        (r.state ≠ .passive ∨ r.seen = true →
          (s.healingPass).fm.records.get i = some { r with seen := decide (r.code ∈ s.fm.present) }) ∧
        (r.code.kind ≠ .configMemory → r.code.kind ≠ .profileBad →
          (s.healingPass).fm.records.get i = none ∨
            (∃ q, (s.healingPass).fm.records.get i = some q ∧ q.healing ≠ r.healing) →
          i ∈ (s.healingPass).fm.writeQueue)) ∧
      (s.healingPass).fm.present = s.fm.present)

/-- An appearance of a code whose record is PASSIVE confirms the record again at once; its disappearance makes it PASSIVE again (R152). -/
def Obligations.PassiveRecordReappears : Prop :=
  ∀ (s : State) (c : FaultCode) (i : Fin 32) (r : Record), c ∉ s.fm.present → s.fm.present.length < 64 →
    s.fm.slotOf c = some i → s.fm.records.get i = some r → r.code = c → r.state = .passive →
    (s.appear c).fm.records = s.fm.records.set i (some
      { r with
        state := .active
        occurrence := satInc r.occurrence
        healing := 0
        last := some { cycle := s.mode.cycle, ms := s.mode.time }
        timer := none
        seen := true }) ∧
    ((s.appear c).disappear c).fm.records = s.fm.records.set i (some
      { r with
        occurrence := satInc r.occurrence
        healing := 0
        last := some { cycle := s.mode.cycle, ms := s.mode.time }
        timer := none
        seen := true })

/-- A fault slot's page write completes: a page that agrees is done with, one that differs is written once more, and one that
differs again is dropped with one report of CONFIG_MEMORY; a done slot leaves the outstanding slots of a clear, whose last one
ends it (R159, R161). The model's own in it: what the memory holds is the command's operand: log entry 9; torn pages: log entry
8. -/
def Obligations.FaultSlotWrites : Prop :=
  ∀ (i : Fin 32) (snapshot bytes : List Byte) (retried counts : Bool) (s : State), s.running →
    (s.mode.mode = .parking → s.fm.writeQueue ≠ [] ∨ s.ctrl.countersPending = true) → s.fm.loaded = true →
    s.ctrl.operation = .slotWrite i snapshot retried counts → snapshot.length = 64 →
    bytes.length = 64 → bytes ≠ snapshot → Memory.wf Config.cfgErased s.cfg = true →
    Gives (.faultSlotWriteComplete .stored) s (Part.slotDone ++ Part.work ++ [.cfg, .torn]) (fun t =>
      StoresPage s.cfg t.cfg (0x80 + i.val) snapshot ∧ slotPageNo i ∉ t.ctrl.torn ∧
      t.fm.outstanding = (if counts then s.fm.outstanding.filter (fun j => j ≠ i) else s.fm.outstanding) ∧
      (s.fm.clearing = true → t.fm.outstanding = [] →
        t.fm.clearing = false ∧
        (s.fm.requester = some .command → t.path.command = none ∧ t.path.result.value = .done ∧ t.causePending .command)) ∧
      (t.fm.outstanding ≠ [] → t.fm.clearing = s.fm.clearing)) ∧
    (retried = false →
      Gives (.faultSlotWriteComplete (.differs bytes)) s [.operation, .cfg, .torn] (fun t =>
        t.ctrl.operation = .slotWrite i snapshot true counts ∧ StoresPage s.cfg t.cfg (0x80 + i.val) bytes)) ∧
    (retried = true →
      Gives (.faultSlotWriteComplete (.differs bytes)) s (Part.pageDone ++ Part.work) (fun t =>
        t.fm.outstanding = (if counts then s.fm.outstanding.filter (fun j => j ≠ i) else s.fm.outstanding) ∧
        t.ctrl.operation ≠ .slotWrite i snapshot true counts ∧ StoresPage s.cfg t.cfg (0x80 + i.val) bytes ∧
        ReportedOnce s t .configMemory))

/-- The counters block's page write completes: verified, written once more, or dropped with CONFIG_MEMORY (R188). The model's
own in it: what the memory holds is the command's operand: log entry 9; torn pages: log entry 8. -/
def Obligations.CountersWrites : Prop :=
  ∀ (snapshot bytes : List Byte) (retried : Bool) (s : State), s.running →
    (s.mode.mode = .parking → s.fm.writeQueue ≠ [] ∨ s.ctrl.countersPending = true) → s.fm.loaded = true →
    s.ctrl.operation = .countersWrite snapshot retried → snapshot.length = 64 →
    bytes.length = 64 → bytes ≠ snapshot → Memory.wf Config.cfgErased s.cfg = true →
    Gives (.countersWriteComplete .stored) s (.cfg :: .torn :: Part.work) (fun t =>
      StoresPage s.cfg t.cfg 0xA0 snapshot ∧ countersPageNo ∉ t.ctrl.torn ∧
      (s.ctrl.store = .none → s.ctrl.restartWaiting = false → s.ctrl.countersPending = false → s.fm.writeQueue = [] →
        t.ctrl.operation = .none)) ∧
    (retried = false →
      Gives (.countersWriteComplete (.differs bytes)) s [.operation, .cfg, .torn] (fun t =>
        t.ctrl.operation = .countersWrite snapshot true ∧ StoresPage s.cfg t.cfg 0xA0 bytes)) ∧
    (retried = true →
      Gives (.countersWriteComplete (.differs bytes)) s (.cfg :: .torn :: Part.faults ++ Part.work) (fun t =>
        t.ctrl.operation ≠ .countersWrite snapshot true ∧ StoresPage s.cfg t.cfg 0xA0 bytes ∧
        ReportedOnce s t .configMemory))

/-- A profile store's validation: a valid staging image waits for the controller (which reads no page of a store while one is
validated) or has its first page, page 0 with the length field marked, written, its bytes as ProfilePageWrites gives them; an invalid
one ends the store REFUSED PROFILE_INVALID (R189, R192 stages 1 to 3). While a host access or an image word uses or waits for the M-port, the staging area is
not read and the validation does not complete (R129). The model's own in it: that the staging area is read at one moment: log entry
11. -/
def Obligations.StoreValidation : Prop :=
  ∀ s : State, s.running → s.ctrl.store = .validating →
    (s.path.inFlight ≠ none ∨ s.path.queue ≠ [] ∨ s.path.held ≠ none → exec .profileStoreValidation s = .next s) ∧
    (s.path.inFlight = none → s.path.queue = [] → s.path.held = none → validProfile s.stagingByte = true →
      (s.mode.mode = .parking → s.fm.writeQueue ≠ [] ∨ s.ctrl.countersPending = true) →
      Gives .profileStoreValidation s Part.work (fun t =>
        (s.ctrl.operation = .none → s.fm.loaded = true →
          t.ctrl.operation =
            .storeWrite (readProfile s.stagingByte) (pagesOf (imageLength s.stagingByte)) 0
              (((s.profilePage 0).set 6 0xFF).set 7 0xFF) false ∧ t.ctrl.store = .writing) ∧
        (s.ctrl.operation ≠ .none → (∀ p n k, s.ctrl.operation ≠ .storeRead p n k) →
          t.ctrl.operation = s.ctrl.operation ∧
          t.ctrl.store = .waiting (readProfile s.stagingByte) (pagesOf (imageLength s.stagingByte))))) ∧
    (∀ parts, s.path.inFlight = none → s.path.queue = [] → s.path.held = none → validProfile s.stagingByte = false →
      (s.mode.mode = .parking → s.fm.writeQueue ≠ [] ∨ s.ctrl.countersPending = true) ∧ parts = Part.work ∨
        s.mode.mode = .parking ∧ parts = Part.workFlushed →
      Gives .profileStoreValidation s (.command :: .result :: Part.images ++ parts) (fun t =>
        t.ctrl.store = .none ∧ t.path.command = none ∧
        t.path.result = { value := .refused, code := s.path.command.getD 0, reason := .profileInvalid } ∧
        t.causePending .command))

/-- A profile store's page write completes: the page of the configuration memory holds what was written; the next page follows, as
soon as no host access and no image word uses or waits for the M-port, the same page once more after a first failure, and the marked
page 0 after a second, at whose end the store is REFUSED MEMORY_ERROR with one report of CONFIG_MEMORY; the true page 0 verified
begins the profile restart, every warning at its reset values among what it leaves (R129, R192 stages 3 and 4, R194, R95). A page is
the staged one with 0 in every bit and byte that Table 12-7 leaves unassigned (R195). The model's own in it: what the memory holds is
the command's operand: log entry 9; torn pages: log entry 8; which bytes count as unassigned: log entry 41; a page is read at one
moment, and not again for a second write: log entry 11; that the warning unit rests from the restart's beginning on: log entry 28. -/
def Obligations.ProfilePageWrites : Prop :=
  (∀ (k : Nat) (s : State), ProfilePageOf s.stagingByte k (s.profilePage k)) ∧
  ∀ (p : Profile) (n k : Nat) (snapshot bytes : List Byte) (retried : Bool) (s : State), s.running →
    s.mode.mode = .run → s.fm.loaded = true → snapshot.length = 64 → bytes.length = 64 → bytes ≠ snapshot →
    Memory.wf Config.cfgErased s.cfg = true →
    (s.ctrl.operation = .storeWrite p n k snapshot retried → k < n →
      Gives (.profilePageWriteComplete .stored) s [.operation, .cfg, .torn] (fun t =>
        StoresPage s.cfg t.cfg k snapshot ∧ k ∉ t.ctrl.torn ∧
        (s.path.inFlight = none ∧ s.path.queue = [] ∧ s.path.held = none →
          t.ctrl.operation =
            .storeWrite p n (k + 1) (if k + 1 = n then s.profilePage 0 else s.profilePage (k + 1)) false) ∧
        (s.path.inFlight ≠ none ∨ s.path.queue ≠ [] ∨ s.path.held ≠ none →
          t.ctrl.operation = .storeRead p n (k + 1)))) ∧
    (∀ e, s.ctrl.operation = .storeRead p n k → 0 < k → s.path.queue = [e] → s.path.inFlight = some e → s.path.resync = [] →
      s.path.awaited = none → s.path.held = none →
      Gives .imageWriteComplete s [.inFlight, .queue, .operation] (fun t =>
        t.path.inFlight = none ∧ t.path.queue = [] ∧
        t.ctrl.operation = .storeWrite p n k (if k = n then s.profilePage 0 else s.profilePage k) false)) ∧
    (s.ctrl.operation = .storeWrite p n n snapshot retried →
      Gives (.profilePageWriteComplete .stored) s (Part.storeDone ++ Part.work) (fun t =>
        Restarted p s t ∧ StoresPage s.cfg t.cfg 0 snapshot ∧ 0 ∉ t.ctrl.torn)) ∧
    (s.ctrl.operation = .storeWrite p n k snapshot false →
      Gives (.profilePageWriteComplete (.differs bytes)) s [.operation, .cfg, .torn] (fun t =>
        StoresPage s.cfg t.cfg (if k = n then 0 else k) bytes ∧ t.ctrl.operation = .storeWrite p n k snapshot true)) ∧
    (s.ctrl.operation = .storeWrite p n k snapshot true →
      Gives (.profilePageWriteComplete (.differs bytes)) s [.operation, .cfg, .torn] (fun t =>
        StoresPage s.cfg t.cfg (if k = n then 0 else k) bytes ∧
        t.ctrl.operation = .storeAbort (((s.profilePage 0).set 6 0xFF).set 7 0xFF))) ∧
    (s.ctrl.operation = .storeAbort snapshot →
      ∀ (o : PageOutcome) (held : List Byte), o = .stored ∧ held = snapshot ∨ o = .differs bytes ∧ held = bytes →
      Gives (.profilePageWriteComplete o) s (.command :: .result :: .cfg :: .torn :: Part.faults ++ Part.work) (fun t =>
        StoresPage s.cfg t.cfg 0 held ∧ t.ctrl.store = .none ∧ t.path.command = none ∧
        t.path.result = { value := .refused, code := s.path.command.getD 0, reason := .memoryError } ∧
        t.causePending .command ∧ ReportedOnce s t .configMemory))

/-- The RESTART read completes: a valid stored profile begins the profile restart with the command still busy; an invalid one is
REFUSED PROFILE_INVALID, a memory that does not answer REFUSED MEMORY_ERROR, and neither restarts anything (R95, R193, R194).
The model's own in it: whether the memory answers is the command's operand: log entry 9; that the warning unit rests from the
restart's beginning on: log entry 28. -/
def Obligations.RestartRead : Prop :=
  ∀ s : State, s.running → s.mode.mode = .run → s.fm.loaded = true → s.ctrl.operation = .restartRead →
    (∀ p, s.storedProfile = some p →
      Gives (.restartReadComplete true) s (Part.storeDone ++ Part.work) (fun t => Restarted p s t)) ∧
    (s.storedProfile = none →
      Gives (.restartReadComplete true) s (.command :: .result :: .loadBuffer :: Part.faults ++ Part.work) (fun t =>
        t.path.command = none ∧
        t.path.result = { value := .refused, code := s.path.command.getD 0, reason := .profileInvalid } ∧
        t.causePending .command)) ∧
    Gives (.restartReadComplete false) s (.command :: .result :: Part.faults ++ Part.work) (fun t =>
      t.path.command = none ∧
      t.path.result = { value := .refused, code := s.path.command.getD 0, reason := .memoryError } ∧
      t.causePending .command)

/-! ## Service line -/

/-- Reception: the first character of a request, the length, a later character, a bad character that discards the request, quiet
and gap (R165, R166), and a start edge that abandons a response not yet sent (R167). The last character of a request completes it:
with a wrong check, a tester address outside 0x80 to 0xFE or another target it is dropped; a request taken has the effect of its own
row (ReadRequests, RequestsRefusedOrDropped, WorkshopRequests and StopTestRequest say which); an unlisted code is refused BAD_REQUEST,
or dropped when functional, and sets the tester-active flag (R166, R167, R169, R170). The character whose start edge woke the device is
not received (R178). The model's own in it: an expiry before its time has come changes nothing: log entry 2; an edge stops the gap
timer of a request, and one that abandons a response leads to RECEIVING with no character yet: log entry 35; what follows the
character that woke the device is skipped, unless a new start edge comes first: log entry 39. -/
def Obligations.ServiceReception : Prop :=
  ∀ (c : ServiceChar) (e : Nat) (s : State), s.running → s.serviceListens = true →
    (s.svc.line = .idle → s.svc.wakeChar = true →
      Gives (.serviceCharacter c) s [.service, .wakeChar] (fun t =>
        t.svc.line = .skip ∧ t.svc.received = [] ∧ t.svc.gap = some 0 ∧ t.svc.wakeChar = false) ∧
      Gives .serviceStartEdge s (.wakeChar :: Part.work) (fun t => t.svc.line = .idle ∧ t.svc.wakeChar = false)) ∧
    (s.svc.line = .idle → s.svc.wakeChar = false →
      Gives (.serviceCharacter c) s [.service] (fun t =>
        if c.good = true ∧ 1 ≤ c.data.toNat ∧ c.data.toNat ≤ 0x7F then
          t.svc.line = .receiving ∧ t.svc.received = [c.data] ∧ t.svc.gap = some 0
        else t.svc.line = .skip ∧ t.svc.received = [] ∧ t.svc.gap = some 0)) ∧
    (s.svc.line = .receiving → s.svc.received ≠ [] →
      (c.good = false →
        Gives (.serviceCharacter c) s [.service] (fun t => t.svc.line = .skip ∧ t.svc.received = [] ∧ t.svc.gap = some 0)) ∧
      (c.good = true → s.svc.received.length = 2 → c.data = 0 ∨ 16 < c.data.toNat →
        Gives (.serviceCharacter c) s [.service] (fun t => t.svc.line = .skip ∧ t.svc.received = [] ∧ t.svc.gap = some 0)) ∧
      (c.good = true →
        s.svc.received.length = 1 ∨ s.svc.received.length = 2 ∧ c.data ≠ 0 ∧ c.data.toNat ≤ 16 ∨
          3 ≤ s.svc.received.length ∧ s.svc.received.length < (s.svc.received.getD 2 0).toNat + 3 →
        Gives (.serviceCharacter c) s [.service] (fun t =>
          t.svc.line = .receiving ∧ t.svc.received = s.svc.received ++ [c.data] ∧ t.svc.gap = some 0)) ∧
      (s.svc.gap = some e → 20 < e →
        Gives .serviceGapExpiry s [.service] (fun t => t.svc.line = .idle ∧ t.svc.received = [] ∧ t.svc.gap = none)) ∧
      Gives .serviceStartEdge s (.service :: Part.work) (fun t =>
        t.svc.line = .receiving ∧ t.svc.received = s.svc.received ∧ t.svc.gap = none)) ∧
    (∀ (target tester length code : Byte) (params : List Byte), s.svc.line = .receiving → c.good = true →
      s.svc.received = [target, tester, length, code] ++ params → length.toNat = params.length + 1 → params.length ≤ 15 →
      (xorAll (s.svc.received ++ [c.data]) ≠ 0 ∨ tester.toNat < 0x80 ∨ 0xFE < tester.toNat ∨
          target ≠ 0x7F ∧ s.svc.address ≠ some target →
        Gives (.serviceCharacter c) s [.service] (fun t =>
          t.svc.line = .idle ∧ t.svc.received = [] ∧ t.svc.gap = none ∧ t.svc.response = s.svc.response ∧
          t.svc.turnaround = s.svc.turnaround ∧ t.svc.echoLosses = s.svc.echoLosses)) ∧
      (xorAll (s.svc.received ++ [c.data]) = 0 → 0x80 ≤ tester.toNat → tester.toNat ≤ 0xFE →
        (∀ r : Request, r.code = code →
          (target = 0x7F → exec (.serviceCharacter c) s = exec (r.row .functional tester params) s) ∧
          (target ≠ 0x7F → s.svc.address = some target →
            exec (.serviceCharacter c) s = exec (r.row .physical tester params) s)) ∧
        ((∀ r : Request, r.code ≠ code) →
          (target = 0x7F →
            Gives (.serviceCharacter c) s (.service :: .tester :: Part.images) (fun t =>
              t.svc.line = .idle ∧ t.svc.received = [] ∧ t.svc.response = s.svc.response ∧
              t.svc.testerActive = true ∧ t.svc.testerTimer = some 0 ∧
              (s.svc.testerActive = false → t.causePending .tester))) ∧
          (target ≠ 0x7F → s.svc.address = some target →
            Gives (.serviceCharacter c) s (.service :: .tester :: Part.images) (fun t =>
              t.svc.line = .reply ∧ t.svc.turnaround = some 0 ∧ t.svc.testerActive = true ∧ t.svc.testerTimer = some 0 ∧
              (∃ check, t.svc.response = [tester, target, 3, 0x7F, code, 0x10, check]) ∧ xorAll t.svc.response = 0))))) ∧
    (s.svc.line = .skip →
      Gives (.serviceCharacter c) s [.service] (fun t => t.svc.line = .skip ∧ t.svc.gap = some 0) ∧
      (s.svc.gap = some e → 20 < e →
        Gives .quietExpiry s [.service] (fun t => t.svc.line = .idle ∧ t.svc.received = [] ∧ t.svc.gap = none))) ∧
    (s.svc.line = .reply → s.svc.turnaround.isSome = true →
      Gives .serviceStartEdge s (.service :: Part.work) (fun t =>
        t.svc.line = .receiving ∧ t.svc.received = [] ∧ t.svc.response = [] ∧ t.svc.turnaround = none ∧
        t.svc.echoLosses = s.svc.echoLosses))

/-- A read-type request to the physical or the functional address that passes its checks (IDENTIFY, READ_FAULTS, READ_FREEZE,
READ_SIGNALS, READ_DOORS, READ_LINES, WORKSHOP_STATUS) is answered from the owners' state, byte by byte as Table 12-6 lists it:
tester address, physical address, length, code plus 0x40 and the data, and a check that makes the exclusive-or zero; it changes
nothing else but the tester-active flag (R166, R167, R169 to R172). READ_FREEZE of a code that no listed record has is refused
OUT_OF_RANGE (R172). In PARKED the first start edge of any request wakes the device, and the request is not received (R178). The
model's own in it: a request given whole is log entry 13; what follows a waking character is skipped: log entry 39. -/
def Obligations.ReadRequests : Prop :=
  (∀ (r : Request) (target : Target) (a tester : Byte) (params : List Byte) (s : State), s.running →
      s.serviceListens = true → (s.svc.line = .idle ∨ s.svc.line = .receiving) → s.svc.address = some a → a ≠ 0x7F →
      0x80 ≤ tester.toNat → tester.toNat ≤ 0xFE → r.isRead = true → r.countOk params = true → r.rangeOk params = true →
      ((r = .readFreeze → ∃ i x, s.fm.records.get i = some x ∧ x.state ≠ .pending ∧
          BitVec.ofNat 8 x.code.kind.toNat = params.getD 0 0 ∧ x.code.subject = params.getD 1 0) →
        Gives (r.row target tester params) s (.service :: .wakeChar :: .tester :: Part.images) (fun t =>
          t.svc.line = .reply ∧ t.svc.turnaround = some 0 ∧ t.svc.transmitting = false ∧ t.svc.sent = 0 ∧
          t.svc.testerActive = true ∧ t.svc.testerTimer = some 0 ∧
          (s.svc.testerActive = false → t.causePending .tester) ∧
          (∃ data check, r.Data s params data ∧
            t.svc.response = [tester, a, BitVec.ofNat 8 (1 + data.length), r.code + 0x40] ++ data ++ [check]) ∧
          xorAll t.svc.response = 0)) ∧
      (r = .readFreeze → target = .physical →
        (∀ i x, s.fm.records.get i = some x → x.state ≠ .pending →
          ¬ (BitVec.ofNat 8 x.code.kind.toNat = params.getD 0 0 ∧ x.code.subject = params.getD 1 0)) →
        Gives (.readFreeze target tester params) s (.service :: .wakeChar :: .tester :: Part.images) (fun t =>
          (∃ check, t.svc.response = [tester, a, 3, 0x7F, 0x03, 0x11, check]) ∧ xorAll t.svc.response = 0))) ∧
  (∀ (r : Request) (target : Target) (tester : Byte) (params : List Byte) (s : State), s.running →
      s.mode.mode = .parked →
      Gives (r.row target tester params) s (Part.serviceEdge ++ Part.work) (fun t =>
        t.svc.line = .skip ∧ t.svc.received = [] ∧ t.svc.gap = some 0 ∧ t.svc.response = s.svc.response ∧
        t.svc.testerActive = s.svc.testerActive ∧ t.svc.wakeChar = false ∧
        t.mode.wakeCause = s.mode.wakePending.union { service := true } ∧ t.causePending .wake ∧
        (t.mode.mode = .run ∨ t.mode.mode = .parking ∧ s.profile.ignitionOff = 0)))

/-- What a request is refused for, in the order of its checks: a wrong number of parameters BAD_REQUEST, a parameter out of its
range OUT_OF_RANGE; a functional request that fails them, or that acts, is dropped and sets the tester-active flag only (R169,
R170). The model's own in it: a request given whole is log entry 13. -/
def Obligations.RequestsRefusedOrDropped : Prop :=
  ∀ (r : Request) (a tester reason : Byte) (params : List Byte) (s : State), s.running → s.serviceListens = true →
    (s.svc.line = .idle ∨ s.svc.line = .receiving) → s.svc.address = some a → a ≠ 0x7F →
    0x80 ≤ tester.toNat → tester.toNat ≤ 0xFE → params.length ≤ 15 →
    (r.countOk params = false ∧ reason = 0x10 ∨ r.countOk params = true ∧ r.rangeOk params = false ∧ reason = 0x11 →
      Gives (r.row .physical tester params) s (.service :: .wakeChar :: .tester :: Part.images) (fun t =>
        t.svc.line = .reply ∧ t.svc.testerActive = true ∧
        (∃ check, t.svc.response = [tester, a, 3, 0x7F, r.code, reason, check]) ∧ xorAll t.svc.response = 0)) ∧
    (r.countOk params = false ∨ r.rangeOk params = false ∨ r.isRead = false →
      Gives (r.row .functional tester params) s (.service :: .wakeChar :: .tester :: Part.images) (fun t =>
        t.svc.line = .idle ∧ t.svc.testerActive = true ∧ t.svc.testerTimer = some 0))

/-- OUTPUT_TEST: with the workshop level held, no STOP warning unacknowledged and no test running it starts the test of its kind
and is answered positively; NOT_ALLOWED, CONDITIONS and BUSY are its refusals in this order (R175). A GAUGE_SWEEP takes every
READY or PARKED gauge into TEST, DOWN towards 0, or UP where a moving gauge has reached 0 already, and leaves the others as they
are; it is the running test while a gauge takes part, and COMPLETED at once where none is homed (R106, R110). The service request
CLEAR_FAULTS: with the workshop level held and no clear in progress the clear is taken, the present codes given records anew, and
answered "clear begun"; otherwise it is refused CONDITIONS or BUSY (R160, R173). The workshop level that they ask for: judged, it is held exactly while a
profile is in force, the service switch and the parking brake are GOOD and nonzero and the motion state is STOPPED, and a level that
lapses ends a running test with LEVEL_LOST; an update that changes one of the two signals has it judged (R174, R177; at a change of
the motion state MotionFollowsTheReference). The model's own in it: a request given whole is log entry 13. -/
def Obligations.WorkshopRequests : Prop :=
  (∀ (a tester : Byte) (params : List Byte) (s : State), s.running → s.serviceListens = true →
      (s.svc.line = .idle ∨ s.svc.line = .receiving) → s.svc.address = some a → a ≠ 0x7F →
      0x80 ≤ tester.toNat → tester.toNat ≤ 0xFE →
      Request.outputTest.countOk params = true → Request.outputTest.rangeOk params = true →
      (s.mode.mode = .run → s.svc.level = true → s.stopUnack = false → s.svc.test = .none →
        Gives (.outputTest .physical tester params) s (.service :: .wakeChar :: .tester :: Part.testEnd) (fun t =>
          (∃ check, t.svc.response = [tester, a, 1, 0x48, check]) ∧
          (∀ d, params = [1, d] →
            t.svc.test = .lamp ∧ t.svc.testDuration = d.toNat ∧ t.svc.testTimer = some 0 ∧
            (s.inForce = true → ∀ k, (t.ind.lamps.get k).commanded = .on)) ∧
          (params = [2] →
            (∀ g, (s.ind.gauges.get g).state = .ready ∨ (s.ind.gauges.get g).state = .parked →
              (t.ind.gauges.get g).SweepsFrom (s.profile.gauges.get g).full (s.ind.gauges.get g)) ∧
            (∀ g, (s.ind.gauges.get g).state ≠ .ready → (s.ind.gauges.get g).state ≠ .parked →
              t.ind.gauges.get g = s.ind.gauges.get g) ∧
            ((∃ g, (s.ind.gauges.get g).state = .ready ∨ (s.ind.gauges.get g).state = .parked) →
              t.svc.test = .gaugeSweep ∧ t.svc.lastOutcome = s.svc.lastOutcome) ∧
            ((∀ g, (s.ind.gauges.get g).state.homed = false) → t.svc.test = .none ∧ t.svc.lastOutcome = .completed)) ∧
          (params = [3] → t.svc.test = .chime ∧ t.ind.chime.test = some (.tone 0) ∧ t.ind.chime.sounding = true))) ∧
      (∀ reason : Byte,
        (reason = 0x12 ∧ s.mode.mode ≠ .run ∨
          reason = 0x13 ∧ s.mode.mode = .run ∧ (s.svc.level = false ∨ s.stopUnack = true) ∨
          reason = 0x14 ∧ s.mode.mode = .run ∧ s.svc.level = true ∧ s.stopUnack = false ∧ s.svc.test ≠ .none) →
        Gives (.outputTest .physical tester params) s (.service :: .wakeChar :: .tester :: Part.images) (fun t =>
          ∃ check, t.svc.response = [tester, a, 3, 0x7F, 0x08, reason, check]))) ∧
  (∀ (a tester : Byte) (s : State), s.running → s.serviceListens = true →
      (s.svc.line = .idle ∨ s.svc.line = .receiving) → s.svc.address = some a → a ≠ 0x7F →
      0x80 ≤ tester.toNat → tester.toNat ≤ 0xFE →
      (s.svc.level = true → s.fm.clearing = false →
        Gives (.clearFaultsRequest .physical tester []) s Part.serviced (fun t =>
          ClearTaken s t ∧ t.fm.requester = some .service ∧ ∃ check, t.svc.response = [tester, a, 1, 0x44, check])) ∧
      (∀ reason : Byte,
        (reason = 0x13 ∧ s.svc.level = false ∨ reason = 0x14 ∧ s.svc.level = true ∧ s.fm.clearing = true) →
        Gives (.clearFaultsRequest .physical tester []) s (.service :: .wakeChar :: .tester :: Part.images) (fun t =>
          ∃ check, t.svc.response = [tester, a, 3, 0x7F, 0x04, reason, check]))) ∧
  ∀ s : State,
    s.judgeLevel.LevelJudged ∧ KeepsBut (.level :: Part.testEnd) s s.judgeLevel ∧
    (s.svc.level = true → s.judgeLevel.svc.level = false → s.svc.test ≠ .none →
      s.judgeLevel.svc.test = .none ∧ s.judgeLevel.svc.testTimer = none ∧ s.judgeLevel.svc.lastOutcome = .levelLost) ∧
    (s.svc.level = false ∨ s.judgeLevel.svc.level = true ∨ s.svc.test = .none →
      KeepsBut (.level :: Part.images) s s.judgeLevel) ∧
    ∀ (n : Fin 256) (v : BitVec 16), s.takesUpdates = true →
      s.profile.serviceSwitch = some n ∨ s.profile.parkingBrake = some n →
      s.value n ≠ (s.deliver n v).value n ∨ s.quality n ≠ (s.deliver n v).quality n →
      (s.deliver n v).LevelJudged ∧
        (s.svc.level = true → (s.deliver n v).svc.level = false → (s.deliver n v).svc.test = .none)

/-- STOP_TEST: refused CONDITIONS with no test running; otherwise the test ends STOPPED with a positive response, in RUN and
PARKING and without the workshop level; sent to the functional address it is dropped (R176). The model's own in it: a request
given whole is log entry 13. -/
def Obligations.StopTestRequest : Prop :=
  ∀ (a tester : Byte) (s : State), s.running → (s.mode.mode = .run ∨ s.mode.mode = .parking) →
    (s.svc.line = .idle ∨ s.svc.line = .receiving) → s.svc.address = some a → a ≠ 0x7F →
    0x80 ≤ tester.toNat → tester.toNat ≤ 0xFE →
    (s.svc.test = .none →
      Gives (.stopTest .physical tester []) s (.service :: .wakeChar :: .tester :: Part.images) (fun t =>
        ∃ check, t.svc.response = [tester, a, 3, 0x7F, 0x09, 0x13, check])) ∧
    (s.svc.test ≠ .none →
      Gives (.stopTest .physical tester []) s (.service :: .wakeChar :: .tester :: Part.testEnd) (fun t =>
        t.svc.test = .none ∧ t.svc.lastOutcome = .stopped ∧
        ∃ check, t.svc.response = [tester, a, 1, 0x49, check])) ∧
    Gives (.stopTest .functional tester []) s (.service :: .wakeChar :: .tester :: Part.images) (fun t => t.svc.line = .idle)

/-- The transmission: it begins at the end of the turnaround; a character read back as sent leads to the next or to IDLE; any
other is an echo loss, ends the response and enters SKIP (R167, R168). The tester-active expiry clears the flag with the cause
TESTER; the LAMP test's timer ends the test COMPLETED and every telltale returns to its sources (R170, R175, R177). The
model's own in it: an expiry before its time has come changes nothing: log entry 2. -/
def Obligations.ResponsesAndServiceTimers : Prop :=
  (∀ (b : Byte) (c : ServiceChar) (s : State), s.running →
      (∀ e, s.svc.turnaround = some e → 3 ≤ e →
        Gives .replyTurnaround s [.service] (fun t =>
          t.svc.turnaround = none ∧ t.svc.transmitting = true ∧ t.svc.response = s.svc.response ∧ t.svc.sent = s.svc.sent)) ∧
      (s.svc.transmitting = true → s.svc.response[s.svc.sent]? = some b →
        (c.good = true → c.data = b → s.svc.sent + 1 ≠ s.svc.response.length →
          Gives (.responseCharacter c) s [.service] (fun t =>
            t.svc.sent = s.svc.sent + 1 ∧ t.svc.response = s.svc.response ∧ t.svc.transmitting = true)) ∧
        (c.good = true → c.data = b → s.svc.sent + 1 = s.svc.response.length →
          Gives (.responseCharacter c) s [.service] (fun t =>
            t.svc.line = .idle ∧ t.svc.response = [] ∧ t.svc.transmitting = false)) ∧
        (c.good = false ∨ c.data ≠ b →
          Gives (.responseCharacter c) s [.service] (fun t =>
            t.svc.line = .skip ∧ t.svc.response = [] ∧ t.svc.transmitting = false ∧
            t.svc.echoLosses = satInc s.svc.echoLosses)))) ∧
  (∀ s : State, s.running →
      (∀ e, s.svc.testerTimer = some e → 5000 ≤ e →
        Gives .testerActiveExpiry s (.tester :: Part.images) (fun t =>
          t.svc.testerActive = false ∧ t.svc.testerTimer = none ∧ t.causePending .tester)) ∧
      (∀ e, s.svc.test = .lamp → s.svc.testTimer = some e → 1000 * s.svc.testDuration ≤ e →
        Gives .lampTestTimerExpiry s Part.testEnd (fun t =>
          t.svc.test = .none ∧ t.svc.lastOutcome = .completed ∧ t.svc.testTimer = none ∧
          ∀ k, (t.ind.lamps.get k).commanded = t.commanded k)))

/-! ## Mode -/

/-- The entry into PARKING at the ignition-off expiry: mode, timers and pending wakes, every warning INACTIVE with its number and
time kept, clock 0, lamp check and chime ended, gauges UNHOMED with their requested targets kept, a running test ended with
outcome MODE, and the counters block requested (R92, R115, R177, R182). The park flush: while a slot is still queued the end of a
page write leads to that slot's and the mode stays PARKING; when that write leaves nothing waiting, the device returns to
RUN with the wake kinds pending, or with IGNITION when the ignition is then ON, and otherwise enters PARKED, each block freezing
as its rule says (R22, R46, R67, R146, R178, R183 to R185). What leads to it: the ignition judged from its signal, at a handed change
and at an entry into RUN, starts a drive cycle (the counter raised, or kept at its maximum, the time 0, the counters write requested,
the lamp check begun, the active gauges homing), starts the ignition-off timer or makes it idle, and with a delay of 0 enters PARKING
at once (R103, R105, R180, R181); an update that changes its signal is handed to it. The model's own in it: an expiry before its time
has come changes nothing: log entry 2; that the expiry of a delay of 0 is taken inside the step: log entry 37. -/
def Obligations.EntryIntoParking : Prop :=
  (∀ (e : Nat) (s : State), s.running → s.mode.mode = .run → s.mode.offTimer = some e → s.profile.ignitionOff ≤ e →
    Gives .ignitionOffExpiry s (Part.ignitionJudged ++ Part.work) (fun t =>
      t.mode.mode = .parking ∧ t.mode.offTimer = none ∧ t.mode.cycleOpen = false ∧ t.mode.wakePending = {} ∧
      t.mode.cycle = s.mode.cycle ∧ t.mode.time = s.mode.time ∧
      (∀ w, t.warn.rows.get w =
        { state := .inactive, raw := false, present := false, latched := false, timer := none,
          number := (s.warn.rows.get w).number, time := (s.warn.rows.get w).time, armed := false, chimed := false,
          hostSet := false }) ∧
      t.warn.clock = 0 ∧ t.ind.lampCheck = none ∧
      t.ind.chime = { selection := none, phase := .silent, test := none } ∧
      (∀ g, (t.ind.gauges.get g).state = .unhomed ∧ (t.ind.gauges.get g).requested = (s.ind.gauges.get g).requested) ∧
      (∀ k, (t.ind.lamps.get k).commanded = .off) ∧ t.svc.test = .none ∧
      (s.svc.test ≠ .none → t.svc.lastOutcome = .mode) ∧
      (t.ctrl.countersPending = true ∨ ∃ snapshot, t.ctrl.operation = .countersWrite snapshot false))) ∧
  (∀ (c : Instr) (n : Fin 32) (snapshot : List Byte) (retried counts : Bool) (w : WakeSet) (s : State), s.running →
    s.mode.mode = .parking → s.fm.loaded = true →
    (c = .countersWriteComplete .stored ∧ s.ctrl.operation = .countersWrite snapshot retried ∨
      c = .faultSlotWriteComplete .stored ∧ s.ctrl.operation = .slotWrite n snapshot retried counts ∧ s.fm.clearing = false) →
    s.ctrl.countersPending = false →
    s.ctrl.restartWaiting = false → (∀ p n, s.ctrl.store ≠ .waiting p n) →
    (w = if s.goodNonzero s.profile.ignition then s.mode.wakePending.union { ignition := true } else s.mode.wakePending) →
    (∀ i rest, s.fm.writeQueue = i :: rest →
      Gives c s (.cfg :: .torn :: .clear :: Part.work) (fun t =>
        t.mode.mode = .parking ∧ t.fm.writeQueue = rest ∧
        t.ctrl.operation = .slotWrite i (slotPage i (s.fm.records.get i)) false true)) ∧
    (s.fm.writeQueue = [] → s.path.command ≠ some 2 → s.path.command ≠ some 3 → w = {} →
      Gives c s (.cfg :: .torn :: .clear :: .operation :: Part.parkedEntry) (fun t =>
        t.mode = { s.mode with mode := .parked, offTimer := none } ∧ t.ctrl.operation = .none ∧
        t.sig.motion = s.sig.motion ∧ t.sig.hold = none ∧ t.inp.timing = s.inp.timing ∧ t.inp.running = false ∧
        (∀ l, t.rx.lines.get l =
          { s.rx.lines.get l with receive := .idle, gap := none, inChar := false, silence := none }) ∧
        t.rx.owner = .none ∧
        (∀ d, t.door.doors.get d = { s.door.doors.get d with timer := none }) ∧
        t.sup = { s.sup with timer := none } ∧
        t.svc.line = .idle ∧ t.svc.received = [] ∧ t.svc.response = [] ∧ t.svc.transmitting = false ∧
        t.svc.echoLosses = s.svc.echoLosses ∧ t.svc.testerActive = false ∧ t.svc.testerTimer = none ∧
        t.svc.testTimer = none ∧ (s.svc.testerActive = true → t.causePending .tester))) ∧
    (s.fm.writeQueue = [] → s.path.command ≠ some 2 → s.path.command ≠ some 3 → w ≠ {} →
      Gives c s (.cfg :: .torn :: .clear :: Part.workFlushed) (fun t =>
        t.mode.wakeCause = w ∧ t.mode.wakePending = {} ∧ t.causePending .wake ∧
        (t.mode.mode = .run ∨ t.mode.mode = .parking ∧ s.profile.ignitionOff = 0) ∧
        t.sup = s.sup ∧ t.rx.lines = s.rx.lines ∧ t.inp.running = s.inp.running ∧ t.svc.line = s.svc.line)) ∧
    (s.fm.writeQueue = [] → s.path.command = some 2 ∨ s.path.command = some 3 →
      Gives c s [.cfg, .torn, .clear, .operation] (fun t =>
        t.mode.mode = .parking ∧ t.ctrl.operation = .none))) ∧
  ∀ s : State,
    IgnitionTaken s.mode.ignition s s.judgeIgnition ∧
    (s.mode.mode = .run → IgnitionTaken .unknown s s.judgeIgnitionAtRun) ∧
    ∀ (n : Fin 256) (v : BitVec 16), s.takesUpdates = true → s.profile.ignition = some n →
      s.value n ≠ (s.deliver n v).value n ∨ s.quality n ≠ (s.deliver n v).quality n →
      (s.deliver n v).IgnitionIs ∧
        (s.mode.mode = .run → (s.deliver n v).mode.ignition = .on → s.mode.cycleOpen = false →
          (s.deliver n v).mode.cycleOpen = true ∧ (s.deliver n v).mode.time = 0 ∧
          (s.deliver n v).mode.cycle = (if s.mode.cycle.toNat = 16777215 then s.mode.cycle else s.mode.cycle + 1) ∧
          (s.deliver n v).mode.offTimer = none ∧ (s.deliver n v).ctrl.countersPending = true)
end

