-- ==== Sys2Proof/Laws/State.lean ====
section
/-! SUPPORT. Every field of the state after every replacement of a block, so that no later proof unfolds a record update. -/

namespace Sys2Proof.Machine

@[simp] theorem State.setPending_pending (s : State) (x : List Instr) : (s.setPending x).pending = x := rfl
@[simp] theorem State.setPending_profile (s : State) (x : List Instr) : (s.setPending x).profile = s.profile := rfl
@[simp] theorem State.setPending_profStatus (s : State) (x : List Instr) : (s.setPending x).profStatus = s.profStatus := rfl
@[simp] theorem State.setPending_loadBuffer (s : State) (x : List Instr) : (s.setPending x).loadBuffer = s.loadBuffer := rfl
@[simp] theorem State.setPending_sig (s : State) (x : List Instr) : (s.setPending x).sig = s.sig := rfl
@[simp] theorem State.setPending_inp (s : State) (x : List Instr) : (s.setPending x).inp = s.inp := rfl
@[simp] theorem State.setPending_rx (s : State) (x : List Instr) : (s.setPending x).rx = s.rx := rfl
@[simp] theorem State.setPending_door (s : State) (x : List Instr) : (s.setPending x).door = s.door := rfl
@[simp] theorem State.setPending_warn (s : State) (x : List Instr) : (s.setPending x).warn = s.warn := rfl
@[simp] theorem State.setPending_ind (s : State) (x : List Instr) : (s.setPending x).ind = s.ind := rfl
@[simp] theorem State.setPending_path (s : State) (x : List Instr) : (s.setPending x).path = s.path := rfl
@[simp] theorem State.setPending_sup (s : State) (x : List Instr) : (s.setPending x).sup = s.sup := rfl
@[simp] theorem State.setPending_fm (s : State) (x : List Instr) : (s.setPending x).fm = s.fm := rfl
@[simp] theorem State.setPending_svc (s : State) (x : List Instr) : (s.setPending x).svc = s.svc := rfl
@[simp] theorem State.setPending_mode (s : State) (x : List Instr) : (s.setPending x).mode = s.mode := rfl
@[simp] theorem State.setPending_ctrl (s : State) (x : List Instr) : (s.setPending x).ctrl = s.ctrl := rfl
@[simp] theorem State.setPending_sram (s : State) (x : List Instr) : (s.setPending x).sram = s.sram := rfl
@[simp] theorem State.setPending_cfg (s : State) (x : List Instr) : (s.setPending x).cfg = s.cfg := rfl
@[simp] theorem State.setProfile_pending (s : State) (x : Profile) : (s.setProfile x).pending = s.pending := rfl
@[simp] theorem State.setProfile_profile (s : State) (x : Profile) : (s.setProfile x).profile = x := rfl
@[simp] theorem State.setProfile_profStatus (s : State) (x : Profile) : (s.setProfile x).profStatus = s.profStatus := rfl
@[simp] theorem State.setProfile_loadBuffer (s : State) (x : Profile) : (s.setProfile x).loadBuffer = s.loadBuffer := rfl
@[simp] theorem State.setProfile_sig (s : State) (x : Profile) : (s.setProfile x).sig = s.sig := rfl
@[simp] theorem State.setProfile_inp (s : State) (x : Profile) : (s.setProfile x).inp = s.inp := rfl
@[simp] theorem State.setProfile_rx (s : State) (x : Profile) : (s.setProfile x).rx = s.rx := rfl
@[simp] theorem State.setProfile_door (s : State) (x : Profile) : (s.setProfile x).door = s.door := rfl
@[simp] theorem State.setProfile_warn (s : State) (x : Profile) : (s.setProfile x).warn = s.warn := rfl
@[simp] theorem State.setProfile_ind (s : State) (x : Profile) : (s.setProfile x).ind = s.ind := rfl
@[simp] theorem State.setProfile_path (s : State) (x : Profile) : (s.setProfile x).path = s.path := rfl
@[simp] theorem State.setProfile_sup (s : State) (x : Profile) : (s.setProfile x).sup = s.sup := rfl
@[simp] theorem State.setProfile_fm (s : State) (x : Profile) : (s.setProfile x).fm = s.fm := rfl
@[simp] theorem State.setProfile_svc (s : State) (x : Profile) : (s.setProfile x).svc = s.svc := rfl
@[simp] theorem State.setProfile_mode (s : State) (x : Profile) : (s.setProfile x).mode = s.mode := rfl
@[simp] theorem State.setProfile_ctrl (s : State) (x : Profile) : (s.setProfile x).ctrl = s.ctrl := rfl
@[simp] theorem State.setProfile_sram (s : State) (x : Profile) : (s.setProfile x).sram = s.sram := rfl
@[simp] theorem State.setProfile_cfg (s : State) (x : Profile) : (s.setProfile x).cfg = s.cfg := rfl
@[simp] theorem State.setProfStatus_pending (s : State) (x : ProfStatus) : (s.setProfStatus x).pending = s.pending := rfl
@[simp] theorem State.setProfStatus_profile (s : State) (x : ProfStatus) : (s.setProfStatus x).profile = s.profile := rfl
@[simp] theorem State.setProfStatus_profStatus (s : State) (x : ProfStatus) : (s.setProfStatus x).profStatus = x := rfl
@[simp] theorem State.setProfStatus_loadBuffer (s : State) (x : ProfStatus) : (s.setProfStatus x).loadBuffer = s.loadBuffer := rfl
@[simp] theorem State.setProfStatus_sig (s : State) (x : ProfStatus) : (s.setProfStatus x).sig = s.sig := rfl
@[simp] theorem State.setProfStatus_inp (s : State) (x : ProfStatus) : (s.setProfStatus x).inp = s.inp := rfl
@[simp] theorem State.setProfStatus_rx (s : State) (x : ProfStatus) : (s.setProfStatus x).rx = s.rx := rfl
@[simp] theorem State.setProfStatus_door (s : State) (x : ProfStatus) : (s.setProfStatus x).door = s.door := rfl
@[simp] theorem State.setProfStatus_warn (s : State) (x : ProfStatus) : (s.setProfStatus x).warn = s.warn := rfl
@[simp] theorem State.setProfStatus_ind (s : State) (x : ProfStatus) : (s.setProfStatus x).ind = s.ind := rfl
@[simp] theorem State.setProfStatus_path (s : State) (x : ProfStatus) : (s.setProfStatus x).path = s.path := rfl
@[simp] theorem State.setProfStatus_sup (s : State) (x : ProfStatus) : (s.setProfStatus x).sup = s.sup := rfl
@[simp] theorem State.setProfStatus_fm (s : State) (x : ProfStatus) : (s.setProfStatus x).fm = s.fm := rfl
@[simp] theorem State.setProfStatus_svc (s : State) (x : ProfStatus) : (s.setProfStatus x).svc = s.svc := rfl
@[simp] theorem State.setProfStatus_mode (s : State) (x : ProfStatus) : (s.setProfStatus x).mode = s.mode := rfl
@[simp] theorem State.setProfStatus_ctrl (s : State) (x : ProfStatus) : (s.setProfStatus x).ctrl = s.ctrl := rfl
@[simp] theorem State.setProfStatus_sram (s : State) (x : ProfStatus) : (s.setProfStatus x).sram = s.sram := rfl
@[simp] theorem State.setProfStatus_cfg (s : State) (x : ProfStatus) : (s.setProfStatus x).cfg = s.cfg := rfl
@[simp] theorem State.setLoadBuffer_pending (s : State) (x : Option Profile) : (s.setLoadBuffer x).pending = s.pending := rfl
@[simp] theorem State.setLoadBuffer_profile (s : State) (x : Option Profile) : (s.setLoadBuffer x).profile = s.profile := rfl
@[simp] theorem State.setLoadBuffer_profStatus (s : State) (x : Option Profile) : (s.setLoadBuffer x).profStatus = s.profStatus := rfl
@[simp] theorem State.setLoadBuffer_loadBuffer (s : State) (x : Option Profile) : (s.setLoadBuffer x).loadBuffer = x := rfl
@[simp] theorem State.setLoadBuffer_sig (s : State) (x : Option Profile) : (s.setLoadBuffer x).sig = s.sig := rfl
@[simp] theorem State.setLoadBuffer_inp (s : State) (x : Option Profile) : (s.setLoadBuffer x).inp = s.inp := rfl
@[simp] theorem State.setLoadBuffer_rx (s : State) (x : Option Profile) : (s.setLoadBuffer x).rx = s.rx := rfl
@[simp] theorem State.setLoadBuffer_door (s : State) (x : Option Profile) : (s.setLoadBuffer x).door = s.door := rfl
@[simp] theorem State.setLoadBuffer_warn (s : State) (x : Option Profile) : (s.setLoadBuffer x).warn = s.warn := rfl
@[simp] theorem State.setLoadBuffer_ind (s : State) (x : Option Profile) : (s.setLoadBuffer x).ind = s.ind := rfl
@[simp] theorem State.setLoadBuffer_path (s : State) (x : Option Profile) : (s.setLoadBuffer x).path = s.path := rfl
@[simp] theorem State.setLoadBuffer_sup (s : State) (x : Option Profile) : (s.setLoadBuffer x).sup = s.sup := rfl
@[simp] theorem State.setLoadBuffer_fm (s : State) (x : Option Profile) : (s.setLoadBuffer x).fm = s.fm := rfl
@[simp] theorem State.setLoadBuffer_svc (s : State) (x : Option Profile) : (s.setLoadBuffer x).svc = s.svc := rfl
@[simp] theorem State.setLoadBuffer_mode (s : State) (x : Option Profile) : (s.setLoadBuffer x).mode = s.mode := rfl
@[simp] theorem State.setLoadBuffer_ctrl (s : State) (x : Option Profile) : (s.setLoadBuffer x).ctrl = s.ctrl := rfl
@[simp] theorem State.setLoadBuffer_sram (s : State) (x : Option Profile) : (s.setLoadBuffer x).sram = s.sram := rfl
@[simp] theorem State.setLoadBuffer_cfg (s : State) (x : Option Profile) : (s.setLoadBuffer x).cfg = s.cfg := rfl
@[simp] theorem State.setSig_pending (s : State) (x : SignalUnit) : (s.setSig x).pending = s.pending := rfl
@[simp] theorem State.setSig_profile (s : State) (x : SignalUnit) : (s.setSig x).profile = s.profile := rfl
@[simp] theorem State.setSig_profStatus (s : State) (x : SignalUnit) : (s.setSig x).profStatus = s.profStatus := rfl
@[simp] theorem State.setSig_loadBuffer (s : State) (x : SignalUnit) : (s.setSig x).loadBuffer = s.loadBuffer := rfl
@[simp] theorem State.setSig_sig (s : State) (x : SignalUnit) : (s.setSig x).sig = x := rfl
@[simp] theorem State.setSig_inp (s : State) (x : SignalUnit) : (s.setSig x).inp = s.inp := rfl
@[simp] theorem State.setSig_rx (s : State) (x : SignalUnit) : (s.setSig x).rx = s.rx := rfl
@[simp] theorem State.setSig_door (s : State) (x : SignalUnit) : (s.setSig x).door = s.door := rfl
@[simp] theorem State.setSig_warn (s : State) (x : SignalUnit) : (s.setSig x).warn = s.warn := rfl
@[simp] theorem State.setSig_ind (s : State) (x : SignalUnit) : (s.setSig x).ind = s.ind := rfl
@[simp] theorem State.setSig_path (s : State) (x : SignalUnit) : (s.setSig x).path = s.path := rfl
@[simp] theorem State.setSig_sup (s : State) (x : SignalUnit) : (s.setSig x).sup = s.sup := rfl
@[simp] theorem State.setSig_fm (s : State) (x : SignalUnit) : (s.setSig x).fm = s.fm := rfl
@[simp] theorem State.setSig_svc (s : State) (x : SignalUnit) : (s.setSig x).svc = s.svc := rfl
@[simp] theorem State.setSig_mode (s : State) (x : SignalUnit) : (s.setSig x).mode = s.mode := rfl
@[simp] theorem State.setSig_ctrl (s : State) (x : SignalUnit) : (s.setSig x).ctrl = s.ctrl := rfl
@[simp] theorem State.setSig_sram (s : State) (x : SignalUnit) : (s.setSig x).sram = s.sram := rfl
@[simp] theorem State.setSig_cfg (s : State) (x : SignalUnit) : (s.setSig x).cfg = s.cfg := rfl
@[simp] theorem State.setInp_pending (s : State) (x : InputUnit) : (s.setInp x).pending = s.pending := rfl
@[simp] theorem State.setInp_profile (s : State) (x : InputUnit) : (s.setInp x).profile = s.profile := rfl
@[simp] theorem State.setInp_profStatus (s : State) (x : InputUnit) : (s.setInp x).profStatus = s.profStatus := rfl
@[simp] theorem State.setInp_loadBuffer (s : State) (x : InputUnit) : (s.setInp x).loadBuffer = s.loadBuffer := rfl
@[simp] theorem State.setInp_sig (s : State) (x : InputUnit) : (s.setInp x).sig = s.sig := rfl
@[simp] theorem State.setInp_inp (s : State) (x : InputUnit) : (s.setInp x).inp = x := rfl
@[simp] theorem State.setInp_rx (s : State) (x : InputUnit) : (s.setInp x).rx = s.rx := rfl
@[simp] theorem State.setInp_door (s : State) (x : InputUnit) : (s.setInp x).door = s.door := rfl
@[simp] theorem State.setInp_warn (s : State) (x : InputUnit) : (s.setInp x).warn = s.warn := rfl
@[simp] theorem State.setInp_ind (s : State) (x : InputUnit) : (s.setInp x).ind = s.ind := rfl
@[simp] theorem State.setInp_path (s : State) (x : InputUnit) : (s.setInp x).path = s.path := rfl
@[simp] theorem State.setInp_sup (s : State) (x : InputUnit) : (s.setInp x).sup = s.sup := rfl
@[simp] theorem State.setInp_fm (s : State) (x : InputUnit) : (s.setInp x).fm = s.fm := rfl
@[simp] theorem State.setInp_svc (s : State) (x : InputUnit) : (s.setInp x).svc = s.svc := rfl
@[simp] theorem State.setInp_mode (s : State) (x : InputUnit) : (s.setInp x).mode = s.mode := rfl
@[simp] theorem State.setInp_ctrl (s : State) (x : InputUnit) : (s.setInp x).ctrl = s.ctrl := rfl
@[simp] theorem State.setInp_sram (s : State) (x : InputUnit) : (s.setInp x).sram = s.sram := rfl
@[simp] theorem State.setInp_cfg (s : State) (x : InputUnit) : (s.setInp x).cfg = s.cfg := rfl
@[simp] theorem State.setRx_pending (s : State) (x : LineUnit) : (s.setRx x).pending = s.pending := rfl
@[simp] theorem State.setRx_profile (s : State) (x : LineUnit) : (s.setRx x).profile = s.profile := rfl
@[simp] theorem State.setRx_profStatus (s : State) (x : LineUnit) : (s.setRx x).profStatus = s.profStatus := rfl
@[simp] theorem State.setRx_loadBuffer (s : State) (x : LineUnit) : (s.setRx x).loadBuffer = s.loadBuffer := rfl
@[simp] theorem State.setRx_sig (s : State) (x : LineUnit) : (s.setRx x).sig = s.sig := rfl
@[simp] theorem State.setRx_inp (s : State) (x : LineUnit) : (s.setRx x).inp = s.inp := rfl
@[simp] theorem State.setRx_rx (s : State) (x : LineUnit) : (s.setRx x).rx = x := rfl
@[simp] theorem State.setRx_door (s : State) (x : LineUnit) : (s.setRx x).door = s.door := rfl
@[simp] theorem State.setRx_warn (s : State) (x : LineUnit) : (s.setRx x).warn = s.warn := rfl
@[simp] theorem State.setRx_ind (s : State) (x : LineUnit) : (s.setRx x).ind = s.ind := rfl
@[simp] theorem State.setRx_path (s : State) (x : LineUnit) : (s.setRx x).path = s.path := rfl
@[simp] theorem State.setRx_sup (s : State) (x : LineUnit) : (s.setRx x).sup = s.sup := rfl
@[simp] theorem State.setRx_fm (s : State) (x : LineUnit) : (s.setRx x).fm = s.fm := rfl
@[simp] theorem State.setRx_svc (s : State) (x : LineUnit) : (s.setRx x).svc = s.svc := rfl
@[simp] theorem State.setRx_mode (s : State) (x : LineUnit) : (s.setRx x).mode = s.mode := rfl
@[simp] theorem State.setRx_ctrl (s : State) (x : LineUnit) : (s.setRx x).ctrl = s.ctrl := rfl
@[simp] theorem State.setRx_sram (s : State) (x : LineUnit) : (s.setRx x).sram = s.sram := rfl
@[simp] theorem State.setRx_cfg (s : State) (x : LineUnit) : (s.setRx x).cfg = s.cfg := rfl
@[simp] theorem State.setDoor_pending (s : State) (x : DoorUnit) : (s.setDoor x).pending = s.pending := rfl
@[simp] theorem State.setDoor_profile (s : State) (x : DoorUnit) : (s.setDoor x).profile = s.profile := rfl
@[simp] theorem State.setDoor_profStatus (s : State) (x : DoorUnit) : (s.setDoor x).profStatus = s.profStatus := rfl
@[simp] theorem State.setDoor_loadBuffer (s : State) (x : DoorUnit) : (s.setDoor x).loadBuffer = s.loadBuffer := rfl
@[simp] theorem State.setDoor_sig (s : State) (x : DoorUnit) : (s.setDoor x).sig = s.sig := rfl
@[simp] theorem State.setDoor_inp (s : State) (x : DoorUnit) : (s.setDoor x).inp = s.inp := rfl
@[simp] theorem State.setDoor_rx (s : State) (x : DoorUnit) : (s.setDoor x).rx = s.rx := rfl
@[simp] theorem State.setDoor_door (s : State) (x : DoorUnit) : (s.setDoor x).door = x := rfl
@[simp] theorem State.setDoor_warn (s : State) (x : DoorUnit) : (s.setDoor x).warn = s.warn := rfl
@[simp] theorem State.setDoor_ind (s : State) (x : DoorUnit) : (s.setDoor x).ind = s.ind := rfl
@[simp] theorem State.setDoor_path (s : State) (x : DoorUnit) : (s.setDoor x).path = s.path := rfl
@[simp] theorem State.setDoor_sup (s : State) (x : DoorUnit) : (s.setDoor x).sup = s.sup := rfl
@[simp] theorem State.setDoor_fm (s : State) (x : DoorUnit) : (s.setDoor x).fm = s.fm := rfl
@[simp] theorem State.setDoor_svc (s : State) (x : DoorUnit) : (s.setDoor x).svc = s.svc := rfl
@[simp] theorem State.setDoor_mode (s : State) (x : DoorUnit) : (s.setDoor x).mode = s.mode := rfl
@[simp] theorem State.setDoor_ctrl (s : State) (x : DoorUnit) : (s.setDoor x).ctrl = s.ctrl := rfl
@[simp] theorem State.setDoor_sram (s : State) (x : DoorUnit) : (s.setDoor x).sram = s.sram := rfl
@[simp] theorem State.setDoor_cfg (s : State) (x : DoorUnit) : (s.setDoor x).cfg = s.cfg := rfl
@[simp] theorem State.setWarn_pending (s : State) (x : WarningUnit) : (s.setWarn x).pending = s.pending := rfl
@[simp] theorem State.setWarn_profile (s : State) (x : WarningUnit) : (s.setWarn x).profile = s.profile := rfl
@[simp] theorem State.setWarn_profStatus (s : State) (x : WarningUnit) : (s.setWarn x).profStatus = s.profStatus := rfl
@[simp] theorem State.setWarn_loadBuffer (s : State) (x : WarningUnit) : (s.setWarn x).loadBuffer = s.loadBuffer := rfl
@[simp] theorem State.setWarn_sig (s : State) (x : WarningUnit) : (s.setWarn x).sig = s.sig := rfl
@[simp] theorem State.setWarn_inp (s : State) (x : WarningUnit) : (s.setWarn x).inp = s.inp := rfl
@[simp] theorem State.setWarn_rx (s : State) (x : WarningUnit) : (s.setWarn x).rx = s.rx := rfl
@[simp] theorem State.setWarn_door (s : State) (x : WarningUnit) : (s.setWarn x).door = s.door := rfl
@[simp] theorem State.setWarn_warn (s : State) (x : WarningUnit) : (s.setWarn x).warn = x := rfl
@[simp] theorem State.setWarn_ind (s : State) (x : WarningUnit) : (s.setWarn x).ind = s.ind := rfl
@[simp] theorem State.setWarn_path (s : State) (x : WarningUnit) : (s.setWarn x).path = s.path := rfl
@[simp] theorem State.setWarn_sup (s : State) (x : WarningUnit) : (s.setWarn x).sup = s.sup := rfl
@[simp] theorem State.setWarn_fm (s : State) (x : WarningUnit) : (s.setWarn x).fm = s.fm := rfl
@[simp] theorem State.setWarn_svc (s : State) (x : WarningUnit) : (s.setWarn x).svc = s.svc := rfl
@[simp] theorem State.setWarn_mode (s : State) (x : WarningUnit) : (s.setWarn x).mode = s.mode := rfl
@[simp] theorem State.setWarn_ctrl (s : State) (x : WarningUnit) : (s.setWarn x).ctrl = s.ctrl := rfl
@[simp] theorem State.setWarn_sram (s : State) (x : WarningUnit) : (s.setWarn x).sram = s.sram := rfl
@[simp] theorem State.setWarn_cfg (s : State) (x : WarningUnit) : (s.setWarn x).cfg = s.cfg := rfl
@[simp] theorem State.setInd_pending (s : State) (x : IndicationUnit) : (s.setInd x).pending = s.pending := rfl
@[simp] theorem State.setInd_profile (s : State) (x : IndicationUnit) : (s.setInd x).profile = s.profile := rfl
@[simp] theorem State.setInd_profStatus (s : State) (x : IndicationUnit) : (s.setInd x).profStatus = s.profStatus := rfl
@[simp] theorem State.setInd_loadBuffer (s : State) (x : IndicationUnit) : (s.setInd x).loadBuffer = s.loadBuffer := rfl
@[simp] theorem State.setInd_sig (s : State) (x : IndicationUnit) : (s.setInd x).sig = s.sig := rfl
@[simp] theorem State.setInd_inp (s : State) (x : IndicationUnit) : (s.setInd x).inp = s.inp := rfl
@[simp] theorem State.setInd_rx (s : State) (x : IndicationUnit) : (s.setInd x).rx = s.rx := rfl
@[simp] theorem State.setInd_door (s : State) (x : IndicationUnit) : (s.setInd x).door = s.door := rfl
@[simp] theorem State.setInd_warn (s : State) (x : IndicationUnit) : (s.setInd x).warn = s.warn := rfl
@[simp] theorem State.setInd_ind (s : State) (x : IndicationUnit) : (s.setInd x).ind = x := rfl
@[simp] theorem State.setInd_path (s : State) (x : IndicationUnit) : (s.setInd x).path = s.path := rfl
@[simp] theorem State.setInd_sup (s : State) (x : IndicationUnit) : (s.setInd x).sup = s.sup := rfl
@[simp] theorem State.setInd_fm (s : State) (x : IndicationUnit) : (s.setInd x).fm = s.fm := rfl
@[simp] theorem State.setInd_svc (s : State) (x : IndicationUnit) : (s.setInd x).svc = s.svc := rfl
@[simp] theorem State.setInd_mode (s : State) (x : IndicationUnit) : (s.setInd x).mode = s.mode := rfl
@[simp] theorem State.setInd_ctrl (s : State) (x : IndicationUnit) : (s.setInd x).ctrl = s.ctrl := rfl
@[simp] theorem State.setInd_sram (s : State) (x : IndicationUnit) : (s.setInd x).sram = s.sram := rfl
@[simp] theorem State.setInd_cfg (s : State) (x : IndicationUnit) : (s.setInd x).cfg = s.cfg := rfl
@[simp] theorem State.setPath_pending (s : State) (x : MemoryPath) : (s.setPath x).pending = s.pending := rfl
@[simp] theorem State.setPath_profile (s : State) (x : MemoryPath) : (s.setPath x).profile = s.profile := rfl
@[simp] theorem State.setPath_profStatus (s : State) (x : MemoryPath) : (s.setPath x).profStatus = s.profStatus := rfl
@[simp] theorem State.setPath_loadBuffer (s : State) (x : MemoryPath) : (s.setPath x).loadBuffer = s.loadBuffer := rfl
@[simp] theorem State.setPath_sig (s : State) (x : MemoryPath) : (s.setPath x).sig = s.sig := rfl
@[simp] theorem State.setPath_inp (s : State) (x : MemoryPath) : (s.setPath x).inp = s.inp := rfl
@[simp] theorem State.setPath_rx (s : State) (x : MemoryPath) : (s.setPath x).rx = s.rx := rfl
@[simp] theorem State.setPath_door (s : State) (x : MemoryPath) : (s.setPath x).door = s.door := rfl
@[simp] theorem State.setPath_warn (s : State) (x : MemoryPath) : (s.setPath x).warn = s.warn := rfl
@[simp] theorem State.setPath_ind (s : State) (x : MemoryPath) : (s.setPath x).ind = s.ind := rfl
@[simp] theorem State.setPath_path (s : State) (x : MemoryPath) : (s.setPath x).path = x := rfl
@[simp] theorem State.setPath_sup (s : State) (x : MemoryPath) : (s.setPath x).sup = s.sup := rfl
@[simp] theorem State.setPath_fm (s : State) (x : MemoryPath) : (s.setPath x).fm = s.fm := rfl
@[simp] theorem State.setPath_svc (s : State) (x : MemoryPath) : (s.setPath x).svc = s.svc := rfl
@[simp] theorem State.setPath_mode (s : State) (x : MemoryPath) : (s.setPath x).mode = s.mode := rfl
@[simp] theorem State.setPath_ctrl (s : State) (x : MemoryPath) : (s.setPath x).ctrl = s.ctrl := rfl
@[simp] theorem State.setPath_sram (s : State) (x : MemoryPath) : (s.setPath x).sram = s.sram := rfl
@[simp] theorem State.setPath_cfg (s : State) (x : MemoryPath) : (s.setPath x).cfg = s.cfg := rfl
@[simp] theorem State.setSup_pending (s : State) (x : Supervision) : (s.setSup x).pending = s.pending := rfl
@[simp] theorem State.setSup_profile (s : State) (x : Supervision) : (s.setSup x).profile = s.profile := rfl
@[simp] theorem State.setSup_profStatus (s : State) (x : Supervision) : (s.setSup x).profStatus = s.profStatus := rfl
@[simp] theorem State.setSup_loadBuffer (s : State) (x : Supervision) : (s.setSup x).loadBuffer = s.loadBuffer := rfl
@[simp] theorem State.setSup_sig (s : State) (x : Supervision) : (s.setSup x).sig = s.sig := rfl
@[simp] theorem State.setSup_inp (s : State) (x : Supervision) : (s.setSup x).inp = s.inp := rfl
@[simp] theorem State.setSup_rx (s : State) (x : Supervision) : (s.setSup x).rx = s.rx := rfl
@[simp] theorem State.setSup_door (s : State) (x : Supervision) : (s.setSup x).door = s.door := rfl
@[simp] theorem State.setSup_warn (s : State) (x : Supervision) : (s.setSup x).warn = s.warn := rfl
@[simp] theorem State.setSup_ind (s : State) (x : Supervision) : (s.setSup x).ind = s.ind := rfl
@[simp] theorem State.setSup_path (s : State) (x : Supervision) : (s.setSup x).path = s.path := rfl
@[simp] theorem State.setSup_sup (s : State) (x : Supervision) : (s.setSup x).sup = x := rfl
@[simp] theorem State.setSup_fm (s : State) (x : Supervision) : (s.setSup x).fm = s.fm := rfl
@[simp] theorem State.setSup_svc (s : State) (x : Supervision) : (s.setSup x).svc = s.svc := rfl
@[simp] theorem State.setSup_mode (s : State) (x : Supervision) : (s.setSup x).mode = s.mode := rfl
@[simp] theorem State.setSup_ctrl (s : State) (x : Supervision) : (s.setSup x).ctrl = s.ctrl := rfl
@[simp] theorem State.setSup_sram (s : State) (x : Supervision) : (s.setSup x).sram = s.sram := rfl
@[simp] theorem State.setSup_cfg (s : State) (x : Supervision) : (s.setSup x).cfg = s.cfg := rfl
@[simp] theorem State.setFm_pending (s : State) (x : FaultMemory) : (s.setFm x).pending = s.pending := rfl
@[simp] theorem State.setFm_profile (s : State) (x : FaultMemory) : (s.setFm x).profile = s.profile := rfl
@[simp] theorem State.setFm_profStatus (s : State) (x : FaultMemory) : (s.setFm x).profStatus = s.profStatus := rfl
@[simp] theorem State.setFm_loadBuffer (s : State) (x : FaultMemory) : (s.setFm x).loadBuffer = s.loadBuffer := rfl
@[simp] theorem State.setFm_sig (s : State) (x : FaultMemory) : (s.setFm x).sig = s.sig := rfl
@[simp] theorem State.setFm_inp (s : State) (x : FaultMemory) : (s.setFm x).inp = s.inp := rfl
@[simp] theorem State.setFm_rx (s : State) (x : FaultMemory) : (s.setFm x).rx = s.rx := rfl
@[simp] theorem State.setFm_door (s : State) (x : FaultMemory) : (s.setFm x).door = s.door := rfl
@[simp] theorem State.setFm_warn (s : State) (x : FaultMemory) : (s.setFm x).warn = s.warn := rfl
@[simp] theorem State.setFm_ind (s : State) (x : FaultMemory) : (s.setFm x).ind = s.ind := rfl
@[simp] theorem State.setFm_path (s : State) (x : FaultMemory) : (s.setFm x).path = s.path := rfl
@[simp] theorem State.setFm_sup (s : State) (x : FaultMemory) : (s.setFm x).sup = s.sup := rfl
@[simp] theorem State.setFm_fm (s : State) (x : FaultMemory) : (s.setFm x).fm = x := rfl
@[simp] theorem State.setFm_svc (s : State) (x : FaultMemory) : (s.setFm x).svc = s.svc := rfl
@[simp] theorem State.setFm_mode (s : State) (x : FaultMemory) : (s.setFm x).mode = s.mode := rfl
@[simp] theorem State.setFm_ctrl (s : State) (x : FaultMemory) : (s.setFm x).ctrl = s.ctrl := rfl
@[simp] theorem State.setFm_sram (s : State) (x : FaultMemory) : (s.setFm x).sram = s.sram := rfl
@[simp] theorem State.setFm_cfg (s : State) (x : FaultMemory) : (s.setFm x).cfg = s.cfg := rfl
@[simp] theorem State.setSvc_pending (s : State) (x : ServiceUnit) : (s.setSvc x).pending = s.pending := rfl
@[simp] theorem State.setSvc_profile (s : State) (x : ServiceUnit) : (s.setSvc x).profile = s.profile := rfl
@[simp] theorem State.setSvc_profStatus (s : State) (x : ServiceUnit) : (s.setSvc x).profStatus = s.profStatus := rfl
@[simp] theorem State.setSvc_loadBuffer (s : State) (x : ServiceUnit) : (s.setSvc x).loadBuffer = s.loadBuffer := rfl
@[simp] theorem State.setSvc_sig (s : State) (x : ServiceUnit) : (s.setSvc x).sig = s.sig := rfl
@[simp] theorem State.setSvc_inp (s : State) (x : ServiceUnit) : (s.setSvc x).inp = s.inp := rfl
@[simp] theorem State.setSvc_rx (s : State) (x : ServiceUnit) : (s.setSvc x).rx = s.rx := rfl
@[simp] theorem State.setSvc_door (s : State) (x : ServiceUnit) : (s.setSvc x).door = s.door := rfl
@[simp] theorem State.setSvc_warn (s : State) (x : ServiceUnit) : (s.setSvc x).warn = s.warn := rfl
@[simp] theorem State.setSvc_ind (s : State) (x : ServiceUnit) : (s.setSvc x).ind = s.ind := rfl
@[simp] theorem State.setSvc_path (s : State) (x : ServiceUnit) : (s.setSvc x).path = s.path := rfl
@[simp] theorem State.setSvc_sup (s : State) (x : ServiceUnit) : (s.setSvc x).sup = s.sup := rfl
@[simp] theorem State.setSvc_fm (s : State) (x : ServiceUnit) : (s.setSvc x).fm = s.fm := rfl
@[simp] theorem State.setSvc_svc (s : State) (x : ServiceUnit) : (s.setSvc x).svc = x := rfl
@[simp] theorem State.setSvc_mode (s : State) (x : ServiceUnit) : (s.setSvc x).mode = s.mode := rfl
@[simp] theorem State.setSvc_ctrl (s : State) (x : ServiceUnit) : (s.setSvc x).ctrl = s.ctrl := rfl
@[simp] theorem State.setSvc_sram (s : State) (x : ServiceUnit) : (s.setSvc x).sram = s.sram := rfl
@[simp] theorem State.setSvc_cfg (s : State) (x : ServiceUnit) : (s.setSvc x).cfg = s.cfg := rfl
@[simp] theorem State.setMode_pending (s : State) (x : ModeUnit) : (s.setMode x).pending = s.pending := rfl
@[simp] theorem State.setMode_profile (s : State) (x : ModeUnit) : (s.setMode x).profile = s.profile := rfl
@[simp] theorem State.setMode_profStatus (s : State) (x : ModeUnit) : (s.setMode x).profStatus = s.profStatus := rfl
@[simp] theorem State.setMode_loadBuffer (s : State) (x : ModeUnit) : (s.setMode x).loadBuffer = s.loadBuffer := rfl
@[simp] theorem State.setMode_sig (s : State) (x : ModeUnit) : (s.setMode x).sig = s.sig := rfl
@[simp] theorem State.setMode_inp (s : State) (x : ModeUnit) : (s.setMode x).inp = s.inp := rfl
@[simp] theorem State.setMode_rx (s : State) (x : ModeUnit) : (s.setMode x).rx = s.rx := rfl
@[simp] theorem State.setMode_door (s : State) (x : ModeUnit) : (s.setMode x).door = s.door := rfl
@[simp] theorem State.setMode_warn (s : State) (x : ModeUnit) : (s.setMode x).warn = s.warn := rfl
@[simp] theorem State.setMode_ind (s : State) (x : ModeUnit) : (s.setMode x).ind = s.ind := rfl
@[simp] theorem State.setMode_path (s : State) (x : ModeUnit) : (s.setMode x).path = s.path := rfl
@[simp] theorem State.setMode_sup (s : State) (x : ModeUnit) : (s.setMode x).sup = s.sup := rfl
@[simp] theorem State.setMode_fm (s : State) (x : ModeUnit) : (s.setMode x).fm = s.fm := rfl
@[simp] theorem State.setMode_svc (s : State) (x : ModeUnit) : (s.setMode x).svc = s.svc := rfl
@[simp] theorem State.setMode_mode (s : State) (x : ModeUnit) : (s.setMode x).mode = x := rfl
@[simp] theorem State.setMode_ctrl (s : State) (x : ModeUnit) : (s.setMode x).ctrl = s.ctrl := rfl
@[simp] theorem State.setMode_sram (s : State) (x : ModeUnit) : (s.setMode x).sram = s.sram := rfl
@[simp] theorem State.setMode_cfg (s : State) (x : ModeUnit) : (s.setMode x).cfg = s.cfg := rfl
@[simp] theorem State.setCtrl_pending (s : State) (x : Controller) : (s.setCtrl x).pending = s.pending := rfl
@[simp] theorem State.setCtrl_profile (s : State) (x : Controller) : (s.setCtrl x).profile = s.profile := rfl
@[simp] theorem State.setCtrl_profStatus (s : State) (x : Controller) : (s.setCtrl x).profStatus = s.profStatus := rfl
@[simp] theorem State.setCtrl_loadBuffer (s : State) (x : Controller) : (s.setCtrl x).loadBuffer = s.loadBuffer := rfl
@[simp] theorem State.setCtrl_sig (s : State) (x : Controller) : (s.setCtrl x).sig = s.sig := rfl
@[simp] theorem State.setCtrl_inp (s : State) (x : Controller) : (s.setCtrl x).inp = s.inp := rfl
@[simp] theorem State.setCtrl_rx (s : State) (x : Controller) : (s.setCtrl x).rx = s.rx := rfl
@[simp] theorem State.setCtrl_door (s : State) (x : Controller) : (s.setCtrl x).door = s.door := rfl
@[simp] theorem State.setCtrl_warn (s : State) (x : Controller) : (s.setCtrl x).warn = s.warn := rfl
@[simp] theorem State.setCtrl_ind (s : State) (x : Controller) : (s.setCtrl x).ind = s.ind := rfl
@[simp] theorem State.setCtrl_path (s : State) (x : Controller) : (s.setCtrl x).path = s.path := rfl
@[simp] theorem State.setCtrl_sup (s : State) (x : Controller) : (s.setCtrl x).sup = s.sup := rfl
@[simp] theorem State.setCtrl_fm (s : State) (x : Controller) : (s.setCtrl x).fm = s.fm := rfl
@[simp] theorem State.setCtrl_svc (s : State) (x : Controller) : (s.setCtrl x).svc = s.svc := rfl
@[simp] theorem State.setCtrl_mode (s : State) (x : Controller) : (s.setCtrl x).mode = s.mode := rfl
@[simp] theorem State.setCtrl_ctrl (s : State) (x : Controller) : (s.setCtrl x).ctrl = x := rfl
@[simp] theorem State.setCtrl_sram (s : State) (x : Controller) : (s.setCtrl x).sram = s.sram := rfl
@[simp] theorem State.setCtrl_cfg (s : State) (x : Controller) : (s.setCtrl x).cfg = s.cfg := rfl
@[simp] theorem State.setSram_pending (s : State) (x : List Host.Cell) : (s.setSram x).pending = s.pending := rfl
@[simp] theorem State.setSram_profile (s : State) (x : List Host.Cell) : (s.setSram x).profile = s.profile := rfl
@[simp] theorem State.setSram_profStatus (s : State) (x : List Host.Cell) : (s.setSram x).profStatus = s.profStatus := rfl
@[simp] theorem State.setSram_loadBuffer (s : State) (x : List Host.Cell) : (s.setSram x).loadBuffer = s.loadBuffer := rfl
@[simp] theorem State.setSram_sig (s : State) (x : List Host.Cell) : (s.setSram x).sig = s.sig := rfl
@[simp] theorem State.setSram_inp (s : State) (x : List Host.Cell) : (s.setSram x).inp = s.inp := rfl
@[simp] theorem State.setSram_rx (s : State) (x : List Host.Cell) : (s.setSram x).rx = s.rx := rfl
@[simp] theorem State.setSram_door (s : State) (x : List Host.Cell) : (s.setSram x).door = s.door := rfl
@[simp] theorem State.setSram_warn (s : State) (x : List Host.Cell) : (s.setSram x).warn = s.warn := rfl
@[simp] theorem State.setSram_ind (s : State) (x : List Host.Cell) : (s.setSram x).ind = s.ind := rfl
@[simp] theorem State.setSram_path (s : State) (x : List Host.Cell) : (s.setSram x).path = s.path := rfl
@[simp] theorem State.setSram_sup (s : State) (x : List Host.Cell) : (s.setSram x).sup = s.sup := rfl
@[simp] theorem State.setSram_fm (s : State) (x : List Host.Cell) : (s.setSram x).fm = s.fm := rfl
@[simp] theorem State.setSram_svc (s : State) (x : List Host.Cell) : (s.setSram x).svc = s.svc := rfl
@[simp] theorem State.setSram_mode (s : State) (x : List Host.Cell) : (s.setSram x).mode = s.mode := rfl
@[simp] theorem State.setSram_ctrl (s : State) (x : List Host.Cell) : (s.setSram x).ctrl = s.ctrl := rfl
@[simp] theorem State.setSram_sram (s : State) (x : List Host.Cell) : (s.setSram x).sram = x := rfl
@[simp] theorem State.setSram_cfg (s : State) (x : List Host.Cell) : (s.setSram x).cfg = s.cfg := rfl
@[simp] theorem State.setCfg_pending (s : State) (x : List Host.Cell) : (s.setCfg x).pending = s.pending := rfl
@[simp] theorem State.setCfg_profile (s : State) (x : List Host.Cell) : (s.setCfg x).profile = s.profile := rfl
@[simp] theorem State.setCfg_profStatus (s : State) (x : List Host.Cell) : (s.setCfg x).profStatus = s.profStatus := rfl
@[simp] theorem State.setCfg_loadBuffer (s : State) (x : List Host.Cell) : (s.setCfg x).loadBuffer = s.loadBuffer := rfl
@[simp] theorem State.setCfg_sig (s : State) (x : List Host.Cell) : (s.setCfg x).sig = s.sig := rfl
@[simp] theorem State.setCfg_inp (s : State) (x : List Host.Cell) : (s.setCfg x).inp = s.inp := rfl
@[simp] theorem State.setCfg_rx (s : State) (x : List Host.Cell) : (s.setCfg x).rx = s.rx := rfl
@[simp] theorem State.setCfg_door (s : State) (x : List Host.Cell) : (s.setCfg x).door = s.door := rfl
@[simp] theorem State.setCfg_warn (s : State) (x : List Host.Cell) : (s.setCfg x).warn = s.warn := rfl
@[simp] theorem State.setCfg_ind (s : State) (x : List Host.Cell) : (s.setCfg x).ind = s.ind := rfl
@[simp] theorem State.setCfg_path (s : State) (x : List Host.Cell) : (s.setCfg x).path = s.path := rfl
@[simp] theorem State.setCfg_sup (s : State) (x : List Host.Cell) : (s.setCfg x).sup = s.sup := rfl
@[simp] theorem State.setCfg_fm (s : State) (x : List Host.Cell) : (s.setCfg x).fm = s.fm := rfl
@[simp] theorem State.setCfg_svc (s : State) (x : List Host.Cell) : (s.setCfg x).svc = s.svc := rfl
@[simp] theorem State.setCfg_mode (s : State) (x : List Host.Cell) : (s.setCfg x).mode = s.mode := rfl
@[simp] theorem State.setCfg_ctrl (s : State) (x : List Host.Cell) : (s.setCfg x).ctrl = s.ctrl := rfl
@[simp] theorem State.setCfg_sram (s : State) (x : List Host.Cell) : (s.setCfg x).sram = s.sram := rfl
@[simp] theorem State.setCfg_cfg (s : State) (x : List Host.Cell) : (s.setCfg x).cfg = x := rfl

end Sys2Proof.Machine
end

