-- ==== Sys2Proof/Laws/Parts.lean ====
section
/-! SUPPORT. What an operation can do, said once: the parts of the state that it may change, and that it keeps the invariant. -/

namespace Sys2Proof.Machine

namespace KeepsBut

theorem refl {l : List Part} {s : State} : KeepsBut l s s := by
  intro p _
  cases p <;> (first
    | rfl | exact ⟨rfl, rfl⟩ | exact ⟨rfl, rfl, rfl⟩ | exact ⟨rfl, rfl, rfl, rfl⟩ | exact (fun _ => rfl)
    | exact ⟨rfl, rfl, rfl, rfl, rfl, rfl, rfl, rfl, rfl, rfl⟩)

theorem same_trans {s t u : State} (p : Part) (h : p.Same s t) (g : p.Same t u) : p.Same s u := by
  cases p <;> (first
    | exact Eq.trans g h
    | exact ⟨g.1.trans h.1, g.2.trans h.2⟩
    | exact ⟨g.1.trans h.1, g.2.1.trans h.2.1, g.2.2.trans h.2.2⟩
    | exact ⟨g.1.trans h.1, g.2.1.trans h.2.1, g.2.2.1.trans h.2.2.1, g.2.2.2.trans h.2.2.2⟩
    | exact (fun w => (g w).trans (h w))
    | (obtain ⟨h1, h2, h3, h4, h5, h6, h7, h8, h9, h10⟩ := h
       obtain ⟨g1, g2, g3, g4, g5, g6, g7, g8, g9, g10⟩ := g
       exact ⟨g1.trans h1, g2.trans h2, g3.trans h3, g4.trans h4, g5.trans h5, g6.trans h6, g7.trans h7, g8.trans h8,
         g9.trans h9, g10.trans h10⟩))

theorem trans {l : List Part} {s t u : State} (h : KeepsBut l s t) (g : KeepsBut l t u) : KeepsBut l s u :=
  fun p hp => same_trans p (h p hp) (g p hp)

theorem mono {l k : List Part} {s t : State} (h : KeepsBut l s t) (hl : ∀ p ∈ l, p ∈ k) : KeepsBut k s t :=
  fun p hp => h p (fun hm => hp (hl p hm))

end KeepsBut

/-- `t` comes from `s` by changing no part outside `l`, and the invariant is kept. -/
structure Evolves (l : List Part) (s t : State) : Prop where
  keeps : KeepsBut l s t
  inv : s.Inv → t.Inv

namespace Evolves

theorem refl {l : List Part} {s : State} : Evolves l s s := ⟨.refl, id⟩

theorem trans {l : List Part} {s t u : State} (h : Evolves l s t) (g : Evolves l t u) : Evolves l s u :=
  ⟨h.keeps.trans g.keeps, fun i => g.inv (h.inv i)⟩

theorem mono {l k : List Part} {s t : State} (h : Evolves l s t) (hl : ∀ p ∈ l, p ∈ k) : Evolves k s t :=
  ⟨h.keeps.mono hl, h.inv⟩

/-- An operation repeated over a list. -/
theorem forEach {l : List Part} {α : Type} {f : State → α → State} (h : ∀ t a, Evolves l t (f t a)) (xs : List α) (s : State) :
    Evolves l s (s.forEach xs f) := by
  induction xs generalizing s with
  | nil => exact .refl
  | cons x xs ih => exact (h s x).trans (ih (f s x))

/-- Repetition of an operation that behaves only while some property stands, which it keeps. -/
theorem forEachWhile {l : List Part} {α : Type} {f : State → α → State} (P : State → Prop)
    (h : ∀ t a, P t → Evolves l t (f t a) ∧ P (f t a)) (xs : List α) (s : State) (hs : P s) :
    Evolves l s (s.forEach xs f) ∧ P (s.forEach xs f) := by
  induction xs generalizing s with
  | nil => exact ⟨.refl, hs⟩
  | cons x xs ih =>
    have g := h s x hs
    have k := ih (f s x) g.2
    exact ⟨g.1.trans k.1, k.2⟩

theorem ite {l : List Part} {s t u : State} {c : Prop} [Decidable c] (h : Evolves l s t) (g : Evolves l s u) :
    Evolves l s (if c then t else u) := by
  split <;> assumption

/-- An operation done on a condition. -/
theorem iteThen {l : List Part} {s t u : State} {c : Prop} [Decidable c] (h : Evolves l s t) (g : Evolves l t u) :
    Evolves l s (if c then u else t) := ite (h.trans g) h

end Evolves

/-! ## One block replaced -/

section

variable {s : State}

theorem setInd_evolves {x : IndicationUnit} {l : List Part} (h : KeepsBut l s (s.setInd x)) : Evolves l s (s.setInd x) :=
  ⟨h, fun i => ⟨i.path, i.warnings, i.doors, i.faults, i.sram, i.cfg⟩⟩

theorem setSig_evolves {x : SignalUnit} {l : List Part} (h : KeepsBut l s (s.setSig x)) : Evolves l s (s.setSig x) :=
  ⟨h, fun i => ⟨i.path, i.warnings, i.doors, i.faults, i.sram, i.cfg⟩⟩

theorem setInp_evolves {x : InputUnit} {l : List Part} (h : KeepsBut l s (s.setInp x)) : Evolves l s (s.setInp x) :=
  ⟨h, fun i => ⟨i.path, i.warnings, i.doors, i.faults, i.sram, i.cfg⟩⟩

theorem setRx_evolves {x : LineUnit} {l : List Part} (h : KeepsBut l s (s.setRx x)) : Evolves l s (s.setRx x) :=
  ⟨h, fun i => ⟨i.path, i.warnings, i.doors, i.faults, i.sram, i.cfg⟩⟩

theorem setSup_evolves {x : Supervision} {l : List Part} (h : KeepsBut l s (s.setSup x)) : Evolves l s (s.setSup x) :=
  ⟨h, fun i => ⟨i.path, i.warnings, i.doors, i.faults, i.sram, i.cfg⟩⟩

theorem setSvc_evolves {x : ServiceUnit} {l : List Part} (h : KeepsBut l s (s.setSvc x)) : Evolves l s (s.setSvc x) :=
  ⟨h, fun i => ⟨i.path, i.warnings, i.doors, i.faults, i.sram, i.cfg⟩⟩

theorem setMode_evolves {x : ModeUnit} {l : List Part} (h : KeepsBut l s (s.setMode x)) : Evolves l s (s.setMode x) :=
  ⟨h, fun i => ⟨i.path, i.warnings, i.doors, i.faults, i.sram, i.cfg⟩⟩

theorem setCtrl_evolves {x : Controller} {l : List Part} (h : KeepsBut l s (s.setCtrl x)) : Evolves l s (s.setCtrl x) :=
  ⟨h, fun i => ⟨i.path, i.warnings, i.doors, i.faults, i.sram, i.cfg⟩⟩

theorem setPath_evolves {x : MemoryPath} {l : List Part} (h : KeepsBut l s (s.setPath x)) (k : s.path.Inv → x.Inv) :
    Evolves l s (s.setPath x) :=
  ⟨h, fun i => ⟨k i.path, i.warnings, i.doors, i.faults, i.sram, i.cfg⟩⟩

theorem setWarn_evolves {x : WarningUnit} {l : List Part} (h : KeepsBut l s (s.setWarn x))
    (k : (∀ w, (s.warn.rows.get w).Inv) → ∀ w, (x.rows.get w).Inv) : Evolves l s (s.setWarn x) :=
  ⟨h, fun i => ⟨i.path, k i.warnings, i.doors, i.faults, i.sram, i.cfg⟩⟩

theorem setDoor_evolves {x : DoorUnit} {l : List Part} (h : KeepsBut l s (s.setDoor x)) (k : s.door.Inv → x.Inv) :
    Evolves l s (s.setDoor x) :=
  ⟨h, fun i => ⟨i.path, i.warnings, k i.doors, i.faults, i.sram, i.cfg⟩⟩

theorem setFm_evolves {x : FaultMemory} {l : List Part} (h : KeepsBut l s (s.setFm x)) (k : s.fm.Inv → x.Inv) :
    Evolves l s (s.setFm x) :=
  ⟨h, fun i => ⟨i.path, i.warnings, i.doors, k i.faults, i.sram, i.cfg⟩⟩

theorem setSram_evolves {x : List Host.Cell} {l : List Part} (h : KeepsBut l s (s.setSram x))
    (k : Memory.wf Config.sramErased s.sram = true → Memory.wf Config.sramErased x = true) : Evolves l s (s.setSram x) :=
  ⟨h, fun i => ⟨i.path, i.warnings, i.doors, i.faults, k i.sram, i.cfg⟩⟩

theorem setCfg_evolves {x : List Host.Cell} {l : List Part} (h : KeepsBut l s (s.setCfg x))
    (k : Memory.wf Config.cfgErased s.cfg = true → Memory.wf Config.cfgErased x = true) : Evolves l s (s.setCfg x) :=
  ⟨h, fun i => ⟨i.path, i.warnings, i.doors, i.faults, i.sram, k i.cfg⟩⟩

end

end Sys2Proof.Machine
end

