-- ==== Sys2Proof/Laws/Memory.lean ====
section
/-! SUPPORT. The two memories: reading after writing, and the canonical form that every write keeps. -/

namespace Sys2Proof.Machine

theorem wf_cons {d : Byte} {a : Nat} {b : Byte} {m : List Host.Cell} :
    Memory.wf d ((a, b) :: m) = true ↔ b ≠ d ∧ (∀ e ∈ m, a < e.1) ∧ Memory.wf d m = true := by
  simp [Memory.wf, and_assoc]

theorem readByte_below {d : Byte} {m : List Host.Cell} {x : Nat} (h : ∀ e ∈ m, x < e.1) : readByte d m x = d := by
  induction m with
  | nil => rfl
  | cons e m ih =>
    obtain ⟨a, b⟩ := e
    have ha : x ≠ a := Nat.ne_of_lt (h _ List.mem_cons_self)
    simp [readByte, ha, ih (fun e he => h e (List.mem_cons_of_mem _ he))]

/-- Every address that a written memory lists was listed or written. -/
theorem writeByte_mem {d : Byte} {m : List Host.Cell} {x : Nat} {v : Byte} {e : Host.Cell} (h : e ∈ writeByte d m x v) :
    e ∈ m ∨ e = (x, v) := by
  induction m with
  | nil =>
    unfold writeByte at h
    split at h <;> simp_all
  | cons c m ih =>
    obtain ⟨a, b⟩ := c
    unfold writeByte at h
    split at h
    · split at h
      · exact .inl h
      · rcases List.mem_cons.mp h with h | h
        · exact .inr h
        · exact .inl h
    · split at h
      · split at h
        · exact .inl (List.mem_cons_of_mem _ h)
        · rcases List.mem_cons.mp h with h | h
          · exact .inr h
          · exact .inl (List.mem_cons_of_mem _ h)
      · rcases List.mem_cons.mp h with h | h
        · exact .inl (by simp [h])
        · rcases ih h with h | h
          · exact .inl (List.mem_cons_of_mem _ h)
          · exact .inr h

/-- A write keeps the canonical form. -/
theorem writeByte_wf {d : Byte} {m : List Host.Cell} (h : Memory.wf d m = true) (x : Nat) (v : Byte) :
    Memory.wf d (writeByte d m x v) = true := by
  induction m with
  | nil =>
    unfold writeByte
    split
    · rfl
    · next hv => exact wf_cons.mpr ⟨hv, by simp, rfl⟩
  | cons c m ih =>
    obtain ⟨a, b⟩ := c
    obtain ⟨hb, hm, hw⟩ := wf_cons.mp h
    unfold writeByte
    split
    · next hx =>
      split
      · exact h
      · next hv =>
        refine wf_cons.mpr ⟨hv, ?_, h⟩
        intro e he
        rcases List.mem_cons.mp he with he | he
        · simp [he, hx]
        · exact Nat.lt_trans hx (hm e he)
    · next hx =>
      split
      · next hxa =>
        split
        · exact hw
        · next hv => exact wf_cons.mpr ⟨hv, by simpa [hxa] using hm, hw⟩
      · next hxa =>
        refine wf_cons.mpr ⟨hb, ?_, ih hw⟩
        intro e he
        rcases writeByte_mem he with he | he
        · exact hm e he
        · rw [he]
          show a < x
          omega

/-- Reading after a write: the written byte at its address, every other byte as before. -/
theorem readByte_writeByte {d : Byte} {m : List Host.Cell} (h : Memory.wf d m = true) (x : Nat) (v : Byte) (y : Nat) :
    readByte d (writeByte d m x v) y = if y = x then v else readByte d m y := by
  induction m with
  | nil =>
    unfold writeByte
    split
    · next hv => simp [readByte, hv]
    · simp [readByte]
  | cons c m ih =>
    obtain ⟨a, b⟩ := c
    obtain ⟨hb, hm, hw⟩ := wf_cons.mp h
    unfold writeByte
    split
    · next hx =>
      split
      · next hv =>
        by_cases hy : y = x
        · subst hy
          have : readByte d ((a, b) :: m) y = d := by
            apply readByte_below
            intro e he
            rcases List.mem_cons.mp he with he | he
            · simp [he, hx]
            · exact Nat.lt_trans hx (hm e he)
          simp [this, hv]
        · simp [hy]
      · simp only [readByte]
    · next hx =>
      split
      · next hxa =>
        split
        · next hv =>
          by_cases hy : y = x
          · subst hy
            rw [if_pos rfl, hv]
            exact readByte_below (by simpa [hxa] using hm)
          · have : y ≠ a := by omega
            simp [hy, this, readByte]
        · simp only [readByte, hxa]
          by_cases hy : y = a <;> simp [hy]
      · next hxa =>
        by_cases hy : y = a
        · have : y ≠ x := by omega
          rw [if_neg this]
          simp [readByte, hy]
        · simp only [readByte, hy, if_false]
          rw [ih hw]

theorem writeBytes_wf {d : Byte} (bs : List Byte) {m : List Host.Cell} (h : Memory.wf d m = true) (x : Nat) :
    Memory.wf d (writeBytes d m x bs) = true := by
  induction bs generalizing m x with
  | nil => exact h
  | cons b bs ih => exact ih (writeByte_wf h x b) (x + 1)

/-- Reading after consecutive bytes were written. -/
theorem readByte_writeBytes {d : Byte} (bs : List Byte) {m : List Host.Cell} (h : Memory.wf d m = true) (x y : Nat) :
    readByte d (writeBytes d m x bs) y = if x ≤ y ∧ y < x + bs.length then bs.getD (y - x) d else readByte d m y := by
  induction bs generalizing m x with
  | nil =>
    rw [if_neg (by simp only [List.length_nil]; omega)]
    rfl
  | cons b bs ih =>
    rw [writeBytes, ih (writeByte_wf h x b), readByte_writeByte h]
    rcases Nat.lt_trichotomy y x with hy | hy | hy
    · have h1 : ¬ (x + 1 ≤ y ∧ y < x + 1 + bs.length) := by omega
      have h2 : ¬ (x ≤ y ∧ y < x + (b :: bs).length) := by omega
      simp only [if_neg h1, if_neg h2, if_neg (Nat.ne_of_lt hy)]
    · subst hy
      have h1 : ¬ (y + 1 ≤ y ∧ y < y + 1 + bs.length) := by omega
      have h2 : y ≤ y ∧ y < y + (b :: bs).length := ⟨Nat.le_refl y, by simp⟩
      rw [if_neg h1, if_pos h2]
      simp
    · by_cases h1 : y < x + 1 + bs.length
      · have h2 : x ≤ y ∧ y < x + (b :: bs).length := by
          simp only [List.length_cons]
          omega
        have h3 : y - x = (y - (x + 1)) + 1 := by omega
        rw [if_pos ⟨hy, h1⟩, if_pos h2, h3, List.getD_cons_succ]
      · have h2 : ¬ (x + 1 ≤ y ∧ y < x + 1 + bs.length) := by omega
        have h3 : ¬ (x ≤ y ∧ y < x + (b :: bs).length) := by
          simp only [List.length_cons]
          omega
        rw [if_neg h2, if_neg h3, if_neg (by omega)]

theorem writeLanes_wf {m : List Host.Cell} (h : Memory.wf Config.sramErased m = true) (a : Nat) (w : Word) (lanes : BitVec 4) :
    Memory.wf Config.sramErased (writeLanes m a w lanes) = true := by
  have step : ∀ (l : List Nat) (m : List Host.Cell), Memory.wf Config.sramErased m = true →
      Memory.wf Config.sramErased (l.foldl (fun m k => if lanes.getLsbD k then
        writeByte Config.sramErased m (a + k) ((w >>> (8 * k)).setWidth 8) else m) m) = true := by
    intro l
    induction l with
    | nil => exact fun _ h => h
    | cons k l ih =>
      intro m h
      apply ih
      show Memory.wf _ (if lanes.getLsbD k then _ else m) = true
      split
      · exact writeByte_wf h _ _
      · exact h
  exact step _ m h

/-- A word write stores exactly the enabled lanes. -/
theorem writeLanes_stores {m : List Host.Cell} (h : Memory.wf Config.sramErased m = true) (a : Nat) (w : Word)
    (lanes : BitVec 4) : StoresWord Config.sramErased m (writeLanes m a w lanes) a w lanes := by
  intro x
  have one : ∀ (m : List Host.Cell) (k : Nat), Memory.wf Config.sramErased m = true →
      Memory.wf Config.sramErased (if lanes.getLsbD k then
        writeByte Config.sramErased m (a + k) ((w >>> (8 * k)).setWidth 8) else m) = true := by
    intro m k h
    split
    · exact writeByte_wf h _ _
    · exact h
  have rd : ∀ (m : List Host.Cell) (k : Nat), Memory.wf Config.sramErased m = true →
      readByte Config.sramErased (if lanes.getLsbD k then
        writeByte Config.sramErased m (a + k) ((w >>> (8 * k)).setWidth 8) else m) x
        = if lanes.getLsbD k = true ∧ x = a + k then (w >>> (8 * k)).setWidth 8 else readByte Config.sramErased m x := by
    intro m k h
    split
    · next hk =>
      rw [readByte_writeByte h]
      simp [hk]
    · next hk => simp [hk]
  unfold writeLanes
  simp only [show List.range 4 = [0, 1, 2, 3] from rfl, List.foldl]
  rw [rd _ 3 (one _ 2 (one _ 1 (one _ 0 h))), rd _ 2 (one _ 1 (one _ 0 h)), rd _ 1 (one _ 0 h), rd _ 0 h]
  unfold laneAt
  by_cases h0 : x = a
  · subst h0; simp
  · by_cases h1 : x = a + 1
    · subst h1; simp
    · by_cases h2 : x = a + 2
      · subst h2; simp
      · by_cases h3 : x = a + 3
        · subst h3; simp
        · have : ¬ (a ≤ x ∧ x < a + 4) := by omega
          simp [h0, h1, h2, h3, ← Bool.decide_and, this]

theorem reset_memories_wf :
    Memory.wf Config.sramErased State.reset.sram = true ∧ Memory.wf Config.cfgErased State.reset.cfg = true := ⟨rfl, rfl⟩

end Sys2Proof.Machine
end

