-- ==== Sys2Proof/Laws/Path.lean ====
section
/-! SUPPORT. The update queue, the resync set and the attention sets: what each operation of the memory path may change, and that
it keeps the queue within its bounds (06). -/

namespace Sys2Proof.Machine

theorem insertByKey_perm {α : Type} (key : α → Nat) (x : α) (l : List α) : (insertByKey key x l).Perm (x :: l) := by
  induction l with
  | nil => exact .refl _
  | cons y ys ih =>
    unfold insertByKey
    split
    · exact .refl _
    · exact (ih.cons y).trans (.swap x y ys)

theorem sortByKey_perm {α : Type} (key : α → Nat) (l : List α) : (sortByKey key l).Perm l := by
  induction l with
  | nil => exact .refl _
  | cons x xs ih => exact (insertByKey_perm key x _).trans (ih.cons x)

namespace MemoryPath

theorem Inv.setCause {p : MemoryPath} (h : p.Inv) (c : Cause) : (p.setCause c).Inv := h

theorem coalesce_offsets (q : List (Nat × Word)) (off : Nat) (w : Word) :
    (coalesce q off w).map Prod.fst = q.map Prod.fst := by
  induction q with
  | nil => rfl
  | cons e q ih =>
    have : coalesce (e :: q) off w = (if e.1 = off then (off, w) else e) :: coalesce q off w := rfl
    rw [this, List.map_cons, List.map_cons, ih]
    split
    · next h => rw [h]
    · rfl

theorem Inv.offer {p : MemoryPath} (h : p.Inv) (off : Nat) (w : Word) : (p.offer off w).Inv := by
  unfold MemoryPath.offer
  split
  · refine ⟨?_, ?_⟩
    · simpa [coalesce] using h.1
    · simpa [coalesce_offsets] using h.2
  · next hq =>
    have hq : off ∉ p.queue.map Prod.fst := by
      intro hm
      obtain ⟨e, he, rfl⟩ := List.mem_map.mp hm
      exact hq (List.any_eq_true.mpr ⟨e, he, by simp⟩)
    split
    · exact h
    · next hr =>
      have hr : off ∉ p.resync := by simpa using hr
      have fresh : (off :: (p.queue.map Prod.fst ++ p.resync)).Nodup :=
        List.nodup_cons.mpr ⟨by simp [hq, hr], h.2⟩
      split
      · next hl =>
        refine ⟨?_, ?_⟩
        · simp only [MemoryPath.withQueue, List.length_append, List.length_singleton]
          exact hl
        · have : ((p.queue ++ [(off, w)]).map Prod.fst ++ p.resync).Perm (off :: (p.queue.map Prod.fst ++ p.resync)) := by
            simp only [List.map_append, List.map_cons, List.map_nil, List.append_assoc, List.singleton_append]
            exact List.perm_middle
          exact this.nodup_iff.mpr fresh
      · have marked : MemoryPath.Inv { p with resync := insertByKey id off p.resync } := by
          refine ⟨h.1, ?_⟩
          have : (p.queue.map Prod.fst ++ insertByKey id off p.resync).Perm
              (off :: (p.queue.map Prod.fst ++ p.resync)) :=
            ((insertByKey_perm id off p.resync).append_left _).trans List.perm_middle
          exact this.nodup_iff.mpr fresh
        show MemoryPath.Inv (if p.windowOpen then _ else _)
        split
        · exact marked
        · exact marked

/-- A queue and a resync set that hold no more than before. -/
theorem Inv.sub {p q : MemoryPath} (h : p.Inv) (hq : q.queue.Sublist p.queue) (hr : q.resync.Sublist p.resync) : q.Inv :=
  ⟨Nat.le_trans hq.length_le h.1, ((hq.map Prod.fst).append hr).nodup h.2⟩

theorem Inv.writeDone {p : MemoryPath} (h : p.Inv) (e : Nat × Word) : (p.writeDone e).Inv := by
  unfold MemoryPath.writeDone
  split
  · exact h
  · next hd rest hq =>
    split
    · exact h.sub (by rw [hq]; exact List.sublist_cons_self hd rest) (List.Sublist.refl _)
    · exact h

end MemoryPath

theorem setCause_evolves (s : State) (c : Cause) : Evolves [.attnPending] s (s.setCause c) :=
  setPath_evolves (fun p hp => by
    cases p <;> (first
      | exact absurd (by decide) hp | rfl | exact ⟨rfl, rfl⟩ | exact ⟨rfl, rfl, rfl⟩ | exact ⟨rfl, rfl, rfl, rfl⟩
      | exact (fun _ => rfl) | exact ⟨rfl, rfl, rfl, rfl, rfl, rfl, rfl, rfl, rfl, rfl⟩)) (fun h => h.setCause c)

theorem keeps_path (s : State) (p : MemoryPath) (l : List Part)
    (h : ∀ q, q ∈ [Part.straps, .window, .queue, .inFlight, .awaited, .held, .readData, .command, .result, .violations,
      .overruns, .attnPending, .attnEnable] → q ∉ l → q.Same s (s.setPath p)) : KeepsBut l s (s.setPath p) := by
  intro q hq
  cases q <;> (first
    | exact h _ (by decide) hq | rfl | exact ⟨rfl, rfl⟩ | exact ⟨rfl, rfl, rfl⟩ | exact ⟨rfl, rfl, rfl, rfl⟩
    | exact (fun _ => rfl) | exact ⟨rfl, rfl, rfl, rfl, rfl, rfl, rfl, rfl, rfl, rfl⟩)

theorem offer_keeps (p : MemoryPath) (off : Nat) (w : Word) :
    (p.offer off w).straps = p.straps ∧ (p.offer off w).windowOpen = p.windowOpen ∧ (p.offer off w).inFlight = p.inFlight ∧
      (p.offer off w).awaited = p.awaited ∧ (p.offer off w).held = p.held ∧ (p.offer off w).readData = p.readData ∧
      (p.offer off w).command = p.command ∧ (p.offer off w).result = p.result ∧ (p.offer off w).violations = p.violations ∧
      (p.offer off w).overruns = p.overruns ∧ (p.offer off w).attnEnable = p.attnEnable := by
  unfold MemoryPath.offer
  split
  · simp
  · split
    · simp
    · split
      · simp [MemoryPath.withQueue]
      · split <;> simp [MemoryPath.setCause]

theorem offer_evolves (s : State) (off : Nat) : Evolves Part.images s (s.offer off) := by
  obtain ⟨h1, h2, h3, h4, h5, h6, h7, h8, h9, h10, h11⟩ := offer_keeps s.path off (s.imageWord off)
  refine setPath_evolves (keeps_path _ _ _ ?_) (fun h => h.offer _ _)
  intro q _ hq
  cases q <;> (first | exact absurd (by decide) hq | contradiction | assumption)

theorem offerChanged_evolves (old s : State) (offs : List Nat) : Evolves Part.images s (State.offerChanged old s offs) :=
  Evolves.forEach (l := Part.images)
    (f := fun t o => if old.imageWord o = s.imageWord o then t else t.offer o)
    (fun t o => Evolves.ite .refl (offer_evolves t o)) offs s

theorem offerStatus_evolves (old s : State) : Evolves Part.images s (State.offerStatus old s) :=
  Evolves.ite .refl (offer_evolves s _)

theorem MemoryPath.Inv.requeued {p : MemoryPath} (h : p.Inv) (f : Nat → Word) (a : Option (List Nat)) :
    MemoryPath.Inv
      { p.withQueue (p.queue ++ (p.resync.take (Config.calmAt - p.queue.length)).map (fun o => (o, f o))) with
        resync := p.resync.drop (Config.calmAt - p.queue.length)
        awaited := a } := by
  refine ⟨?_, ?_⟩
  · simp only [MemoryPath.withQueue, List.length_append, List.length_map, List.length_take]
    have := h.1
    simp only [Config.queueMax, Config.calmAt] at *
    omega
  · have : ((p.queue ++ (p.resync.take (Config.calmAt - p.queue.length)).map (fun o => (o, f o))).map Prod.fst ++
        p.resync.drop (Config.calmAt - p.queue.length)) = p.queue.map Prod.fst ++ p.resync := by
      rw [List.map_append, List.map_map, List.append_assoc]
      congr 1
      have : (Prod.fst ∘ fun o => (o, f o)) = (id : Nat → Nat) := rfl
      rw [this, List.map_id, List.take_append_drop]
    simp only [MemoryPath.withQueue]
    rw [this]
    exact h.2

theorem requeue_evolves (s : State) : Evolves [.queue, .awaited] s s.requeue := by
  refine setPath_evolves (keeps_path _ _ _ ?_) (fun h => h.requeued s.imageWord _)
  intro q _ hq
  cases q <;> (first | exact absurd (by decide) hq | contradiction | rfl)

theorem violation_evolves (s : State) : Evolves (.violations :: Part.images) s s.violation := by
  have h1 : Evolves [.violations] s (s.setPath { s.path with violations := satInc s.path.violations }) :=
    setPath_evolves (fun p hp => by
    cases p <;> (first
      | exact absurd (by decide) hp | rfl | exact ⟨rfl, rfl⟩ | exact ⟨rfl, rfl, rfl⟩ | exact ⟨rfl, rfl, rfl, rfl⟩
      | exact (fun _ => rfl) | exact ⟨rfl, rfl, rfl, rfl, rfl, rfl, rfl, rfl, rfl, rfl⟩)) id
  unfold State.violation
  exact ((h1.mono (by decide)).trans ((offerChanged_evolves _ _ _).mono (by decide))).trans
    ((setCause_evolves _ _).mono (by decide))

theorem writeSram_evolves (s : State) (a : Nat) (w : Word) (lanes : BitVec 4) : Evolves [.sram] s (s.writeSram a w lanes) :=
  setSram_evolves (fun p hp => by
    cases p <;> (first
      | exact absurd (by decide) hp | rfl | exact ⟨rfl, rfl⟩ | exact ⟨rfl, rfl, rfl⟩ | exact ⟨rfl, rfl, rfl, rfl⟩
      | exact (fun _ => rfl) | exact ⟨rfl, rfl, rfl, rfl, rfl, rfl, rfl, rfl, rfl, rfl⟩)) (fun h => writeLanes_wf h a w lanes)

/-- A write of a word stores its enabled lanes and no other byte. -/
theorem writeSram_stores (s : State) (h : s.Inv) (a : Nat) (w : Word) (lanes : BitVec 4) :
    StoresWord Config.sramErased s.sram (s.writeSram a w lanes).sram a w lanes := writeLanes_stores h.sram a w lanes

theorem finishCommand_evolves (s : State) (v : ResultValue) (r : Reason) :
    Evolves (.command :: .result :: Part.images) s (s.finishCommand v r) := by
  have h1 : Evolves [.command, .result] s (s.setPath
      { s.path with
        command := none
        result := { value := v, code := s.path.command.getD 0, reason := r } }) :=
    setPath_evolves (fun p hp => by
    cases p <;> (first
      | exact absurd (by decide) hp | rfl | exact ⟨rfl, rfl⟩ | exact ⟨rfl, rfl, rfl⟩ | exact ⟨rfl, rfl, rfl, rfl⟩
      | exact (fun _ => rfl) | exact ⟨rfl, rfl, rfl, rfl, rfl, rfl, rfl, rfl, rfl, rfl⟩)) id
  unfold State.finishCommand
  exact ((h1.mono (by decide)).trans ((offer_evolves _ _).mono (by decide))).trans ((setCause_evolves _ _).mono (by decide))

theorem inProgress_evolves (s : State) : Evolves (.result :: Part.images) s s.inProgress := by
  have h1 : Evolves [.result] s (s.setPath
      { s.path with result := { value := .inProgress, code := s.path.command.getD 0 } }) :=
    setPath_evolves (fun p hp => by
    cases p <;> (first
      | exact absurd (by decide) hp | rfl | exact ⟨rfl, rfl⟩ | exact ⟨rfl, rfl, rfl⟩ | exact ⟨rfl, rfl, rfl, rfl⟩
      | exact (fun _ => rfl) | exact ⟨rfl, rfl, rfl, rfl, rfl, rfl, rfl, rfl, rfl, rfl⟩)) id
  unfold State.inProgress
  exact (h1.mono (by decide)).trans ((offer_evolves _ _).mono (by decide))

theorem imageOffsets_nodup : imageOffsets.Nodup := by
  apply List.Nodup.filter
  apply List.Nodup.map
  · intro a b h
    simpa using h
  · exact List.nodup_range

end Sys2Proof.Machine
end

