-- ==== Sys2Proof/Laws/Indication.lean ====
section
/-! SUPPORT. What the indication unit's operations may change: telltales, gauges with their images, the chime, and the end of an
output test (05, 09.4). -/

namespace Sys2Proof.Machine

theorem withLamps_evolves (s : State) (lamps : Table 48 Lamp) (b : Blink) : Evolves [.lamps] s (s.withLamps lamps b) :=
  setInd_evolves (fun p hp => by
    cases p <;> (first
      | exact absurd (by decide) hp | rfl | exact ⟨rfl, rfl⟩ | exact ⟨rfl, rfl, rfl⟩ | exact ⟨rfl, rfl, rfl, rfl⟩
      | exact (fun _ => rfl) | exact ⟨rfl, rfl, rfl, rfl, rfl, rfl, rfl, rfl, rfl, rfl⟩))

theorem evalLamps_evolves (s : State) (p : Fin 48 → Bool) : Evolves [.lamps] s (s.evalLamps p) := withLamps_evolves ..

theorem evalAllLamps_evolves (s : State) : Evolves [.lamps] s s.evalAllLamps := evalLamps_evolves ..

theorem evalLampsNaming_evolves (s : State) (q : LampSource → Bool) : Evolves [.lamps] s (s.evalLampsNaming q) :=
  evalLamps_evolves ..

theorem setGauge_evolves (s : State) (g : Fin 12) (x : Gauge) : Evolves [.gauges] s (s.setGauge g x) :=
  setInd_evolves (fun p hp => by
    cases p <;> (first
      | exact absurd (by decide) hp | rfl | exact ⟨rfl, rfl⟩ | exact ⟨rfl, rfl, rfl⟩ | exact ⟨rfl, rfl, rfl, rfl⟩
      | exact (fun _ => rfl) | exact ⟨rfl, rfl, rfl, rfl, rfl, rfl, rfl, rfl, rfl, rfl⟩))

theorem setGauge_offer_evolves (s : State) (g : Fin 12) (x : Gauge) (off : Nat) :
    Evolves (.gauges :: Part.images) s ((s.setGauge g x).offer off) :=
  ((setGauge_evolves s g x).mono (by decide)).trans ((offer_evolves _ _).mono (by decide))

theorem enterGauge_evolves (s : State) (g : Fin 12) (x : Gauge) :
    Evolves (.gauges :: Part.images) s (s.enterGauge g x) := setGauge_offer_evolves ..

theorem retarget_evolves (s : State) (g : Fin 12) (x : Gauge) : Evolves (.gauges :: Part.images) s (s.retarget g x) := by
  unfold State.retarget
  exact Evolves.ite (setGauge_offer_evolves ..) ((setGauge_evolves ..).mono (by decide))

theorem parkDecision_evolves (s : State) (g : Fin 12) : Evolves (.gauges :: Part.images) s (s.parkDecision g) := by
  unfold State.parkDecision
  exact Evolves.ite (enterGauge_evolves ..) .refl

theorem setRequested_evolves (s : State) (g : Fin 12) (r : Nat) : Evolves (.gauges :: Part.images) s (s.setRequested g r) := by
  unfold State.setRequested
  exact Evolves.ite (retarget_evolves ..) ((setGauge_evolves ..).mono (by decide))

theorem boundGauge_evolves (s : State) (n : Fin 256) (g : Fin 12) :
    Evolves (.gauges :: Part.images) s (s.boundGauge n g) := by
  unfold State.boundGauge
  dsimp only
  generalize (s.profile.gauges.get g).mode = m
  cases m with
  | bound n' rawZero rawFull =>
    dsimp only
    refine Evolves.ite (Evolves.trans ?_ (parkDecision_evolves _ g)) .refl
    refine Evolves.ite (Evolves.ite .refl ?_) .refl
    exact (setRequested_evolves ..).trans ((offer_evolves ..).mono (by decide))
  | off => exact .refl
  | host => exact .refl

theorem startHoming_evolves (s : State) (g : Fin 12) : Evolves (.gauges :: Part.images) s (s.startHoming g) := by
  unfold State.startHoming
  refine Evolves.ite ?_ .refl
  exact Evolves.ite ((setGauge_evolves ..).mono (by decide)) (setGauge_offer_evolves ..)

theorem homeAll_evolves (s : State) : Evolves (.gauges :: Part.images) s s.homeAll :=
  Evolves.forEach startHoming_evolves _ _

theorem unhome_evolves (s : State) (g : Fin 12) : Evolves (.gauges :: Part.images) s (s.unhome g) := by
  unfold State.unhome
  exact Evolves.ite .refl (setGauge_offer_evolves ..)

theorem enterSweep_evolves (s : State) (g : Fin 12) : Evolves (.gauges :: Part.images) s (s.enterSweep g) := by
  unfold State.enterSweep
  exact Evolves.ite (enterGauge_evolves ..) .refl

theorem leaveSweep_evolves (s : State) (g : Fin 12) : Evolves (.gauges :: Part.images) s (s.leaveSweep g) := by
  unfold State.leaveSweep
  exact Evolves.ite (enterGauge_evolves ..) .refl

theorem takeArrival_evolves (s : State) (g : Fin 12) : Evolves (.gauges :: Part.images) s (s.takeArrival g) := by
  unfold State.takeArrival
  refine Evolves.ite ?_ (setGauge_offer_evolves ..)
  split
  · exact (setGauge_offer_evolves ..).trans (retarget_evolves ..)
  · exact (setGauge_offer_evolves ..).trans (retarget_evolves ..)
  · exact (setGauge_offer_evolves ..).trans (leaveSweep_evolves ..)
  · exact (setGauge_offer_evolves ..).trans (leaveSweep_evolves ..)

theorem completeHoming_evolves (s : State) (g : Fin 12) : Evolves (.gauges :: Part.images) s (s.completeHoming g) :=
  enterGauge_evolves ..

theorem setChime_evolves (s : State) (c : Chime) : Evolves [.chime] s (s.setChime c) := setInd_evolves (fun p hp => by
    cases p <;> (first
      | exact absurd (by decide) hp | rfl | exact ⟨rfl, rfl⟩ | exact ⟨rfl, rfl, rfl⟩ | exact ⟨rfl, rfl, rfl, rfl⟩
      | exact (fun _ => rfl) | exact ⟨rfl, rfl, rfl, rfl, rfl, rfl, rfl, rfl, rfl, rfl⟩))

theorem setChimed_evolves (s : State) (w : Fin 96) : Evolves [.chimed] s (s.setChimed w) := by
  refine setWarn_evolves (fun p hp => ?_) (fun h v => ?_)
  · cases p <;> (first
      | exact absurd (by decide) hp | rfl | exact ⟨rfl, rfl⟩ | exact ⟨rfl, rfl, rfl⟩ | exact ⟨rfl, rfl, rfl, rfl⟩
      | exact ⟨rfl, rfl, rfl, rfl, rfl, rfl, rfl, rfl, rfl, rfl⟩
      | (intro v
         by_cases hv : w = v
         · subst hv
           simp
         · simp [Table.get_modify_ne _ hv]))
  · by_cases hv : w = v
    · subst hv
      simp only [Table.get_modify_self]
      exact h w
    · simp only [Table.get_modify_ne _ hv]
      exact h v

theorem beginPattern_evolves (s : State) (sel : Option (Fin 96)) : Evolves [.chime, .chimed] s (s.beginPattern sel) := by
  unfold State.beginPattern
  split
  · exact (setChime_evolves ..).mono (by decide)
  · split
    · exact (setChime_evolves ..).mono (by decide)
    · exact ((setChimed_evolves ..).mono (by decide)).trans ((setChime_evolves ..).mono (by decide))
    · exact (setChime_evolves ..).mono (by decide)
    · exact (setChime_evolves ..).mono (by decide)

theorem evalChime_evolves (s : State) : Evolves [.chime, .chimed] s s.evalChime := by
  unfold State.evalChime
  exact Evolves.ite ((setChime_evolves ..).mono (by decide)) (Evolves.ite .refl (beginPattern_evolves ..))

theorem endChimeTest_evolves (s : State) : Evolves [.chime, .chimed] s s.endChimeTest := by
  unfold State.endChimeTest
  exact ((setChime_evolves ..).mono (by decide)).trans (beginPattern_evolves ..)

theorem silenceChime_evolves (s : State) : Evolves [.chime] s s.silenceChime := setChime_evolves ..

theorem endTest_evolves (s : State) (o : TestOutcome) : Evolves Part.testEnd s (s.endTest o) := by
  have h1 : Evolves [.test] s (s.setSvc
      { s.svc with test := .none, testDuration := 0, testTimer := none, lastOutcome := o }) :=
    setSvc_evolves (fun p hp => by
    cases p <;> (first
      | exact absurd (by decide) hp | rfl | exact ⟨rfl, rfl⟩ | exact ⟨rfl, rfl, rfl⟩ | exact ⟨rfl, rfl, rfl, rfl⟩
      | exact (fun _ => rfl) | exact ⟨rfl, rfl, rfl, rfl, rfl, rfl, rfl, rfl, rfl, rfl⟩))
  unfold State.endTest
  refine Evolves.ite .refl ?_
  have h2 := (h1.mono (k := Part.testEnd) (by decide)).trans ((offerStatus_evolves s _).mono (by decide))
  split
  · exact h2
  · exact h2.trans ((evalAllLamps_evolves _).mono (by decide))
  · exact h2.trans ((Evolves.forEach leaveSweep_evolves _ _).mono (by decide))
  · exact h2.trans ((endChimeTest_evolves _).mono (by decide))

end Sys2Proof.Machine
end

