-- ==== Sys2Proof/Laws/Warnings.lean ====
section
/-! SUPPORT. The activation machine keeps each warning's flags and timer in agreement with its state, and what a warning event may
change (04). -/

namespace Sys2Proof.Machine

namespace Warning.Inv

theorem activate {w : Warning} (clock : BitVec 32) : (w.activate clock).Inv :=
  ⟨rfl, fun _ => rfl, fun h => Bool.noConfusion h⟩

theorem toInactive {w : Warning} : w.toInactive.Inv := ⟨rfl, rfl, rfl⟩

theorem offExpire {w : Warning} (cfg : WarnCfg) (hp : w.present = false) : (w.offExpire cfg).Inv := by
  unfold Warning.offExpire
  split
  · next h =>
    have : w.state = .activeUnack := h.1
    simp [Warning.Inv, this, Warning.delaying, hp]
  · exact toInactive

theorem acknowledge {w : Warning} (h : w.Inv) (hs : w.state = .activeUnack) : w.acknowledge.Inv := by
  unfold Warning.acknowledge
  split
  · exact toInactive
  · next hl =>
    simp only [Warning.Inv, hs] at h
    simp only [Warning.Inv, Warning.delaying]
    exact ⟨h.1, h.2.1, by simpa using hl, trivial⟩

theorem conditionYes {w : Warning} (h : w.Inv) (cfg : WarnCfg) (clock : BitVec 32) : (w.conditionYes cfg clock).Inv := by
  unfold Warning.conditionYes
  cases hs : w.state with
  | inactive =>
    simp only [Warning.Inv, hs] at h
    dsimp only
    split
    · exact activate clock
    · exact ⟨rfl, rfl, h.2.1, h.2.2⟩
  | pending =>
    simp only [Warning.Inv, hs] at h
    simp only [Warning.Inv, Warning.delaying]
    exact ⟨trivial, h.2⟩
  | activeUnack => simp [Warning.Inv, Warning.delaying]
  | activeAck =>
    simp only [Warning.Inv, hs] at h
    simp only [Warning.Inv, Warning.delaying]
    exact ⟨rfl, fun _ => trivial, h.2.2⟩

theorem conditionNo {w : Warning} (h : w.Inv) (hp : w.present = true) (cfg : WarnCfg) : (w.conditionNo cfg).Inv := by
  unfold Warning.conditionNo
  cases hs : w.state with
  | inactive =>
    simp only [Warning.Inv, hs] at h
    simp only [Warning.Inv]
    exact h
  | pending =>
    simp only [Warning.Inv, hs] at h
    exact ⟨rfl, h.2.2⟩
  | activeUnack =>
    simp only [Warning.Inv, hs] at h
    dsimp only
    split
    · exact offExpire cfg rfl
    · have hl : w.latched = false := by
        cases hl : w.latched with
        | false => rfl
        | true => exact absurd ((h.2.2 hl).1.symm.trans hp) (by decide)
      simp [Warning.Inv, Warning.delaying, hl]
  | activeAck =>
    simp only [Warning.Inv, hs] at h
    dsimp only
    split
    · exact offExpire cfg rfl
    · simp [Warning.Inv, Warning.delaying, h.2.2]

/-- A re-evaluation keeps the invariant (R77 to R80). -/
theorem evaluate {w : Warning} (h : w.Inv) (cfg : WarnCfg) (clock : BitVec 32) (raw isOpen : Bool) :
    (w.evaluate cfg clock raw isOpen).Inv := by
  have hx : Warning.Inv { w with raw := raw } := h
  unfold Warning.evaluate
  dsimp only
  split
  · exact hx
  · next hne =>
    split
    · exact hx.conditionYes cfg clock
    · next hf =>
      refine hx.conditionNo ?_ cfg
      show w.present = true
      cases hp : w.present with
      | true => rfl
      | false => exact absurd (by simpa [hp] using hf) hne

theorem parked (w : Warning) : w.parked.Inv := ⟨rfl, rfl, rfl⟩

theorem arm {w : Warning} (h : w.Inv) (hs : w.state = .activeUnack) : Warning.Inv { w with armed := true } := by
  simp only [Warning.Inv, hs] at h ⊢
  exact h

end Warning.Inv

/-- A new warning table handed on (R89 to R91). -/
theorem commitWarnings_evolves (s : State) (rows : Table 96 Warning)
    (h : (∀ w, (s.warn.rows.get w).Inv) → ∀ w, (rows.get w).Inv) :
    Evolves Part.evaluation s (s.commitWarnings rows) := by
  have h1 : Evolves [.warnings, .chimed] s (s.setWarn { s.warn with rows := rows }) := setWarn_evolves (fun p hp => by
    cases p <;> (first
      | exact absurd (by decide) hp | rfl | exact ⟨rfl, rfl⟩ | exact ⟨rfl, rfl, rfl⟩ | exact ⟨rfl, rfl, rfl, rfl⟩
      | exact (fun _ => rfl) | exact ⟨rfl, rfl, rfl, rfl, rfl, rfl, rfl, rfl, rfl, rfl⟩)) h
  unfold State.commitWarnings
  dsimp only
  refine Evolves.trans ?_ ((evalChime_evolves _).mono (by decide))
  refine Evolves.trans ?_ ((evalLampsNaming_evolves _ _).mono (by decide))
  refine Evolves.iteThen ?_ ((endTest_evolves _ _).mono (by decide))
  refine Evolves.iteThen ?_ ((setCause_evolves _ _).mono (by decide))
  exact (h1.mono (by decide)).trans ((offerChanged_evolves s _ _).mono (by decide))

theorem commitWarning_evolves (s : State) (w : Fin 96) (x : Warning) (h : (s.warn.rows.get w).Inv → x.Inv) :
    Evolves Part.evaluation s (s.commitWarning w x) := by
  refine commitWarnings_evolves s _ (fun i v => ?_)
  rw [Table.get_set]
  split
  · exact h (i w)
  · exact i v

theorem evaluatedRows_inv (s : State) (p : WarnCfg → Bool) (h : ∀ w, (s.warn.rows.get w).Inv) (w : Fin 96) :
    ((s.evaluatedRows p).get w).Inv := by
  unfold State.evaluatedRows
  rw [Table.get_ofFn]
  dsimp only
  split
  · exact (h w).evaluate ..
  · exact h w

theorem evalWarnings_evolves (s : State) (p : WarnCfg → Bool) : Evolves Part.evaluation s (s.evalWarnings p) :=
  Evolves.ite (commitWarnings_evolves s _ (evaluatedRows_inv s p)) .refl

theorem evalAllWarnings_evolves (s : State) : Evolves Part.evaluation s s.evalAllWarnings := evalWarnings_evolves ..

theorem acknowledge_evolves (s : State) (w : Fin 96) (h : (s.warn.rows.get w).state = .activeUnack) :
    Evolves Part.evaluation s (s.acknowledge w) := commitWarning_evolves s w _ (fun i => i.acknowledge h)

theorem firstUnack_state {s : State} {w : Fin 96} (h : s.firstUnack = some w) : (s.warn.rows.get w).state = .activeUnack := by
  have := List.find?_some h
  simpa using this

theorem ackInput_evolves (s : State) (n : Fin 256) : Evolves (.ackLevel :: Part.evaluation) s (s.ackInput n) := by
  unfold State.ackInput
  refine Evolves.ite ?_ .refl
  dsimp only
  have h1 : Evolves [.ackLevel] s (s.setWarn { s.warn with ackLevel := ackLevelOf (s.quality n) (s.value n) }) :=
    setWarn_evolves (fun p hp => by
    cases p <;> (first
      | exact absurd (by decide) hp | rfl | exact ⟨rfl, rfl⟩ | exact ⟨rfl, rfl, rfl⟩ | exact ⟨rfl, rfl, rfl, rfl⟩
      | exact (fun _ => rfl) | exact ⟨rfl, rfl, rfl, rfl, rfl, rfl, rfl, rfl, rfl, rfl⟩)) id
  have h1 := h1.mono (k := .ackLevel :: Part.evaluation) (by decide)
  refine Evolves.ite ?_ h1
  split
  · exact h1
  · next hf => exact h1.trans ((acknowledge_evolves _ _ (firstUnack_state hf)).mono (by decide))

theorem parkWarnings_evolves (s : State) : Evolves (.clock :: Part.evaluation) s s.parkWarnings := by
  unfold State.parkWarnings
  have h1 : Evolves Part.evaluation s (s.commitWarnings (s.warn.rows.map Warning.parked)) :=
    commitWarnings_evolves s _ (fun _ w => by rw [Table.get_map]; exact Warning.Inv.parked _)
  refine (h1.mono (by decide)).trans ?_
  exact setWarn_evolves (fun p hp => by
    cases p <;> (first
      | exact absurd (by decide) hp | rfl | exact ⟨rfl, rfl⟩ | exact ⟨rfl, rfl, rfl⟩ | exact ⟨rfl, rfl, rfl, rfl⟩
      | exact (fun _ => rfl) | exact ⟨rfl, rfl, rfl, rfl, rfl, rfl, rfl, rfl, rfl, rfl⟩)) id

theorem resumeWarnings_evolves (s : State) : Evolves (.ackLevel :: Part.evaluation) s s.resumeWarnings := by
  unfold State.resumeWarnings
  have h1 : Evolves (.ackLevel :: Part.evaluation) s (s.setWarn { s.warn with ackLevel := .unknown }) :=
    setWarn_evolves (fun p hp => by
    cases p <;> (first
      | exact absurd (by decide) hp | rfl | exact ⟨rfl, rfl⟩ | exact ⟨rfl, rfl, rfl⟩ | exact ⟨rfl, rfl, rfl, rfl⟩
      | exact (fun _ => rfl) | exact ⟨rfl, rfl, rfl, rfl, rfl, rfl, rfl, rfl, rfl, rfl⟩)) id
  exact h1.trans ((evalAllWarnings_evolves _).mono (by decide))

theorem restartWarnings_evolves (s : State) :
    Evolves [.warnings, .chimed, .clock, .ackLevel, .attnPending] s s.restartWarnings := by
  have h1 : Evolves [.warnings, .chimed, .clock, .ackLevel, .attnPending] s (s.setWarn { voidAcks := s.warn.voidAcks }) :=
    setWarn_evolves (fun p hp => by
      cases p <;> (first
        | exact absurd (by decide) hp | rfl | exact ⟨rfl, rfl⟩ | exact ⟨rfl, rfl, rfl⟩ | exact ⟨rfl, rfl, rfl, rfl⟩
        | exact (fun _ => rfl) | exact ⟨rfl, rfl, rfl, rfl, rfl, rfl, rfl, rfl, rfl, rfl⟩))
      (fun _ w => by rw [Table.get_const]; exact ⟨rfl, rfl, rfl⟩)
  exact Evolves.iteThen h1 ((setCause_evolves _ _).mono (by decide))

/-- A delay timer's expiry, on a warning whose timer runs for that purpose. -/
theorem delayExpiry_evolves (s : State) (w : Fin 96) (k : DelayKind) (f : Warning → Warning)
    (hk : (s.warn.rows.get w).delaying k = true) (h : ∀ x : Warning, x.Inv → x.delaying k = true → (f x).Inv) :
    Evolves Part.evaluation s (s.commitWarning w (f (s.warn.rows.get w))) :=
  commitWarning_evolves s w _ (fun i => h _ i hk)

theorem arm_evolves (s : State) (w : Fin 96) : Evolves [.warnings] s (s.arm w) := by
  unfold State.arm
  split
  · next hs =>
    refine setWarn_evolves (fun p hp => ?_) (fun h v => ?_)
    · cases p <;> (first
        | exact absurd (by decide) hp | rfl | exact ⟨rfl, rfl⟩ | exact ⟨rfl, rfl, rfl⟩ | exact ⟨rfl, rfl, rfl, rfl⟩
        | exact ⟨rfl, rfl, rfl, rfl, rfl, rfl, rfl, rfl, rfl, rfl⟩
        | (intro v
           by_cases hv : w = v
           · subst hv
             simp
           · simp [Table.get_modify_ne _ hv]))
    · by_cases hv : w = v
      · subst hv
        simp only [Table.get_modify_self]
        exact (h w).arm hs
      · simp only [Table.get_modify_ne _ hv]
        exact h v
  · exact .refl

end Sys2Proof.Machine
end

