-- ==== Sys2Proof/Laws/Faults.lean ====
section
/-! SUPPORT. What the fault memory's operations may change, and that the present set and the write queue stay within their bounds (08). -/

namespace Sys2Proof.Machine

namespace FaultMemory

theorem Inv.queue {fm : FaultMemory} (h : fm.Inv) (i : Fin 32) : (fm.queue i).Inv := by
  unfold FaultMemory.queue
  split
  · exact h
  · next hc =>
    refine ⟨h.1, h.2.1, ?_⟩
    have hi : i ∉ fm.writeQueue := by simpa using hc
    exact (List.perm_append_singleton i fm.writeQueue).nodup_iff.mpr (List.nodup_cons.mpr ⟨hi, h.2.2⟩)

theorem Inv.queueFor {fm : FaultMemory} (h : fm.Inv) (i : Fin 32) (k : FaultKind) : (fm.queueFor i k).Inv := by
  unfold FaultMemory.queueFor
  split
  · exact h
  · exact h.queue i

theorem Inv.queueAll {fm : FaultMemory} (h : fm.Inv) (l : List (Fin 32)) : (l.foldl FaultMemory.queue fm).Inv := by
  induction l generalizing fm with
  | nil => exact h
  | cons i l ih => exact ih (h.queue i)

theorem Inv.put {fm : FaultMemory} (h : fm.Inv) (i : Fin 32) (r : Record) : (fm.put i r).Inv := h

theorem Inv.empty {fm : FaultMemory} (h : fm.Inv) (i : Fin 32) : (fm.empty i).Inv := h

theorem Inv.place {fm : FaultMemory} (h : fm.Inv) (r : Record) : (fm.place r).1.Inv := by
  unfold FaultMemory.place
  split
  · exact h.put ..
  · split
    · exact ((h.empty _).put _ _).queue _
    · exact h

theorem Inv.create {fm : FaultMemory} (h : fm.Inv) (c : FaultCode) (confirm : Nat) (now : Moment) (frame : Option Frame) :
    (fm.create c confirm now frame).1.Inv := by
  have hp := h.place ({ code := c, timer := some 0 } : Record)
  unfold FaultMemory.create
  dsimp only
  split
  · next hh =>
    rw [hh] at hp
    exact hp
  · next hh =>
    rw [hh] at hp
    split
    · exact (hp.put _ _).queueFor _ _
    · exact hp

theorem Inv.remove {fm : FaultMemory} (h : fm.Inv) (c : FaultCode) :
    FaultMemory.Inv { fm with present := fm.present.filter (fun x => x ≠ c) } :=
  ⟨Nat.le_trans (List.length_filter_le _ _) h.1, h.2.1.filter _, h.2.2⟩

theorem Inv.add {fm : FaultMemory} (h : fm.Inv) (c : FaultCode) (hc : ¬ fm.present.contains c = true)
    (hl : ¬ Config.presentMax ≤ fm.present.length) : FaultMemory.Inv { fm with present := fm.present ++ [c] } := by
  refine ⟨?_, ?_, h.2.2⟩
  · simp only [List.length_append, List.length_singleton]
    omega
  · have hi : c ∉ fm.present := by simpa using hc
    exact (List.perm_append_singleton c fm.present).nodup_iff.mpr (List.nodup_cons.mpr ⟨hi, h.2.1⟩)

theorem Inv.healed {fm : FaultMemory} (h : fm.Inv) (limit : Nat) : (fm.healed limit).Inv := by
  unfold FaultMemory.healed
  dsimp only
  refine Inv.queueAll ?_ _
  exact h

theorem Inv.cleared {fm : FaultMemory} (h : fm.Inv) (who : Requester) : (fm.cleared who).Inv := by
  unfold FaultMemory.cleared
  refine Inv.queueAll ?_ _
  exact h

theorem Inv.restarted {fm : FaultMemory} (h : fm.Inv) : fm.restarted.Inv := by
  unfold FaultMemory.restarted
  dsimp only
  refine Inv.queueAll ?_ _
  exact ⟨by simp, by simp, h.2.2⟩

end FaultMemory

/-- The parts of the fault memory that its records' lifecycle changes. -/
theorem commitFaults_evolves (s : State) (fm : FaultMemory) (slots : List (Fin 32)) (b : Bool) (l : List Part)
    (hl : ∀ p ∈ Part.evaluation, p ∈ l) (hk : KeepsBut l s (s.setFm fm)) (h : s.fm.Inv → fm.Inv) :
    Evolves l s (s.commitFaults fm slots b) := by
  have h1 : Evolves l s (s.setFm fm) := setFm_evolves hk h
  have hi : ∀ p ∈ Part.images, p ∈ l := fun p hp => hl p (List.mem_append_left _ hp)
  unfold State.commitFaults
  dsimp only
  have h2 : ∀ offs, Evolves l s (State.offerChanged s (s.setFm fm) offs) :=
    fun offs => h1.trans ((offerChanged_evolves s _ _).mono hi)
  have h3 : ∀ (offs : List Nat) (c : Bool), Evolves l s
      (if c = true then (State.offerChanged s (s.setFm fm) offs).setCause .fault
        else State.offerChanged s (s.setFm fm) offs) :=
    fun offs c => Evolves.iteThen (h2 offs) ((setCause_evolves _ _).mono (fun p hp => hi p (by
      simp only [List.mem_singleton] at hp
      subst hp
      decide)))
  exact Evolves.ite (h3 _ _) ((h3 _ _).trans ((evalWarnings_evolves _ _).mono hl))

theorem queue_keeps (fm : FaultMemory) (i : Fin 32) :
    (fm.queue i).present = fm.present ∧ (fm.queue i).records = fm.records ∧ (fm.queue i).overflow = fm.overflow ∧
      (fm.queue i).full = fm.full ∧ (fm.queue i).clearing = fm.clearing ∧ (fm.queue i).outstanding = fm.outstanding ∧
      (fm.queue i).requester = fm.requester ∧ (fm.queue i).loaded = fm.loaded ∧
      (fm.queue i).heldReports = fm.heldReports := by
  unfold FaultMemory.queue
  split <;> simp

/-- What the lifecycle of the records leaves alone: the clear in progress and the load. -/
def FaultMemory.SameClear (a b : FaultMemory) : Prop :=
  b.clearing = a.clearing ∧ b.outstanding = a.outstanding ∧ b.requester = a.requester ∧ b.loaded = a.loaded ∧
    b.heldReports = a.heldReports

namespace FaultMemory.SameClear

theorem refl (a : FaultMemory) : SameClear a a := ⟨rfl, rfl, rfl, rfl, rfl⟩

theorem trans {a b c : FaultMemory} (h : SameClear a b) (g : SameClear b c) : SameClear a c :=
  ⟨g.1.trans h.1, g.2.1.trans h.2.1, g.2.2.1.trans h.2.2.1, g.2.2.2.1.trans h.2.2.2.1, g.2.2.2.2.trans h.2.2.2.2⟩

theorem queue (fm : FaultMemory) (i : Fin 32) : SameClear fm (fm.queue i) := by
  have h := queue_keeps fm i
  exact ⟨h.2.2.2.2.1, h.2.2.2.2.2.1, h.2.2.2.2.2.2.1, h.2.2.2.2.2.2.2.1, h.2.2.2.2.2.2.2.2⟩

theorem queueFor (fm : FaultMemory) (i : Fin 32) (k : FaultKind) : SameClear fm (fm.queueFor i k) := by
  unfold FaultMemory.queueFor
  split
  · exact refl _
  · exact queue _ _

theorem put {a fm : FaultMemory} (h : SameClear a fm) (i : Fin 32) (r : Record) : SameClear a (fm.put i r) := h

theorem empty {a fm : FaultMemory} (h : SameClear a fm) (i : Fin 32) : SameClear a (fm.empty i) := h

/-- A record put in a slot that is then queued. -/
theorem putFor {a fm : FaultMemory} (h : SameClear a fm) (i : Fin 32) (r : Record) (k : FaultKind) :
    SameClear a ((fm.put i r).queueFor i k) := trans (put h i r) (queueFor _ i k)

theorem queueAll (l : List (Fin 32)) (fm : FaultMemory) : SameClear fm (l.foldl FaultMemory.queue fm) := by
  induction l generalizing fm with
  | nil => exact refl _
  | cons i l ih => exact (queue fm i).trans (ih _)

theorem place (fm : FaultMemory) (r : Record) : SameClear fm (fm.place r).1 := by
  unfold FaultMemory.place
  split
  · exact put (refl _) _ _
  · split
    · exact trans (put (empty (refl _) _) _ _) (queue _ _)
    · exact ⟨rfl, rfl, rfl, rfl, rfl⟩

theorem create (fm : FaultMemory) (c : FaultCode) (confirm : Nat) (now : Moment) (frame : Option Frame) :
    SameClear fm (fm.create c confirm now frame).1 := by
  have hp := place fm ({ code := c, timer := some 0 } : Record)
  unfold FaultMemory.create
  dsimp only
  split
  · next hh =>
    rw [hh] at hp
    exact hp
  · next hh =>
    rw [hh] at hp
    split
    · exact putFor hp _ _ _
    · exact hp

/-- A fault memory with the same clear and load, taken: everything but its other parts is as it was. -/
theorem keeps {s : State} {fm : FaultMemory} (h : SameClear s.fm fm) :
    KeepsBut Part.faults s (s.setFm fm) := by
  obtain ⟨h1, h2, h3, h4, h5⟩ := h
  intro p hp
  cases p <;> (first
    | exact absurd (by decide) hp | rfl | exact ⟨h1, h2, h3⟩ | exact ⟨h4, h5⟩ | exact ⟨rfl, rfl⟩ | exact ⟨rfl, rfl, rfl⟩
    | exact ⟨rfl, rfl, rfl, rfl⟩ | exact (fun _ => rfl) | exact ⟨rfl, rfl, rfl, rfl, rfl, rfl, rfl, rfl, rfl, rfl⟩)

end FaultMemory.SameClear

theorem faults_evolves (s : State) (fm : FaultMemory) (slots : List (Fin 32)) (b : Bool)
    (hk : FaultMemory.SameClear s.fm fm) (h : s.fm.Inv → fm.Inv) : Evolves Part.faults s (s.commitFaults fm slots b) :=
  commitFaults_evolves s fm slots b _ (by decide) hk.keeps h

theorem setFaults_evolves (s : State) (fm : FaultMemory) (hk : FaultMemory.SameClear s.fm fm) (h : s.fm.Inv → fm.Inv) :
    Evolves Part.faults s (s.setFm fm) := setFm_evolves hk.keeps h

theorem appear_evolves (s : State) (c : FaultCode) : Evolves Part.faults s (s.appear c) := by
  unfold State.appear
  split
  · exact .refl
  · next hc =>
    split
    · exact faults_evolves s _ _ _ ⟨rfl, rfl, rfl, rfl, rfl⟩ id
    · next hl =>
      have hp : s.fm.Inv → FaultMemory.Inv { s.fm with present := s.fm.present ++ [c] } := fun h => h.add c hc hl
      have hs : FaultMemory.SameClear s.fm { s.fm with present := s.fm.present ++ [c] } := ⟨rfl, rfl, rfl, rfl, rfl⟩
      dsimp only
      split
      · split
        · exact setFaults_evolves s _ hs hp
        · split
          · exact faults_evolves s _ _ _
              (hs.putFor _ _ _)
              (fun h => ((hp h).put _ _).queueFor _ _)
          · exact setFaults_evolves s _ hs hp
      · exact faults_evolves s _ _ _ (hs.trans (.create ..)) (fun h => (hp h).create ..)

theorem disappear_evolves (s : State) (c : FaultCode) : Evolves Part.faults s (s.disappear c) := by
  unfold State.disappear
  split
  · have hp : s.fm.Inv → FaultMemory.Inv { s.fm with present := s.fm.present.filter (fun x => x ≠ c) } :=
      fun h => h.remove c
    have hs : FaultMemory.SameClear s.fm { s.fm with present := s.fm.present.filter (fun x => x ≠ c) } :=
      ⟨rfl, rfl, rfl, rfl, rfl⟩
    dsimp only
    split
    · exact setFaults_evolves s _ hs hp
    · split
      · exact setFaults_evolves s _ hs hp
      · split
        · exact faults_evolves s _ _ _ (hs.empty _) (fun h => (hp h).empty _)
        · exact faults_evolves s _ _ _
            (hs.putFor _ _ _)
            (fun h => ((hp h).put _ _).queueFor _ _)
        · exact setFaults_evolves s _ hs hp
  · exact .refl

theorem takeMomentary_evolves (s : State) (k : FaultKind) : Evolves Part.faults s (s.takeMomentary k) := by
  unfold State.takeMomentary
  dsimp only
  split
  · split
    · exact .refl
    · exact faults_evolves s _ _ _
        (.putFor (.refl _) _ _ _) (fun h => (h.put _ _).queueFor _ _)
  · have hi : s.fm.Inv → (s.fm.place { code := ⟨k, 0⟩ }).1.Inv := fun h => h.place _
    have hs := FaultMemory.SameClear.place s.fm { code := ⟨k, 0⟩ }
    split
    · next hh =>
      rw [hh] at hi hs
      exact faults_evolves s _ _ _ hs hi
    · next hh =>
      rw [hh] at hi hs
      exact faults_evolves s _ _ _
        (hs.putFor _ _ _)
        (fun h => ((hi h).put _ _).queueFor _ _)

theorem momentary_evolves (s : State) (k : FaultKind) : Evolves (.loading :: Part.faults) s (s.momentary k) := by
  unfold State.momentary
  refine Evolves.ite ((takeMomentary_evolves s k).mono (by decide)) ?_
  exact setFm_evolves (fun p hp => by
    cases p <;> (first
      | exact absurd (by decide) hp | rfl | exact ⟨rfl, rfl⟩ | exact ⟨rfl, rfl, rfl⟩ | exact ⟨rfl, rfl, rfl, rfl⟩
      | exact (fun _ => rfl) | exact ⟨rfl, rfl, rfl, rfl, rfl, rfl, rfl, rfl, rfl, rfl⟩)) id

/-- Once the fault slots are loaded, a momentary report touches no held report. -/
theorem momentary_loaded (s : State) (k : FaultKind) (h : s.fm.loaded = true) : s.momentary k = s.takeMomentary k := by
  simp [State.momentary, h]

theorem reportChange_evolves (s : State) (a b : Option FaultCode) : Evolves Part.faults s (s.reportChange a b) := by
  unfold State.reportChange
  refine Evolves.ite .refl ?_
  dsimp only
  cases a with
  | none =>
    cases b with
    | none => exact .refl
    | some c => exact appear_evolves s c
  | some d =>
    cases b with
    | none => exact disappear_evolves s d
    | some c => exact (disappear_evolves s d).trans (appear_evolves _ c)

theorem confirmSlot_evolves (s : State) (i : Fin 32) : Evolves Part.faults s (s.confirmSlot i) := by
  unfold State.confirmSlot
  split
  · exact .refl
  · split
    · exact faults_evolves s _ _ _
        (.putFor (.refl _) _ _ _) (fun h => (h.put _ _).queueFor _ _)
    · exact .refl

theorem healingPass_evolves (s : State) : Evolves Part.faults s s.healingPass := by
  refine faults_evolves s _ _ _ ?_ (fun h => h.healed _)
  unfold FaultMemory.healed
  dsimp only
  refine .trans ?_ (.queueAll _ _)
  exact ⟨rfl, rfl, rfl, rfl, rfl⟩

theorem create_keepsLoading (l : List FaultCode) (fm : FaultMemory) (confirm : Nat) (now : Moment) (frame : Option Frame) :
    FaultMemory.SameClear fm (l.foldl (fun fm c => (fm.create c confirm now frame).1) fm) ∧
      (fm.Inv → (l.foldl (fun fm c => (fm.create c confirm now frame).1) fm).Inv) := by
  induction l generalizing fm with
  | nil => exact ⟨.refl _, id⟩
  | cons c l ih =>
    have h := ih (fm.create c confirm now frame).1
    exact ⟨(FaultMemory.SameClear.create ..).trans h.1, fun i => h.2 (i.create ..)⟩

/-- A clear taken (R160). -/
theorem takeClear_evolves (s : State) (who : Requester) :
    Evolves (.operation :: .clear :: Part.faults) s (s.takeClear who) := by
  have h1 : Evolves [.operation] s (s.setCtrl { s.ctrl with operation := s.ctrl.operation.excluded }) :=
    setCtrl_evolves (fun p hp => by
    cases p <;> (first
      | exact absurd (by decide) hp | rfl | exact ⟨rfl, rfl⟩ | exact ⟨rfl, rfl, rfl⟩ | exact ⟨rfl, rfl, rfl, rfl⟩
      | exact (fun _ => rfl) | exact ⟨rfl, rfl, rfl, rfl, rfl, rfl, rfl, rfl, rfl, rfl⟩))
  unfold State.takeClear
  dsimp only
  refine (h1.mono (by decide)).trans ?_
  have hc := create_keepsLoading s.fm.present (s.fm.cleared who) s.profile.confirm s.now s.freezeFrame
  have hq : FaultMemory.SameClear _ (s.fm.cleared who) := FaultMemory.SameClear.queueAll _ _
  have hl := (hq.trans hc.1).2.2.2
  refine commitFaults_evolves _ _ _ _ _ (by decide) ?_ (fun h => hc.2 (h.cleared who))
  intro p hp
  cases p <;> (first
    | exact absurd (by decide) hp | rfl | exact hl | exact ⟨rfl, rfl⟩ | exact ⟨rfl, rfl, rfl⟩ | exact ⟨rfl, rfl, rfl, rfl⟩
    | exact (fun _ => rfl) | exact ⟨rfl, rfl, rfl, rfl, rfl, rfl, rfl, rfl, rfl, rfl⟩)

/-- The first of the numbers below `n` that a test accepts. -/
theorem find_finRange {n : Nat} (p : Fin n → Bool) (i : Fin n) (h : p i = true) (hl : ∀ j, j.val < i.val → p j = false) :
    (List.finRange n).find? p = some i := by
  rw [List.find?_eq_some_iff_getElem]
  refine ⟨h, i.val, by simp, by simp, fun j hj => ?_⟩
  have := hl ⟨j, by omega⟩ hj
  simpa using this

/-- The record that R149 creates for a code, confirmed at once where the confirm time is 0. -/
def createdRecord (confirm : Nat) (now : Moment) (frame : Option Frame) (c : FaultCode) : Record :=
  if confirm = 0 then ({ code := c, timer := some 0 } : Record).confirm now frame else { code := c, timer := some 0 }

/-- The records, the overflow count and the memory-full flag of a table that was begun anew and has taken the codes `l` in this order. -/
structure Filled (fm : FaultMemory) (R : FaultCode → Record) (l : List FaultCode) : Prop where
  records : ∀ i : Fin 32, fm.records.get i = (l[i.val]?).map R
  overflow : fm.overflow.toNat = min (l.length - 32) 65535
  full : fm.full = true ↔ 32 < l.length

/-- One more code created in a table begun anew: the next slot, or one overflow more (R149, R150). -/
theorem Filled.create {fm : FaultMemory} {l : List FaultCode} {confirm : Nat} {now : Moment} {frame : Option Frame}
    (h : Filled fm (createdRecord confirm now frame) l) (c : FaultCode) :
    Filled (fm.create c confirm now frame).1 (createdRecord confirm now frame) (l ++ [c]) := by
  by_cases hlen : l.length < 32
  · have hfree : fm.freeSlot = some ⟨l.length, hlen⟩ := by
      apply find_finRange
      · rw [h.records]; simp
      · intro j hj
        rw [h.records]
        simp at hj
        simp [hj]
    have hfull : fm.full = false := by
      have := h.full
      cases hf : fm.full
      · rfl
      · rw [hf] at this; simp at this; omega
    have hrec : ∀ r : Record, r = createdRecord confirm now frame c → ∀ i : Fin 32,
        (fm.records.set ⟨l.length, hlen⟩ (some r)).get i = ((l ++ [c])[i.val]?).map (createdRecord confirm now frame) := by
      intro r hr i
      by_cases hi : i = ⟨l.length, hlen⟩
      · subst hi; simp [hr]
      · have hne : i.val ≠ l.length := fun e => hi (Fin.ext e)
        rw [Table.get_set_ne _ (fun e => hi e.symm), h.records]
        congr 1
        by_cases hi' : i.val < l.length
        · rw [List.getElem?_append_left hi']
        · rw [List.getElem?_eq_none (by omega), List.getElem?_eq_none (by simp; omega)]
    have ho : fm.overflow.toNat = min ((l ++ [c]).length - 32) 65535 := by
      rw [h.overflow]; simp; omega
    have hfl : (fm.full = true ↔ 32 < (l ++ [c]).length) := by rw [hfull]; simp; omega
    unfold FaultMemory.create FaultMemory.place
    rw [hfree]
    dsimp only
    by_cases hc : confirm = 0
    · rw [if_pos hc]
      have e : (((fm.put ⟨l.length, hlen⟩ { code := c, timer := some 0 }).put ⟨l.length, hlen⟩
          (({ code := c, timer := some 0 } : Record).confirm now frame)).queueFor ⟨l.length, hlen⟩ c.kind).records =
          fm.records.set ⟨l.length, hlen⟩ (some (createdRecord confirm now frame c)) := by
        unfold FaultMemory.queueFor FaultMemory.queue FaultMemory.put createdRecord
        rw [if_pos hc]
        have : (fm.records.set ⟨l.length, hlen⟩ (some ({ code := c, timer := some 0 } : Record))).set ⟨l.length, hlen⟩
          (some (({ code := c, timer := some 0 } : Record).confirm now frame)) =
          fm.records.set ⟨l.length, hlen⟩ (some (({ code := c, timer := some 0 } : Record).confirm now frame)) := by
          apply Table.ext_get
          intro i
          by_cases hi : (⟨l.length, hlen⟩ : Fin 32) = i
          · subst hi; simp
          · rw [Table.get_set_ne _ hi, Table.get_set_ne _ hi, Table.get_set_ne _ hi]
        split
        · exact this
        · split
          · exact this
          · exact this
      refine ⟨fun i => ?_, ?_, ?_⟩
      · rw [e]; exact hrec _ rfl i
      · have : (((fm.put ⟨l.length, hlen⟩ { code := c, timer := some 0 }).put ⟨l.length, hlen⟩
          (({ code := c, timer := some 0 } : Record).confirm now frame)).queueFor ⟨l.length, hlen⟩ c.kind).overflow = fm.overflow := by
          unfold FaultMemory.queueFor FaultMemory.queue FaultMemory.put
          split
          · rfl
          · split <;> rfl
        rw [this]; exact ho
      · have : (((fm.put ⟨l.length, hlen⟩ { code := c, timer := some 0 }).put ⟨l.length, hlen⟩
          (({ code := c, timer := some 0 } : Record).confirm now frame)).queueFor ⟨l.length, hlen⟩ c.kind).full = fm.full := by
          unfold FaultMemory.queueFor FaultMemory.queue FaultMemory.put
          split
          · rfl
          · split <;> rfl
        rw [this]; exact hfl
    · rw [if_neg hc]
      exact ⟨hrec _ (by unfold createdRecord; rw [if_neg hc]), ho, hfl⟩
  · have hfree : fm.freeSlot = none := by
      unfold FaultMemory.freeSlot
      rw [List.find?_eq_none]
      intro i _
      rw [h.records, List.getElem?_eq_getElem (by omega)]
      simp
    have hdis : fm.displaced = none := by
      unfold FaultMemory.displaced
      have : (List.finRange 32).filter (fun i => (fm.records.get i).any (fun r => r.state = .passive)) = [] := by
        rw [List.filter_eq_nil_iff]
        intro i _
        rw [h.records, List.getElem?_eq_getElem (by omega)]
        unfold createdRecord
        split <;> simp [Record.confirm]
      rw [this]
      rfl
    unfold FaultMemory.create FaultMemory.place
    rw [hfree, hdis]
    refine ⟨fun i => ?_, ?_, ?_⟩
    · show fm.records.get i = _
      rw [h.records, List.getElem?_append_left (by omega)]
    · show (satInc fm.overflow).toNat = _
      have := h.overflow
      unfold satInc
      simp only [List.length_append, List.length_singleton]
      split
      · rename_i hh
        have : fm.overflow.toNat = 65535 := by rw [hh]; rfl
        omega
      · rename_i hh
        have hlt : fm.overflow.toNat < 65536 := fm.overflow.isLt
        have hne : fm.overflow.toNat ≠ 65535 := fun e => hh (BitVec.eq_of_toNat_eq (by rw [e]; rfl))
        rw [BitVec.toNat_add]
        simp
        omega
    · show (true = true ↔ _)
      simp; omega

/-- The codes of a list created one after the other. -/
theorem Filled.createAll {fm : FaultMemory} {l : List FaultCode} {confirm : Nat} {now : Moment} {frame : Option Frame}
    (h : Filled fm (createdRecord confirm now frame) l) (m : List FaultCode) :
    Filled (m.foldl (fun fm c => (fm.create c confirm now frame).1) fm) (createdRecord confirm now frame) (l ++ m) := by
  induction m generalizing fm l with
  | nil => simpa using h
  | cons c m ih =>
    have := ih (h.create c)
    simpa using this
/-- The fault memory that a commit leaves is the one given: what it hands on changes none of it. -/
theorem commitFaults_fm (s : State) (fm : FaultMemory) (slots : List (Fin 32)) (b : Bool) : (s.commitFaults fm slots b).fm = fm := by
  have h : ∀ offs : List Nat, Evolves Part.evaluation (s.setFm fm) (State.offerChanged s (s.setFm fm) offs) :=
    fun offs => (offerChanged_evolves s _ _).mono (by decide)
  have h1 : ∀ (offs : List Nat) (c : Bool), Evolves Part.evaluation (s.setFm fm)
      (if c = true then (State.offerChanged s (s.setFm fm) offs).setCause .fault
        else State.offerChanged s (s.setFm fm) offs) :=
    fun offs c => Evolves.iteThen (h offs) ((setCause_evolves _ _).mono (by decide))
  have k : KeepsBut Part.evaluation (s.setFm fm) (s.commitFaults fm slots b) := by
    unfold State.commitFaults
    dsimp only
    exact (Evolves.ite (h1 _ _) ((h1 _ _).trans (evalWarnings_evolves _ _))).keeps
  obtain ⟨h5, h6⟩ := k .fullness (by decide)
  obtain ⟨h7, h8, h9⟩ := k .clear (by decide)
  obtain ⟨h10, h11⟩ := k .loading (by decide)
  have h2 := k .present (by decide)
  have h3 := k .records (by decide)
  have h4 := k .writeQueue (by decide)
  simp only [Part.Same, State.setFm_fm] at h2 h3 h4 h5 h6 h7 h8 h9 h10 h11
  generalize (s.commitFaults fm slots b).fm = x at *
  cases x
  cases fm
  simp only [FaultMemory.mk.injEq]
  simp_all

/-- The table that a clear begins anew, before the present codes get records again (R160). -/
theorem cleared_fields (fm : FaultMemory) (who : Requester) :
    Filled (fm.cleared who) (fun c => { code := c }) [] ∧ (fm.cleared who).present = fm.present ∧ (fm.cleared who).clearing = true ∧
      (fm.cleared who).outstanding = List.finRange 32 ∧ (fm.cleared who).requester = some who := by
  have k : ∀ (l : List (Fin 32)) (x : FaultMemory), ∃ q, l.foldl FaultMemory.queue x = { x with writeQueue := q } := by
    intro l
    induction l with
    | nil => exact fun x => ⟨x.writeQueue, rfl⟩
    | cons i l ih =>
      intro x
      obtain ⟨q, hq⟩ := ih (x.queue i)
      refine ⟨q, ?_⟩
      rw [List.foldl_cons, hq]
      unfold FaultMemory.queue
      split <;> rfl
  unfold FaultMemory.cleared
  obtain ⟨q, hq⟩ := k (List.finRange 32)
    { fm with
      records := Table.const 32 none
      overflow := 0
      full := false
      clearing := true
      outstanding := List.finRange 32
      requester := some who }
  rw [hq]
  exact ⟨⟨fun i => by simp, rfl, by simp⟩, rfl, rfl, rfl, rfl⟩

/-- A creation leaves the present set as it is. -/
theorem create_present (fm : FaultMemory) (c : FaultCode) (confirm : Nat) (now : Moment) (frame : Option Frame) :
    (fm.create c confirm now frame).1.present = fm.present := by
  have hq : ∀ (x : FaultMemory) i, (x.queue i).present = x.present := fun x i => (queue_keeps x i).1
  have hp : (fm.place ({ code := c, timer := some 0 } : Record)).1.present = fm.present := by
    unfold FaultMemory.place
    split
    · rfl
    · split
      · rw [hq]; rfl
      · rfl
  unfold FaultMemory.create
  dsimp only
  split
  · next h => rw [h] at hp; exact hp
  · next h =>
    rw [h] at hp
    split
    · unfold FaultMemory.queueFor
      split
      · exact hp
      · rw [hq]; exact hp
    · exact hp

/-- The clear that a taking leaves (R160). -/
theorem takeClear_taken (s : State) (who : Requester) :
    ClearTaken s (s.takeClear who) ∧ (s.takeClear who).fm.requester = some who := by
  obtain ⟨h0, hp, hc, ho, hr⟩ := cleared_fields s.fm who
  have hf := Filled.createAll (fm := s.fm.cleared who) (confirm := s.profile.confirm) (now := s.now) (frame := s.freezeFrame)
    (l := []) ⟨h0.records, h0.overflow, h0.full⟩ s.fm.present
  have hk := (create_keepsLoading s.fm.present (s.fm.cleared who) s.profile.confirm s.now s.freezeFrame).1
  have hq : ∀ (l : List FaultCode) (fm : FaultMemory),
      (l.foldl (fun fm c => (fm.create c s.profile.confirm s.now s.freezeFrame).1) fm).present = fm.present := by
    intro l
    induction l with
    | nil => exact fun _ => rfl
    | cons c l ih => exact fun fm => (ih _).trans (create_present fm c _ _ _)
  rw [List.nil_append] at hf
  unfold State.takeClear
  dsimp only
  have e := fun x b => commitFaults_fm (s.setCtrl { s.ctrl with operation := s.ctrl.operation.excluded }) x (List.finRange 32) b
  refine ⟨⟨?_, ?_, ?_, fun h i => ?_, fun h i => ?_, ?_, ?_⟩, ?_⟩
  · rw [e]; exact hk.1.trans hc
  · rw [e]; exact hk.2.1.trans ho
  · rw [e]; exact (hq _ _).trans hp
  · rw [e, hf.records]
    have : createdRecord s.profile.confirm s.now s.freezeFrame = fun c => { code := c, timer := some 0 } := by
      funext c; exact if_neg h
    rw [this]
  · rw [e, hf.records]
    have : createdRecord s.profile.confirm s.now s.freezeFrame =
        fun c => ({ code := c, timer := some 0 } : Record).confirm s.now s.freezeFrame := by
      funext c; exact if_pos h
    rw [this]
    rfl
  · rw [e]; exact hf.overflow
  · rw [e]; exact hf.full
  · rw [e]; exact hk.2.2.1.trans hr

theorem restartFaults_evolves (s : State) : Evolves Part.faults s s.restartFaults := by
  refine faults_evolves s _ _ _ ?_ (fun h => h.restarted)
  unfold FaultMemory.restarted
  dsimp only
  refine .trans ?_ (.queueAll _ _)
  exact ⟨rfl, rfl, rfl, rfl, rfl⟩

end Sys2Proof.Machine
end

