-- ==== Sys2Proof/Laws/Readers.lean ====
section
/-! SUPPORT. What the readers of the signal table may change: the motion state, the workshop level, the doors, host supervision and
the modes (01, 03, 07, 09, 10). -/

namespace Sys2Proof.Machine

/-! ## Whole blocks replaced -/

theorem setInp_alone (s : State) (x : InputUnit) : Evolves [.inputs, .speed] s (s.setInp x) := setInp_evolves (fun p hp => by
    cases p <;> (first
      | exact absurd (by decide) hp | rfl | exact ⟨rfl, rfl⟩ | exact ⟨rfl, rfl, rfl⟩ | exact ⟨rfl, rfl, rfl, rfl⟩
      | exact (fun _ => rfl) | exact ⟨rfl, rfl, rfl, rfl, rfl, rfl, rfl, rfl, rfl, rfl⟩))

theorem setRx_alone (s : State) (x : LineUnit) : Evolves [.lines, .shared, .slots] s (s.setRx x) := setRx_evolves (fun p hp => by
    cases p <;> (first
      | exact absurd (by decide) hp | rfl | exact ⟨rfl, rfl⟩ | exact ⟨rfl, rfl, rfl⟩ | exact ⟨rfl, rfl, rfl, rfl⟩
      | exact (fun _ => rfl) | exact ⟨rfl, rfl, rfl, rfl, rfl, rfl, rfl, rfl, rfl, rfl⟩))

theorem setSig_alone (s : State) (x : SignalUnit) : Evolves [.entries, .motion] s (s.setSig x) := setSig_evolves (fun p hp => by
    cases p <;> (first
      | exact absurd (by decide) hp | rfl | exact ⟨rfl, rfl⟩ | exact ⟨rfl, rfl, rfl⟩ | exact ⟨rfl, rfl, rfl, rfl⟩
      | exact (fun _ => rfl) | exact ⟨rfl, rfl, rfl, rfl, rfl, rfl, rfl, rfl, rfl, rfl⟩))

theorem setSvc_alone (s : State) (x : ServiceUnit) : Evolves [.service, .wakeChar, .tester, .level, .test] s (s.setSvc x) :=
  setSvc_evolves (fun p hp => by
    cases p <;> (first
      | exact absurd (by decide) hp | rfl | exact ⟨rfl, rfl⟩ | exact ⟨rfl, rfl, rfl⟩ | exact ⟨rfl, rfl, rfl, rfl⟩
      | exact (fun _ => rfl)))

theorem setCtrl_alone (s : State) (x : Controller) :
    Evolves [.operation, .countersPending, .store, .restartWaiting, .torn] s (s.setCtrl x) := setCtrl_evolves (fun p hp => by
    cases p <;> (first
      | exact absurd (by decide) hp | rfl | exact ⟨rfl, rfl⟩ | exact ⟨rfl, rfl, rfl⟩ | exact ⟨rfl, rfl, rfl, rfl⟩
      | exact (fun _ => rfl) | exact ⟨rfl, rfl, rfl, rfl, rfl, rfl, rfl, rfl, rfl, rfl⟩))

/-! ## Motion and workshop level -/

theorem judgeLevel_evolves (s : State) : Evolves (.level :: Part.testEnd) s s.judgeLevel := by
  unfold State.judgeLevel
  dsimp only
  refine Evolves.iteThen ?_ ((endTest_evolves _ _).mono (by decide))
  refine Evolves.trans ?_ ((offerStatus_evolves _ _).mono (by decide))
  exact setSvc_evolves (fun p hp => by
    cases p <;> (first
      | exact absurd (by decide) hp | rfl | exact ⟨rfl, rfl⟩ | exact ⟨rfl, rfl, rfl⟩ | exact ⟨rfl, rfl, rfl, rfl⟩
      | exact (fun _ => rfl) | exact ⟨rfl, rfl, rfl, rfl, rfl, rfl, rfl, rfl, rfl, rfl⟩))

theorem takeMotion_evolves (s : State) (m : Motion) (hold : Option Nat) : Evolves Part.motionChange s (s.takeMotion m hold) := by
  have h1 : Evolves [.motion] s (s.setSig { s.sig with motion := m, hold := hold }) := setSig_evolves (fun p hp => by
    cases p <;> (first
      | exact absurd (by decide) hp | rfl | exact ⟨rfl, rfl⟩ | exact ⟨rfl, rfl, rfl⟩ | exact ⟨rfl, rfl, rfl, rfl⟩
      | exact (fun _ => rfl) | exact ⟨rfl, rfl, rfl, rfl, rfl, rfl, rfl, rfl, rfl, rfl⟩))
  unfold State.takeMotion
  dsimp only
  have h2 := h1.mono (k := Part.motionChange) (by decide)
  refine Evolves.ite h2 (h2.trans ?_)
  exact (((offerStatus_evolves _ _).mono (by decide)).trans ((evalWarnings_evolves _ _).mono (by decide))).trans
    ((judgeLevel_evolves _).mono (by decide))

theorem deriveMotion_evolves (s : State) : Evolves Part.motionChange s s.deriveMotion := takeMotion_evolves ..

/-- The motion state and the hold timer that a taking leaves (R16 to R18): what it hands on changes neither. -/
theorem takeMotion_motion (s : State) (m : Motion) (hold : Option Nat) :
    (s.takeMotion m hold).sig.motion = m ∧ (s.takeMotion m hold).sig.hold = hold := by
  unfold State.takeMotion
  dsimp only
  split
  · exact ⟨rfl, rfl⟩
  · have h : Evolves (Part.evaluation ++ [.level]) (s.setSig { s.sig with motion := m, hold := hold })
        (((State.offerStatus s (s.setSig { s.sig with motion := m, hold := hold })).evalWarnings gatedByMotion).judgeLevel) :=
      (((offerStatus_evolves _ _).mono (by decide)).trans ((evalWarnings_evolves _ _).mono (by decide))).trans
        ((judgeLevel_evolves _).mono (by decide))
    exact h.keeps .motion (by decide)

/-! ## Doors -/

theorem withDoor_evolves (s : State) (d : Fin 6) (x : Door) : Evolves [.doors] s (s.withDoor d x) :=
  setDoor_evolves (fun p hp => by
    cases p <;> (first
      | exact absurd (by decide) hp | rfl | exact ⟨rfl, rfl⟩ | exact ⟨rfl, rfl, rfl⟩ | exact ⟨rfl, rfl, rfl, rfl⟩
      | exact (fun _ => rfl) | exact ⟨rfl, rfl, rfl, rfl, rfl, rfl, rfl, rfl, rfl, rfl⟩)) (fun _ => rfl)

/-- What a door event hands on leaves the door table alone, whatever its reports are, if they do. -/
theorem handDoors_evolves (old s : State) (ds : List (Fin 6)) (passed : Bool) {report : State → Fin 6 → State}
    (h : ∀ t d, Evolves Part.faults t (report t d)) : Evolves Part.faults s (State.handDoors old s ds passed report) := by
  unfold State.handDoors
  dsimp only
  refine Evolves.iteThen ?_ ((evalLampsNaming_evolves _ _).mono (by decide))
  refine Evolves.trans (t := State.forEach _ ds report) ?_ (Evolves.ite .refl ((evalWarnings_evolves _ _).mono (by decide)))
  refine Evolves.trans ?_ (Evolves.forEach h _ _)
  refine Evolves.iteThen ?_ ((setCause_evolves _ _).mono (by decide))
  exact ((offerChanged_evolves _ _ _).mono (by decide)).trans ((offerStatus_evolves _ _).mono (by decide))

theorem commitDoor_evolves (s : State) (d : Fin 6) (x : Door) : Evolves (.doors :: Part.faults) s (s.commitDoor d x) :=
  ((withDoor_evolves s d x).mono (by decide)).trans
    ((handDoors_evolves _ _ _ _ (fun _ _ => reportChange_evolves ..)).mono (by decide))

/-- The door table that a door event leaves: what it hands on does not change it. -/
theorem commitDoor_door (s : State) (d : Fin 6) (x : Door) : (s.commitDoor d x).door = (s.withDoor d x).door :=
  (handDoors_evolves s (s.withDoor d x) [d] _ (fun _ _ => reportChange_evolves ..)).keeps .doors (by decide)

theorem expireDoorAtOnce_evolves (s : State) (d : Fin 6) : Evolves (.doors :: Part.faults) s (s.expireDoorAtOnce d) :=
  Evolves.ite (commitDoor_evolves ..) .refl

theorem doorsHanded_evolves (s : State) (n : Fin 256) : Evolves (.doors :: Part.faults) s (s.doorsHanded n) :=
  Evolves.forEach
    (fun _ _ => Evolves.ite ((commitDoor_evolves ..).trans (expireDoorAtOnce_evolves ..)) .refl) _ _

theorem setSummary_evolves (s : State) (cfgs : Table 6 DoorCfg) (doors : Table 6 Door) :
    Evolves [.doors] s (s.setDoor (summary cfgs doors)) :=
  setDoor_evolves (fun p hp => by
    cases p <;> (first
      | exact absurd (by decide) hp | rfl | exact ⟨rfl, rfl⟩ | exact ⟨rfl, rfl, rfl⟩ | exact ⟨rfl, rfl, rfl, rfl⟩
      | exact (fun _ => rfl) | exact ⟨rfl, rfl, rfl, rfl, rfl, rfl, rfl, rfl, rfl, rfl⟩)) (fun _ => rfl)

theorem resumeDoors_evolves (s : State) : Evolves (.doors :: Part.faults) s s.resumeDoors := by
  unfold State.resumeDoors
  dsimp only
  refine Evolves.trans ?_ (Evolves.forEach expireDoorAtOnce_evolves _ _)
  refine Evolves.trans ((setSummary_evolves s s.profile.doors (.ofFn s.resumedDoor)).mono (by decide)) ?_
  exact (handDoors_evolves _ _ _ _ (fun _ _ => (reportChange_evolves ..).trans (reportChange_evolves ..))).mono (by decide)

/-- The door table that a wake resume leaves when no disagreement expires at once: each present door restarted and derived. -/
theorem resumeDoors_door (s : State)
    (h : ∀ d ∈ s.presentDoors, (s.resumedDoor d).expiresAtOnce (s.profile.doors.get d) = false) :
    s.resumeDoors.door = summary s.profile.doors (.ofFn s.resumedDoor) := by
  unfold State.resumeDoors
  dsimp only
  generalize ht : s.handDoors _ _ _ _ = t
  have k : Evolves Part.faults (s.setDoor (summary s.profile.doors (.ofFn s.resumedDoor))) t := by
    subst ht
    exact handDoors_evolves _ _ _ _ (fun _ _ => (reportChange_evolves ..).trans (reportChange_evolves ..))
  have kd : t.door = summary s.profile.doors (.ofFn s.resumedDoor) := k.keeps .doors (by decide)
  have kp : t.profile = s.profile := k.keeps .profile (by decide)
  have rests : ∀ d ∈ s.presentDoors, t.expireDoorAtOnce d = t := by
    intro d hd
    unfold State.expireDoorAtOnce
    dsimp only
    rw [kd, kp, if_neg]
    show ¬ ((Table.ofFn s.resumedDoor).get d).expiresAtOnce _ = true
    rw [Table.get_ofFn, h d hd]
    decide
  have all : ∀ l : List (Fin 6), (∀ d ∈ l, d ∈ s.presentDoors) → t.forEach l State.expireDoorAtOnce = t := by
    intro l
    induction l with
    | nil => intro _; rfl
    | cons d l ih =>
      intro hl
      show (t.expireDoorAtOnce d).forEach l State.expireDoorAtOnce = t
      rw [rests d (hl d (by simp))]
      exact ih (fun e he => hl e (by simp [he]))
  rw [all _ (fun _ h => h)]
  exact kd

/-! ## Host supervision -/

theorem parkHostGauge_evolves (s : State) (g : Fin 12) : Evolves (.gauges :: Part.images) s (s.parkHostGauge g) :=
  Evolves.ite (parkDecision_evolves s g) .refl

theorem setSup_alone (s : State) (u : Supervision) : Evolves [.supervision] s (s.setSup u) := setSup_evolves (fun p hp => by
    cases p <;> (first
      | exact absurd (by decide) hp | rfl | exact ⟨rfl, rfl⟩ | exact ⟨rfl, rfl, rfl⟩ | exact ⟨rfl, rfl, rfl, rfl⟩
      | exact (fun _ => rfl) | exact ⟨rfl, rfl, rfl, rfl, rfl, rfl, rfl, rfl, rfl, rfl⟩))

theorem commitSup_evolves (s : State) (u : Supervision) : Evolves (.supervision :: Part.faults) s (s.commitSup u) := by
  unfold State.commitSup
  dsimp only
  refine Evolves.ite ((setSup_alone s u).mono (by decide)) ?_
  refine Evolves.trans ?_ ((setCause_evolves _ _).mono (by decide))
  refine Evolves.trans ?_ ((offer_evolves _ _).mono (by decide))
  refine Evolves.trans ?_ ((reportChange_evolves _ _ _).mono (by decide))
  refine Evolves.trans ?_ ((Evolves.forEach parkHostGauge_evolves _ _).mono (by decide))
  exact ((setSup_alone s u).mono (by decide)).trans ((evalLampsNaming_evolves _ _).mono (by decide))

/-- The state of the unit that an event leaves: what it hands on does not change it (R143). -/
theorem commitSup_sup (s : State) (u : Supervision) : (s.commitSup u).sup = u := by
  unfold State.commitSup
  dsimp only
  split
  · rfl
  · have h : Evolves Part.faults (s.setSup u)
        ((((((s.setSup u).evalLampsNaming readsSupervision).forEach (List.finRange 12) State.parkHostGauge).reportChange
          (hostCode s.sup.state) (hostCode u.state)).offer offStatus).setCause .host) := by
      refine Evolves.trans ?_ ((setCause_evolves _ _).mono (by decide))
      refine Evolves.trans ?_ ((offer_evolves _ _).mono (by decide))
      refine Evolves.trans ?_ (reportChange_evolves _ _ _)
      refine Evolves.trans ?_ ((Evolves.forEach parkHostGauge_evolves _ _).mono (by decide))
      exact (evalLampsNaming_evolves _ _).mono (by decide)
    exact h.keeps .supervision (by decide)

theorem aliveWrite_evolves (s : State) (k : Byte) : Evolves (.supervision :: Part.faults) s (s.aliveWrite k) := by
  unfold State.aliveWrite
  exact Evolves.ite .refl (Evolves.ite ((setSup_alone _ _).mono (by decide)) (commitSup_evolves _ _))

theorem resumeSup_evolves (s : State) : Evolves (.supervision :: Part.faults) s s.resumeSup := commitSup_evolves ..

theorem startGrace_evolves (s : State) : Evolves [.supervision] s s.startGrace :=
  Evolves.ite (setSup_alone _ _) .refl

/-! ## Modes -/

theorem setMode_alone (s : State) (x : ModeUnit) (h1 : x.inReset = s.mode.inReset) (h2 : x.causes = s.mode.causes) :
    Evolves [.opMode, .cycle, .ignition, .wake] s (s.setMode x) := by
  refine setMode_evolves (fun p hp => ?_)
  cases p <;> (first
    | exact absurd (by decide) hp | exact h1 | exact h2 | rfl | exact ⟨rfl, rfl⟩ | exact ⟨rfl, rfl, rfl⟩
    | exact ⟨rfl, rfl, rfl, rfl⟩ | exact (fun _ => rfl) | exact ⟨rfl, rfl, rfl, rfl, rfl, rfl, rfl, rfl, rfl, rfl⟩)

theorem setCountersPending_evolves (s : State) : Evolves [.countersPending] s (s.setCtrl { s.ctrl with countersPending := true }) :=
  setCtrl_evolves (fun p hp => by
    cases p <;> (first
      | exact absurd (by decide) hp | rfl | exact ⟨rfl, rfl⟩ | exact ⟨rfl, rfl, rfl⟩ | exact ⟨rfl, rfl, rfl, rfl⟩
      | exact (fun _ => rfl) | exact ⟨rfl, rfl, rfl, rfl, rfl, rfl, rfl, rfl, rfl, rfl⟩))

theorem setLampCheck_evolves (s : State) (t : Option Nat) : Evolves [.lampCheck] s (s.setInd { s.ind with lampCheck := t }) :=
  setInd_evolves (fun p hp => by
    cases p <;> (first
      | exact absurd (by decide) hp | rfl | exact ⟨rfl, rfl⟩ | exact ⟨rfl, rfl, rfl⟩ | exact ⟨rfl, rfl, rfl, rfl⟩
      | exact (fun _ => rfl) | exact ⟨rfl, rfl, rfl, rfl, rfl, rfl, rfl, rfl, rfl, rfl⟩))

theorem startCycle_evolves (s : State) : Evolves Part.ignitionJudged s s.startCycle := by
  unfold State.startCycle
  dsimp only
  refine Evolves.trans ?_ ((homeAll_evolves _).mono (by decide))
  have h2 : Evolves Part.ignitionJudged s ((s.setMode
      { s.mode with cycleOpen := true, cycle := satInc s.mode.cycle, time := 0 }).setCtrl
        { (s.setMode { s.mode with cycleOpen := true, cycle := satInc s.mode.cycle, time := 0 }).ctrl with
          countersPending := true }) :=
    ((setMode_alone _ _ (by rfl) (by rfl)).mono (by decide)).trans ((setCountersPending_evolves _).mono (by decide))
  refine Evolves.ite h2 (h2.trans ?_)
  exact ((setLampCheck_evolves _ _).mono (by decide)).trans ((evalAllLamps_evolves _).mono (by decide))

theorem parkIndication_evolves (s : State) : Evolves Part.ignitionJudged s s.parkIndication := by
  unfold State.parkIndication
  dsimp only
  refine Evolves.trans ?_ ((evalAllLamps_evolves _).mono (by decide))
  refine Evolves.trans ?_ ((Evolves.forEach unhome_evolves _ _).mono (by decide))
  exact ((setLampCheck_evolves _ _).mono (by decide)).trans ((silenceChime_evolves _).mono (by decide))

theorem enterParking_evolves (s : State) : Evolves Part.ignitionJudged s s.enterParking := by
  unfold State.enterParking
  dsimp only
  refine Evolves.trans ?_ (parkIndication_evolves _)
  refine Evolves.trans ?_ ((endTest_evolves _ _).mono (by decide))
  refine Evolves.trans ?_ ((parkWarnings_evolves _).mono (by decide))
  refine Evolves.trans ?_ ((setCountersPending_evolves _).mono (by decide))
  refine Evolves.iteThen ?_ ((healingPass_evolves _).mono (by decide))
  exact ((setMode_alone _ _ (by rfl) (by rfl)).mono (by decide)).trans ((offerStatus_evolves _ _).mono (by decide))

theorem judgeIgnition_evolves (s : State) : Evolves Part.ignitionJudged s s.judgeIgnition := by
  unfold State.judgeIgnition
  dsimp only
  have h1 : Evolves Part.ignitionJudged s (s.setMode { s.mode with ignition := s.ignitionNow }) :=
    (setMode_alone _ _ (by rfl) (by rfl)).mono (by decide)
  refine Evolves.ite ?_ h1
  split
  · refine Evolves.ite (h1.trans ?_) ((h1.trans ?_).trans (startCycle_evolves _))
    · exact (setMode_alone _ _ (by rfl) (by rfl)).mono (by decide)
    · exact (setMode_alone _ _ (by rfl) (by rfl)).mono (by decide)
  · exact h1.trans ((setMode_alone _ _ (by rfl) (by rfl)).mono (by decide))
  · refine Evolves.ite h1 (h1.trans ?_)
    unfold State.startOffTimer
    exact Evolves.ite (enterParking_evolves _) ((setMode_alone _ _ (by rfl) (by rfl)).mono (by decide))

theorem judgeIgnitionAtRun_evolves (s : State) : Evolves Part.ignitionJudged s s.judgeIgnitionAtRun :=
  ((setMode_alone _ _ (by rfl) (by rfl)).mono (by decide)).trans (judgeIgnition_evolves _)

theorem takeWakeCause_evolves (s : State) : Evolves (Part.images ++ [.opMode, .wake, .cycle, .ignition]) s s.takeWakeCause := by
  unfold State.takeWakeCause
  dsimp only
  refine Evolves.trans ?_ ((setCause_evolves _ _).mono (by decide))
  exact ((setMode_alone _ _ (by rfl) (by rfl)).mono (by decide)).trans ((offerStatus_evolves _ _).mono (by decide))

theorem enterRunIndication_evolves (s : State) :
    Evolves (Part.images ++ [.lamps, .gauges, .chime, .chimed]) s s.enterRunIndication := by
  unfold State.enterRunIndication
  refine Evolves.trans ?_ ((evalChime_evolves _).mono (by decide))
  exact ((evalAllLamps_evolves _).mono (by decide)).trans ((homeAll_evolves _).mono (by decide))

theorem returnToRun_evolves (s : State) : Evolves Part.readers s s.returnToRun := by
  unfold State.returnToRun
  refine Evolves.trans ?_ ((judgeIgnitionAtRun_evolves _).mono (by decide))
  refine Evolves.trans ?_ ((enterRunIndication_evolves _).mono (by decide))
  refine Evolves.trans ?_ ((resumeWarnings_evolves _).mono (by decide))
  exact (takeWakeCause_evolves _).mono (by decide)

theorem resumeSignals_evolves (s : State) : Evolves (.entries :: Part.motionChange ++ Part.faults) s s.resumeSignals := by
  unfold State.resumeSignals
  dsimp only
  refine Evolves.trans ?_ ((deriveMotion_evolves _).mono (by decide))
  refine Evolves.trans ?_ (Evolves.forEach (fun t n => (reportChange_evolves t _ _).mono (by decide)) _ _)
  refine Evolves.trans ?_ ((offerChanged_evolves _ _ _).mono (by decide))
  exact setSig_evolves (fun p hp => by
    cases p <;> (first
      | exact absurd (by decide) hp | rfl | exact ⟨rfl, rfl⟩ | exact ⟨rfl, rfl, rfl⟩ | exact ⟨rfl, rfl, rfl, rfl⟩
      | exact (fun _ => rfl) | exact ⟨rfl, rfl, rfl, rfl, rfl, rfl, rfl, rfl, rfl, rfl⟩))

theorem resumeLines_evolves (s : State) : Evolves (.lines :: .shared :: Part.faults) s s.resumeLines := by
  unfold State.resumeLines
  dsimp only
  refine Evolves.trans ?_ (Evolves.forEach (fun t n => (reportChange_evolves t _ _).mono (by decide)) _ _)
  refine Evolves.trans ?_ ((offerChanged_evolves _ _ _).mono (by decide))
  exact setRx_evolves (fun p hp => by
    cases p <;> (first
      | exact absurd (by decide) hp | rfl | exact ⟨rfl, rfl⟩ | exact ⟨rfl, rfl, rfl⟩ | exact ⟨rfl, rfl, rfl, rfl⟩
      | exact (fun _ => rfl) | exact ⟨rfl, rfl, rfl, rfl, rfl, rfl, rfl, rfl, rfl, rfl⟩))

theorem wakeResume_evolves (s : State) : Evolves Part.resumed s s.wakeResume := by
  unfold State.wakeResume
  dsimp only
  refine Evolves.trans ?_ ((judgeIgnitionAtRun_evolves _).mono (by decide))
  refine Evolves.trans ?_ ((judgeLevel_evolves _).mono (by decide))
  refine Evolves.trans ?_ ((enterRunIndication_evolves _).mono (by decide))
  refine Evolves.trans ?_ ((resumeWarnings_evolves _).mono (by decide))
  refine Evolves.trans ?_ ((resumeSup_evolves _).mono (by decide))
  refine Evolves.trans ((takeWakeCause_evolves s).mono (by decide)) ?_
  refine Evolves.ite ?_ .refl
  refine Evolves.trans ?_ ((resumeDoors_evolves _).mono (by decide))
  refine Evolves.trans ?_ ((resumeLines_evolves _).mono (by decide))
  exact ((resumeSignals_evolves _).mono (by decide)).trans ((setInp_alone _ _).mono (by decide))

theorem wake_evolves (s : State) (k : WakeSet) : Evolves Part.resumed s (s.wake k) := by
  unfold State.wake
  refine Evolves.ite ?_ .refl
  exact ((setMode_alone _ _ (by rfl) (by rfl)).mono (by decide)).trans (wakeResume_evolves _)

/-- Outside PARKED a wake event does nothing (R184). -/
theorem wake_awake (s : State) (k : WakeSet) (h : s.mode.mode ≠ .parked) : s.wake k = s := by
  simp [State.wake, h]

theorem wakeEdge_evolves (s : State) : Evolves Part.resumed s s.wakeEdge := by
  unfold State.wakeEdge
  exact Evolves.ite ((setMode_alone _ _ (by rfl) (by rfl)).mono (by decide)) (wake_evolves ..)

theorem freeze_inv {u : DoorUnit} (h : u.Inv) : u.freeze.Inv := by
  have : (u.freeze.doors.indices Door.countsOpen) = u.doors.indices Door.countsOpen := by
    simp [DoorUnit.freeze, Table.indices]
  unfold DoorUnit.Inv at *
  rw [this]
  exact h

theorem parkSvc_evolves (s : State) : Evolves [.service, .wakeChar, .tester, .test] s (s.setSvc s.svc.park) := setSvc_evolves (fun p hp => by
    cases p <;> (first
      | exact absurd (by decide) hp | rfl | exact ⟨rfl, rfl⟩ | exact ⟨rfl, rfl, rfl⟩ | exact ⟨rfl, rfl, rfl, rfl⟩
      | exact (fun _ => rfl)))

theorem parkHold_evolves (s : State) : Evolves [.motion] s (s.setSig { s.sig with hold := none }) := setSig_evolves (fun p hp => by
    cases p <;> (first
      | exact absurd (by decide) hp | rfl | exact ⟨rfl, rfl⟩ | exact ⟨rfl, rfl, rfl⟩ | exact ⟨rfl, rfl, rfl, rfl⟩
      | exact (fun _ => rfl) | exact ⟨rfl, rfl, rfl, rfl, rfl, rfl, rfl, rfl, rfl, rfl⟩))

theorem parkSpeed_evolves (s : State) : Evolves [.speed] s (s.setInp { s.inp with running := false }) := setInp_evolves (fun p hp => by
    cases p <;> (first
      | exact absurd (by decide) hp | rfl | exact ⟨rfl, rfl⟩ | exact ⟨rfl, rfl, rfl⟩ | exact ⟨rfl, rfl, rfl, rfl⟩
      | exact (fun _ => rfl) | exact ⟨rfl, rfl, rfl, rfl, rfl, rfl, rfl, rfl, rfl, rfl⟩))

theorem parkLines_evolves (s : State) : Evolves [.lines, .shared] s (s.setRx
    { s.rx with
      lines := s.rx.lines.map LineRx.park
      owner := .none
      collision := false
      firstChar := false }) := setRx_evolves (fun p hp => by
    cases p <;> (first
      | exact absurd (by decide) hp | rfl | exact ⟨rfl, rfl⟩ | exact ⟨rfl, rfl, rfl⟩ | exact ⟨rfl, rfl, rfl, rfl⟩
      | exact (fun _ => rfl) | exact ⟨rfl, rfl, rfl, rfl, rfl, rfl, rfl, rfl, rfl, rfl⟩))

theorem parkDoors_evolves (s : State) : Evolves [.doors] s (s.setDoor s.door.freeze) := setDoor_evolves (fun p hp => by
    cases p <;> (first
      | exact absurd (by decide) hp | rfl | exact ⟨rfl, rfl⟩ | exact ⟨rfl, rfl, rfl⟩ | exact ⟨rfl, rfl, rfl, rfl⟩
      | exact (fun _ => rfl) | exact ⟨rfl, rfl, rfl, rfl, rfl, rfl, rfl, rfl, rfl, rfl⟩)) freeze_inv

theorem enterParked_evolves (s : State) : Evolves Part.parkedEntry s s.enterParked := by
  unfold State.enterParked
  dsimp only
  refine Evolves.iteThen ?_ ((setCause_evolves _ _).mono (by decide))
  refine Evolves.trans ?_ ((offerStatus_evolves _ _).mono (by decide))
  refine Evolves.trans ?_ ((parkSvc_evolves _).mono (by decide))
  refine Evolves.trans ?_ ((setSup_alone _ _).mono (by decide))
  refine Evolves.trans ?_ ((parkDoors_evolves _).mono (by decide))
  refine Evolves.trans ?_ ((parkLines_evolves _).mono (by decide))
  refine Evolves.trans ?_ ((parkSpeed_evolves _).mono (by decide))
  refine Evolves.trans ?_ ((parkHold_evolves _).mono (by decide))
  exact (setMode_alone _ _ (by rfl) (by rfl)).mono (by decide)

theorem checkFlush_evolves (s : State) : Evolves Part.flushed s s.checkFlush := by
  unfold State.checkFlush
  dsimp only
  refine Evolves.ite ?_ .refl
  refine Evolves.ite ((enterParked_evolves _).mono (by decide)) (Evolves.trans ?_ ((returnToRun_evolves _).mono (by decide)))
  exact (setMode_alone _ _ (by rfl) (by rfl)).mono (by decide)

end Sys2Proof.Machine
end

