-- ==== Sys2Proof/Laws/Signals.lean ====
section
/-! SUPPORT. What an update, an expiry, an input or a line may change, and what the signal table and the lines hold afterwards: the
readers of a change alter neither (01, 02). -/

namespace Sys2Proof.Machine

theorem handOn_evolves (s : State) (n : Fin 256) : Evolves Part.readers s (s.handOn n) := by
  unfold State.handOn
  dsimp only
  refine Evolves.iteThen ?_ ((judgeIgnition_evolves _).mono (by decide))
  refine Evolves.iteThen ?_ ((judgeLevel_evolves _).mono (by decide))
  refine Evolves.trans ?_ ((Evolves.forEach (fun t g => boundGauge_evolves t n g) _ _).mono (by decide))
  refine Evolves.trans ?_ ((evalLampsNaming_evolves _ _).mono (by decide))
  refine Evolves.trans ?_ ((ackInput_evolves _ _).mono (by decide))
  refine Evolves.trans ?_ ((evalWarnings_evolves _ _).mono (by decide))
  refine Evolves.trans ?_ ((doorsHanded_evolves _ _).mono (by decide))
  exact Evolves.iteThen .refl ((deriveMotion_evolves _).mono (by decide))

theorem setEntries_evolves (s : State) (e : Table 256 Signal) : Evolves [.entries] s (s.setSig { s.sig with entries := e }) :=
  setSig_evolves (fun p hp => by
    cases p <;> (first
      | exact absurd (by decide) hp | rfl | exact ⟨rfl, rfl⟩ | exact ⟨rfl, rfl, rfl⟩ | exact ⟨rfl, rfl, rfl, rfl⟩
      | exact (fun _ => rfl) | exact ⟨rfl, rfl, rfl, rfl, rfl, rfl, rfl, rfl, rfl, rfl⟩))

theorem commitSignal_evolves (s : State) (n : Fin 256) (e : Signal) (always : Bool) (emit : State → State) (l : List Part)
    (hl : ∀ p ∈ Part.update, p ∈ l) (he : ∀ t, Evolves l t (emit t)) : Evolves l s (s.commitSignal n e always emit) := by
  unfold State.commitSignal
  dsimp only
  refine Evolves.iteThen ?_ ((handOn_evolves _ _).mono (fun p hp => hl p (List.mem_cons_of_mem _ hp)))
  refine Evolves.trans ?_ ((reportChange_evolves _ _ _).mono
    (fun p hp => hl p (List.mem_cons_of_mem _ (List.mem_append_left _ hp))))
  exact Evolves.iteThen ((setEntries_evolves _ _).mono (fun p hp => by
    rw [List.mem_singleton.mp hp]
    exact hl _ List.mem_cons_self)) (he _)

/-- The entry that a taken event leaves, its sequence advanced when an image is due (R6); every other entry is as it was. -/
theorem commitSignal_entries (s : State) (n : Fin 256) (e : Signal) (always : Bool) (emit : State → State)
    (he : ∀ t : State, (emit t).sig.entries = t.sig.entries) :
    (s.commitSignal n e always emit).sig.entries = s.sig.entries.set n
      (if always || (s.sig.entries.get n).differs e then { e with sequence := (s.sig.entries.get n).sequence + 1 } else e) := by
  unfold State.commitSignal
  dsimp only
  generalize (if (always || (s.sig.entries.get n).differs e) = true then
    { e with sequence := (s.sig.entries.get n).sequence + 1 } else e) = e1
  have h1 : ∀ c : Bool, ((if c = true then emit (s.setSig { s.sig with entries := s.sig.entries.set n e1 })
      else s.setSig { s.sig with entries := s.sig.entries.set n e1 }).sig.entries) = s.sig.entries.set n e1 := by
    intro c
    cases c with
    | false => rfl
    | true => exact he _
  have h2 : ∀ c : Bool, ((if c = true then emit (s.setSig { s.sig with entries := s.sig.entries.set n e1 })
      else s.setSig { s.sig with entries := s.sig.entries.set n e1 }).reportChange
        (signalCode (s.profile.signals.get n) n (s.sig.entries.get n).quality)
        (signalCode (s.profile.signals.get n) n e.quality)).sig.entries = s.sig.entries.set n e1 :=
    fun c => ((reportChange_evolves _ _ _).keeps .entries (by decide)).trans (h1 c)
  split
  · exact ((handOn_evolves _ n).keeps .entries (by decide)).trans (h2 _)
  · exact h2 _

theorem emitSignal_evolves (n : Fin 256) (s : State) : Evolves Part.images s (s.emitSignal n) := offer_evolves ..

theorem deliver_evolves (s : State) (n : Fin 256) (v : BitVec 16) : Evolves Part.update s (s.deliver n v) := by
  unfold State.deliver
  dsimp only
  exact Evolves.ite (commitSignal_evolves _ _ _ _ _ _ (fun _ h => h) (fun t => (emitSignal_evolves n t).mono (by decide))) .refl

theorem takeExpiry_evolves (s : State) (n : Fin 256) : Evolves Part.update s (s.takeExpiry n) :=
  commitSignal_evolves _ _ _ _ _ _ (fun _ h => h) (fun t => (emitSignal_evolves n t).mono (by decide))

theorem emitSignal_entries (n : Fin 256) (t : State) : (t.emitSignal n).sig.entries = t.sig.entries :=
  (emitSignal_evolves n t).keeps .entries (by decide)

/-! ## A mode that is not PARKED stays so, whatever the readers of a change do -/

/-- The mode is not PARKED, and the readers of a change leave it so: only the flush completion enters PARKED (R183, R184). -/
def State.awake (s : State) : Prop := s.mode.mode ≠ .parked

theorem enterParking_mode (s : State) : s.enterParking.mode.mode = .parking := by
  unfold State.enterParking
  dsimp only
  have h : ∀ t : State, Evolves (.clock :: .lampCheck :: Part.evaluation) t ((t.parkWarnings.endTest .mode).parkIndication) := by
    intro t
    unfold State.parkIndication
    dsimp only
    refine Evolves.trans ?_ ((evalAllLamps_evolves _).mono (by decide))
    refine Evolves.trans ?_ ((Evolves.forEach unhome_evolves _ _).mono (by decide))
    refine Evolves.trans ?_ ((silenceChime_evolves _).mono (by decide))
    refine Evolves.trans ?_ ((setLampCheck_evolves _ _).mono (by decide))
    refine Evolves.trans ?_ ((endTest_evolves _ _).mono (by decide))
    exact (parkWarnings_evolves _).mono (by decide)
  refine ((h _).keeps .opMode (by decide)).trans ?_
  show (if s.mode.cycleOpen = true then _ else _ : State).mode.mode = .parking
  have h0 := (offerStatus_evolves s (s.setMode
    { s.mode with mode := .parking, offTimer := none, cycleOpen := false, wakePending := {} })).keeps .opMode (by decide)
  split
  · exact ((healingPass_evolves _).keeps .opMode (by decide)).trans h0
  · exact h0

theorem startCycle_mode (s : State) : s.startCycle.mode.mode = s.mode.mode := by
  unfold State.startCycle
  dsimp only
  refine ((homeAll_evolves _).keeps .opMode (by decide)).trans ?_
  split
  · rfl
  · exact (evalAllLamps_evolves _).keeps .opMode (by decide)

theorem startCycle_awake (s : State) (h : s.awake) : s.startCycle.awake := by
  unfold State.awake
  rw [startCycle_mode]
  exact h

theorem startOffTimer_awake (s : State) (h : s.awake) : s.startOffTimer.awake := by
  unfold State.startOffTimer
  split
  · unfold State.awake
    rw [enterParking_mode]
    decide
  · exact h

theorem judgeIgnition_awake (s : State) (h : s.awake) : s.judgeIgnition.awake := by
  unfold State.judgeIgnition
  dsimp only
  generalize s.ignitionNow = now
  split
  · cases now with
    | on =>
      dsimp only
      split
      · exact h
      · exact startCycle_awake _ h
    | unknown => exact h
    | off =>
      dsimp only
      split
      · exact h
      · exact startOffTimer_awake _ h
  · exact h

theorem handOn_awake (s : State) (n : Fin 256) (h : s.awake) : (s.handOn n).awake := by
  have key : ∀ t : State, Evolves Part.readers s t → t.mode.mode = s.mode.mode → t.awake := fun t _ e => fun f => h (e.symm.trans f)
  unfold State.handOn
  dsimp only
  have h1 : ∀ t : State, (if s.profile.reference = some n then s.deriveMotion else s) = t → t.mode.mode = s.mode.mode := by
    intro t ht
    subst ht
    split
    · exact (deriveMotion_evolves _).keeps .opMode (by decide)
    · rfl
  generalize ht : (if s.profile.reference = some n then s.deriveMotion else s) = t
  have h2 := h1 t ht
  have h3 : ∀ u : State, Evolves (.ackLevel :: .doors :: Part.faults) t u → u.mode.mode = s.mode.mode :=
    fun u hu => (hu.keeps .opMode (by decide)).trans h2
  generalize hu : State.forEach (((t.doorsHanded n).evalWarnings (namesSignal n)).ackInput n |>.evalLampsNaming
    (fun q => q = .signal n)) (List.finRange 12) (fun t g => t.boundGauge n g) = u
  have h4 : u.mode.mode = s.mode.mode := by
    subst hu
    refine h3 _ ?_
    refine Evolves.trans ?_ ((Evolves.forEach (fun t g => boundGauge_evolves t n g) _ _).mono (by decide))
    refine Evolves.trans ?_ ((evalLampsNaming_evolves _ _).mono (by decide))
    refine Evolves.trans ?_ ((ackInput_evolves _ _).mono (by decide))
    refine Evolves.trans ?_ ((evalWarnings_evolves _ _).mono (by decide))
    exact (doorsHanded_evolves _ _).mono (by decide)
  have h5 : ∀ v : State, v.mode.mode = s.mode.mode →
      (if v.profile.ignition = some n then v.judgeIgnition else v).awake := by
    intro v hv
    have : v.awake := fun f => h (hv.symm.trans f)
    split
    · exact judgeIgnition_awake v this
    · exact this
  refine h5 _ ?_
  split
  · exact ((judgeLevel_evolves _).keeps .opMode (by decide)).trans h4
  · exact h4

theorem commitSignal_awake (s : State) (n : Fin 256) (e : Signal) (always : Bool) (emit : State → State)
    (he : ∀ t : State, (emit t).mode.mode = t.mode.mode) (h : s.awake) : (s.commitSignal n e always emit).awake := by
  have h0 : ∀ t : State, t.mode.mode = s.mode.mode → t.awake := fun t ht f => h (ht.symm.trans f)
  unfold State.commitSignal
  dsimp only
  have h1 : ∀ (c : Bool) (x : SignalUnit) (a b : Option FaultCode),
      ((if c = true then emit (s.setSig x) else s.setSig x).reportChange a b).mode.mode = s.mode.mode := by
    intro c x a b
    refine ((reportChange_evolves _ _ _).keeps .opMode (by decide)).trans ?_
    cases c with
    | false => rfl
    | true => exact he _
  split
  · exact handOn_awake _ n (h0 _ (h1 _ _ _ _))
  · exact h0 _ (h1 _ _ _ _)

/-- The device takes updates: what makes a delivery an update (R20, R22), and it stays so through any number of deliveries. -/
theorem deliver_takes (s : State) (n : Fin 256) (v : BitVec 16) (h : s.takesUpdates = true) :
    (s.deliver n v).takesUpdates = true := by
  have ha : s.awake := by
    simp only [State.takesUpdates, Bool.and_eq_true, decide_eq_true_eq] at h
    exact h.2
  have hp := (deliver_evolves s n v).keeps .profStatus (by decide)
  have hm : (s.deliver n v).awake := by
    unfold State.deliver
    dsimp only
    rw [if_pos h]
    exact commitSignal_awake s n _ _ _ (fun t => (emitSignal_evolves n t).keeps .opMode (by decide)) ha
  simp only [State.takesUpdates, State.inForce, Bool.and_eq_true, decide_eq_true_eq] at *
  exact ⟨hp.trans h.1, hm⟩

/-- What a delivery leaves in the table (R2, R6). -/
theorem deliver_entries (s : State) (n : Fin 256) (v : BitVec 16) (h : s.takesUpdates = true) :
    (s.deliver n v).sig.entries = s.sig.entries.set n
      (if imageAlways (s.profile.signals.get n).source ||
          (s.sig.entries.get n).differs ((s.sig.entries.get n).update (s.profile.signals.get n) v) then
        { (s.sig.entries.get n).update (s.profile.signals.get n) v with sequence := (s.sig.entries.get n).sequence + 1 }
      else (s.sig.entries.get n).update (s.profile.signals.get n) v) := by
  unfold State.deliver
  dsimp only
  rw [if_pos h]
  exact commitSignal_entries _ _ _ _ _ (emitSignal_entries n)

/-! ## Inputs -/

theorem deliverInput_evolves (s : State) (i : Fin 24) (f : Filtered) : Evolves Part.update s (s.deliverInput i f) :=
  Evolves.forEach (fun t n => deliver_evolves t n _) _ _

theorem settle_evolves (s : State) (i : Fin 24) : Evolves Part.inputEvent s (s.settle i) := by
  unfold State.settle
  dsimp only
  refine Evolves.iteThen ?_ ((wakeEdge_evolves _).mono (by decide))
  refine Evolves.iteThen ?_ ((wake_evolves _ _).mono (by decide))
  exact Evolves.iteThen ((setInp_alone _ _).mono (by decide)) ((deliverInput_evolves _ _ _).mono (by decide))

theorem changeLevel_evolves (s : State) (i : Fin 24) : Evolves Part.inputEvent s (s.changeLevel i) := by
  unfold State.changeLevel
  dsimp only
  refine Evolves.ite (Evolves.iteThen ?_ (settle_evolves _ _)) ?_
  · exact (setInp_alone _ _).mono (by decide)
  · exact (setInp_alone _ _).mono (by decide)

theorem deliverSpeed_evolves (s : State) (v : BitVec 16) : Evolves Part.update s (s.deliverSpeed v) :=
  Evolves.forEach (fun t n => deliver_evolves t n v) _ _

theorem setSpeed_evolves (s : State) (a b : Bool) (c e : Nat) :
    Evolves [.speed] s (s.setInp { s.inp with timing := a, running := b, count := c, edgeAt := e }) := setInp_evolves (fun p hp => by
    cases p <;> (first
      | exact absurd (by decide) hp | rfl | exact ⟨rfl, rfl⟩ | exact ⟨rfl, rfl, rfl⟩ | exact ⟨rfl, rfl, rfl, rfl⟩
      | exact (fun _ => rfl) | exact ⟨rfl, rfl, rfl, rfl, rfl, rfl, rfl, rfl, rfl, rfl⟩))

theorem speedOverflow_evolves (s : State) : Evolves (.speed :: Part.update) s s.speedOverflow := by
  unfold State.speedOverflow
  exact ((setSpeed_evolves _ _ _ _ s.inp.edgeAt).mono (by decide)).trans ((deliverSpeed_evolves _ _).mono (by decide))

theorem takeEdge_evolves (s : State) (k : Nat) : Evolves (.speed :: Part.update) s (s.takeEdge k) := by
  unfold State.takeEdge
  dsimp only
  exact Evolves.iteThen ((setSpeed_evolves _ _ _ _ _).mono (by decide)) ((deliverSpeed_evolves _ _).mono (by decide))

theorem speedEdge_evolves (s : State) (k : Nat) : Evolves (.speed :: Part.update) s (s.speedEdge k) := by
  unfold State.speedEdge
  exact (Evolves.ite (speedOverflow_evolves s) .refl).trans (takeEdge_evolves _ k)

/-! ## Lines -/

theorem commitLine_evolves (s : State) (u : LineUnit) (l : Line) (w : List Nat) :
    Evolves Part.lineEvent s (s.commitLine u l w) := by
  unfold State.commitLine
  dsimp only
  refine Evolves.trans ?_ ((reportChange_evolves _ _ _).mono (by decide))
  exact ((setRx_alone _ _).mono (by decide)).trans ((offerChanged_evolves _ _ _).mono (by decide))

/-- The receivers and slots that a line's event leaves: what it hands on does not change them. -/
theorem commitLine_rx (s : State) (u : LineUnit) (l : Line) (w : List Nat) : (s.commitLine u l w).rx = u := by
  unfold State.commitLine
  dsimp only
  have h : ∀ t : State, t.rx = u → ∀ a b, (t.reportChange a b).rx = u := by
    intro t ht a b
    have k := (reportChange_evolves t a b).keeps
    have h1 := k .lines (by decide)
    have h2 := k .shared (by decide)
    have h3 := k .slots (by decide)
    rw [← ht]
    generalize t.reportChange a b = r at *
    obtain ⟨h21, h22, h23⟩ := h2
    cases hr : r.rx
    cases hs : t.rx
    simp only [Part.Same, hr, hs] at h1 h21 h22 h23 h3
    subst h1 h21 h22 h23 h3
    rfl
  refine h _ ?_ _ _
  have k := (offerChanged_evolves s (s.setRx u) (w ++ lineOffsets l.toFin)).keeps
  have h1 := k .lines (by decide)
  have h2 := k .shared (by decide)
  have h3 := k .slots (by decide)
  generalize State.offerChanged s (s.setRx u) (w ++ lineOffsets l.toFin) = r at *
  obtain ⟨h21, h22, h23⟩ := h2
  cases hr : r.rx
  cases hu : u
  simp only [Part.Same, State.setRx_rx, hr, hu] at h1 h21 h22 h23 h3
  subst h1 h21 h22 h23 h3
  rfl

theorem deliverSlot_evolves (s : State) (i : Fin 64) : Evolves Part.update s (s.deliverSlot i) := by
  refine Evolves.forEach (fun t n => ?_) _ _
  split
  · exact Evolves.ite (deliver_evolves ..) .refl
  · exact .refl
  · exact .refl
  · exact .refl
  · exact .refl

theorem acceptFrame_evolves (s : State) (l : Line) (x : LineRx) : Evolves Part.accepted s (s.acceptFrame l x) := by
  unfold State.acceptFrame
  dsimp only
  split
  · exact (commitLine_evolves _ _ _ _).mono (by decide)
  · refine Evolves.ite ?_ ((commitLine_evolves _ _ _ _).mono (by decide))
    exact ((commitLine_evolves _ _ _ _).mono (by decide)).trans ((deliverSlot_evolves _ _).mono (by decide))

theorem takeCharacter_evolves (s : State) (l : Line) (x : LineRx) (b : Byte) : Evolves Part.accepted s (s.takeCharacter l x b) := by
  unfold State.takeCharacter
  dsimp only
  split
  · exact Evolves.ite ((commitLine_evolves _ _ _ _).mono (by decide)) ((commitLine_evolves _ _ _ _).mono (by decide))
  · exact (commitLine_evolves _ _ _ _).mono (by decide)
  · exact Evolves.ite (acceptFrame_evolves _ _ _) ((commitLine_evolves _ _ _ _).mono (by decide))
  · exact .refl
  · exact .refl

theorem character_evolves (s : State) (l : Line) (c : CharSamples) : Evolves Part.accepted s (s.character l c) := by
  unfold State.character
  dsimp only
  refine Evolves.ite ((commitLine_evolves _ _ _ _).mono (by decide)) ?_
  refine Evolves.ite ((commitLine_evolves _ _ _ _).mono (by decide)) ?_
  refine Evolves.ite ((commitLine_evolves _ _ _ _).mono (by decide)) ?_
  exact Evolves.ite ((commitLine_evolves _ _ _ _).mono (by decide)) (takeCharacter_evolves ..)

theorem falseStart_evolves (s : State) (l : Line) : Evolves [.lines, .shared, .slots] s (s.falseStart l) := setRx_alone ..

theorem startEdge_evolves (s : State) (l : Line) : Evolves Part.lineEvent s (s.startEdge l) := by
  unfold State.startEdge
  dsimp only
  refine Evolves.ite (Evolves.ite .refl ((setRx_alone _ _).mono (by decide))) ?_
  refine Evolves.ite ((setRx_alone _ _).mono (by decide)) ?_
  exact Evolves.ite .refl (commitLine_evolves ..)

theorem takeBreak_evolves (s : State) (l : Line) : Evolves Part.lineEvent s (s.takeBreak l) := commitLine_evolves ..

theorem setBroken_evolves (s : State) (l : Line) (b : Bool) : Evolves Part.lineEvent s (s.setBroken l b) :=
  commitLine_evolves ..

theorem takeGap_evolves (s : State) (l : Line) : Evolves Part.lineEvent s (s.takeGap l) := commitLine_evolves ..

theorem takeSilence_evolves (s : State) (l : Line) : Evolves Part.lineEvent s (s.takeSilence l) := commitLine_evolves ..

theorem clearStats_evolves (s : State) : Evolves (.lines :: .slots :: Part.images) s s.clearStats := by
  unfold State.clearStats
  refine Evolves.trans ?_ ((offerChanged_evolves _ _ _).mono (by decide))
  exact setRx_evolves (fun p hp => by
    cases p <;> (first
      | exact absurd (by decide) hp | rfl | exact ⟨rfl, rfl⟩ | exact ⟨rfl, rfl, rfl⟩ | exact ⟨rfl, rfl, rfl, rfl⟩
      | exact (fun _ => rfl) | exact ⟨rfl, rfl, rfl, rfl, rfl, rfl, rfl, rfl, rfl, rfl⟩))

end Sys2Proof.Machine
end

