-- ==== Sys2Proof/Laws/Controller.lean ====
section
/-! SUPPORT. What the configuration memory controller's operations may change (11). -/

namespace Sys2Proof.Machine

theorem setOperation_evolves (s : State) (o : Operation) : Evolves [.operation] s (s.setOperation o) := setCtrl_evolves (fun p hp => by
    cases p <;> (first
      | exact absurd (by decide) hp | rfl | exact ⟨rfl, rfl⟩ | exact ⟨rfl, rfl, rfl⟩ | exact ⟨rfl, rfl, rfl, rfl⟩
      | exact (fun _ => rfl) | exact ⟨rfl, rfl, rfl, rfl, rfl, rfl, rfl, rfl, rfl, rfl⟩))

theorem setWork_evolves (s : State) (o : Operation) (a : Bool) (st : Store) (b : Bool) :
    Evolves Part.work s (s.setCtrl
      { operation := o, countersPending := a, store := st, restartWaiting := b, torn := s.ctrl.torn }) := setCtrl_evolves (fun p hp => by
    cases p <;> (first
      | exact absurd (by decide) hp | rfl | exact ⟨rfl, rfl⟩ | exact ⟨rfl, rfl, rfl⟩ | exact ⟨rfl, rfl, rfl, rfl⟩
      | exact (fun _ => rfl) | exact ⟨rfl, rfl, rfl, rfl, rfl, rfl, rfl, rfl, rfl, rfl⟩))

theorem popQueue_evolves (s : State) (i : Fin 32) (rest : List (Fin 32)) (h : s.fm.writeQueue = i :: rest) :
    Evolves [.writeQueue] s (s.setFm { s.fm with writeQueue := rest }) :=
  setFm_evolves (fun p hp => by
    cases p <;> (first
      | exact absurd (by decide) hp | rfl | exact ⟨rfl, rfl⟩ | exact ⟨rfl, rfl, rfl⟩ | exact ⟨rfl, rfl, rfl, rfl⟩
      | exact (fun _ => rfl) | exact ⟨rfl, rfl, rfl, rfl, rfl, rfl, rfl, rfl, rfl, rfl⟩)) (fun k => ⟨k.1, k.2.1, (List.nodup_cons.mp (h ▸ k.2.2)).2⟩)

theorem takeSlot_evolves (s : State) : Evolves Part.work s s.takeSlot := by
  unfold State.takeSlot
  split
  · exact .refl
  · next h => exact ((popQueue_evolves s _ _ h).mono (by decide)).trans ((setOperation_evolves _ _).mono (by decide))

theorem nextWork_evolves (s : State) : Evolves Part.work s s.nextWork := by
  unfold State.nextWork
  refine Evolves.ite ?_ .refl
  split
  · exact setWork_evolves ..
  · exact Evolves.ite (setWork_evolves ..) (Evolves.ite (setWork_evolves ..) (takeSlot_evolves s))
  · exact Evolves.ite (setWork_evolves ..) (Evolves.ite (setWork_evolves ..) (takeSlot_evolves s))
  · exact Evolves.ite (setWork_evolves ..) (Evolves.ite (setWork_evolves ..) (takeSlot_evolves s))

/-- The profile-store reader changes the operation alone: the read page is in its snapshot. -/
theorem serveReader_evolves (s : State) : Evolves [.operation] s s.serveReader := by
  unfold State.serveReader
  split
  · exact Evolves.ite (setOperation_evolves _ _) .refl
  all_goals exact .refl

/-- What serving the reader does to a store that waits for a page: the page's write begins exactly when the M-port is free for it. -/
theorem serveReader_storeRead {s : State} {p : Profile} {n k : Nat} (h : s.ctrl.operation = .storeRead p n k) :
    s.serveReader.ctrl.operation =
      if s.readerGranted then .storeWrite p n k (s.storePage n k) false else .storeRead p n k := by
  unfold State.serveReader
  rw [h]
  dsimp only
  split
  · rfl
  · exact h

/-- An operation that is no page read is left as it is. -/
theorem serveReader_other {s : State} (h : ∀ p n k, s.ctrl.operation ≠ .storeRead p n k) : s.serveReader = s := by
  unfold State.serveReader
  split
  · next p n k e => exact absurd e (h p n k)
  all_goals rfl

theorem takeWork_evolves (s : State) : Evolves Part.work s s.takeWork :=
  (nextWork_evolves s).trans ((serveReader_evolves _).mono (by decide))

theorem workAndFlush_evolves (s : State) : Evolves Part.workFlushed s s.workAndFlush :=
  (((takeWork_evolves s).mono (by decide)).trans ((checkFlush_evolves _).mono (by decide))).trans
    ((takeWork_evolves _).mono (by decide))

theorem refuse_evolves (s : State) (r : Reason) : Evolves (.command :: .result :: Part.images) s (s.refuse r) :=
  finishCommand_evolves ..

theorem complete_evolves (s : State) : Evolves (.command :: .result :: Part.images) s s.complete := finishCommand_evolves ..

theorem setTorn_evolves (s : State) (l : List Nat) : Evolves [.torn] s (s.setCtrl { s.ctrl with torn := l }) :=
  setCtrl_evolves (fun p hp => by
    cases p <;> (first
      | exact absurd (by decide) hp | rfl | exact ⟨rfl, rfl⟩ | exact ⟨rfl, rfl, rfl⟩ | exact ⟨rfl, rfl, rfl, rfl⟩
      | exact (fun _ => rfl) | exact ⟨rfl, rfl, rfl, rfl, rfl, rfl, rfl, rfl, rfl, rfl⟩))

theorem writePage_evolves (s : State) (p : Nat) (b : List Byte) : Evolves [.cfg, .torn] s (s.writePage p b) := by
  have h1 : Evolves [.cfg] s (s.setCfg (writeBytes Config.cfgErased s.cfg (64 * p) b)) :=
    setCfg_evolves (fun p hp => by
    cases p <;> (first
      | exact absurd (by decide) hp | rfl | exact ⟨rfl, rfl⟩ | exact ⟨rfl, rfl, rfl⟩ | exact ⟨rfl, rfl, rfl, rfl⟩
      | exact (fun _ => rfl) | exact ⟨rfl, rfl, rfl, rfl, rfl, rfl, rfl, rfl, rfl, rfl⟩)) (fun h => writeBytes_wf b h _)
  exact (h1.mono (by decide)).trans ((setTorn_evolves _ _).mono (by decide))

/-- What a page write leaves: the page holds the bytes, every other byte is as it was. -/
theorem writePage_bytes (s : State) (h : s.Inv) (p : Nat) (b : List Byte) (a : Nat) :
    (s.writePage p b).cfgByte a =
      if 64 * p ≤ a ∧ a < 64 * p + b.length then b.getD (a - 64 * p) Config.cfgErased else s.cfgByte a :=
  readByte_writeBytes b h.cfg (64 * p) a

theorem setClear_evolves (s : State) (a : Bool) (o : List (Fin 32)) (r : Option Requester) :
    Evolves [.clear] s (s.setFm { s.fm with clearing := a, outstanding := o, requester := r }) := setFm_evolves (fun p hp => by
    cases p <;> (first
      | exact absurd (by decide) hp | rfl | exact ⟨rfl, rfl⟩ | exact ⟨rfl, rfl, rfl⟩ | exact ⟨rfl, rfl, rfl, rfl⟩
      | exact (fun _ => rfl) | exact ⟨rfl, rfl, rfl, rfl, rfl, rfl, rfl, rfl, rfl, rfl⟩)) id

theorem endClear_evolves (s : State) : Evolves Part.slotDone s s.endClear := by
  unfold State.endClear
  refine Evolves.ite ?_ .refl
  dsimp only
  refine Evolves.iteThen ?_ ((complete_evolves _).mono (by decide))
  exact ((setClear_evolves _ _ _ _).mono (by decide)).trans ((offerStatus_evolves _ _).mono (by decide))

theorem slotWritten_evolves (s : State) (i : Fin 32) (c : Bool) : Evolves Part.slotDone s (s.slotWritten i c) := by
  unfold State.slotWritten
  dsimp only
  refine Evolves.trans ?_ (endClear_evolves _)
  exact Evolves.iteThen ((setOperation_evolves _ _).mono (by decide)) ((setClear_evolves _ _ _ _).mono (by decide))

theorem slotWriteDone_evolves (s : State) (i : Fin 32) (sn : List Byte) (r c : Bool) (o : PageOutcome) :
    Evolves Part.pageDone s (s.slotWriteDone i sn r c o) := by
  unfold State.slotWriteDone
  dsimp only
  refine Evolves.trans ((writePage_evolves s (slotPageNo i) (writtenBytes sn o)).mono (by decide)) ?_
  refine Evolves.ite ((slotWritten_evolves _ _ _).mono (by decide)) ?_
  refine Evolves.ite ?_ ((setOperation_evolves _ _).mono (by decide))
  exact ((slotWritten_evolves _ _ _).mono (by decide)).trans ((momentary_evolves _ _).mono (by decide))

theorem countersWriteDone_evolves (s : State) (sn : List Byte) (r : Bool) (o : PageOutcome) :
    Evolves Part.pageDone s (s.countersWriteDone sn r o) := by
  unfold State.countersWriteDone
  dsimp only
  refine Evolves.trans ((writePage_evolves s countersPageNo (writtenBytes sn o)).mono (by decide)) ?_
  refine Evolves.ite ((setOperation_evolves _ _).mono (by decide)) ?_
  refine Evolves.ite ?_ ((setOperation_evolves _ _).mono (by decide))
  exact ((setOperation_evolves _ _).mono (by decide)).trans ((momentary_evolves _ _).mono (by decide))

theorem setStore_evolves (s : State) (x : Store) : Evolves [.store] s (s.setCtrl { s.ctrl with store := x }) := setCtrl_evolves (fun p hp => by
    cases p <;> (first
      | exact absurd (by decide) hp | rfl | exact ⟨rfl, rfl⟩ | exact ⟨rfl, rfl, rfl⟩ | exact ⟨rfl, rfl, rfl, rfl⟩
      | exact (fun _ => rfl) | exact ⟨rfl, rfl, rfl, rfl, rfl, rfl, rfl, rfl, rfl, rfl⟩))

theorem validateStore_evolves (s : State) :
    Evolves (.store :: .command :: .result :: Part.images) s s.validateStore := by
  unfold State.validateStore
  exact Evolves.ite ((setStore_evolves _ _).mono (by decide))
    (((setStore_evolves _ _).mono (by decide)).trans ((refuse_evolves _ _).mono (by decide)))

/-! ## The pages of a profile store (R192, R195) -/

theorem profilePage_length (s : State) (k : Nat) : (s.profilePage k).length = 64 := by simp [State.profilePage]

theorem profilePage_getD (s : State) (k j : Nat) (h : j < 64) :
    (s.profilePage k).getD j 0 = storedByte s.stagingByte (64 * k + j) := by
  simp [State.profilePage, List.getD_eq_getElem?_getD, h]

/-- Beyond the image's length nothing is staged into a page. -/
theorem storedByte_beyond {rd : Nat → Byte} {a : Nat} (h : imageLength rd ≤ a) : storedByte rd a = 0 := by
  simp [storedByte, profileBits, h]

end Sys2Proof.Machine
end

