-- ==== Sys2Proof/Laws/Quiet.lean ====
section
/-! SUPPORT. No reader of a change starts an output test: one that does not run before a change is handed on does not run after it
(09, R175 to R177); and what the end of a test leaves. -/

namespace Sys2Proof.Machine

/-- No output test is started. -/
structure Quiet (s t : State) : Prop where
  none : s.svc.test = .none → t.svc.test = .none

namespace Quiet

theorem refl {s : State} : Quiet s s := ⟨id⟩

/-- The running test is the same. -/
theorem same {s t : State} (h : t.svc.test = s.svc.test) : Quiet s t := ⟨fun x => h.trans x⟩

theorem trans {s t u : State} (h : Quiet s t) (g : Quiet t u) : Quiet s u := ⟨fun x => g.none (h.none x)⟩

/-- A test started by nothing after an operation that leaves it alone. -/
theorem after {s t u : State} (g : Quiet t u) (h : t.svc.test = s.svc.test) : Quiet s u := (same h).trans g

/-- An operation that leaves the running test alone. -/
theorem of {l : List Part} {s t : State} (h : Evolves l s t) (hl : Part.test ∉ l) : Quiet s t :=
  same (h.keeps .test hl).1

theorem ite {s t u : State} {c : Prop} [Decidable c] (h : Quiet s t) (g : Quiet s u) : Quiet s (if c then t else u) := by
  split <;> assumption

/-- An operation done on a condition. -/
theorem iteThen {s t u : State} {c : Prop} [Decidable c] (h : Quiet s t) (g : Quiet t u) : Quiet s (if c then u else t) :=
  ite (h.trans g) h

theorem forEach {α : Type} {f : State → α → State} (h : ∀ t a, Quiet t (f t a)) (xs : List α) (s : State) :
    Quiet s (s.forEach xs f) := by
  induction xs generalizing s with
  | nil => exact .refl
  | cons x xs ih => exact (h s x).trans (ih (f s x))

end Quiet

/-! ## The end of a test (R177) -/

theorem endTest_ended (s : State) (o : TestOutcome) (h : s.svc.test ≠ .none) :
    (s.endTest o).svc.test = .none ∧ (s.endTest o).svc.testTimer = none ∧ (s.endTest o).svc.lastOutcome = o := by
  unfold State.endTest
  rw [if_neg h]
  dsimp only
  generalize hx : s.setSvc { s.svc with test := .none, testDuration := 0, testTimer := none, lastOutcome := o } = x
  have e : x.svc.test = .none ∧ x.svc.testTimer = none ∧ x.svc.lastOutcome = o := by
    subst hx
    exact ⟨rfl, rfl, rfl⟩
  have key : ∀ {l : List Part} {t : State}, Evolves l (s.offerStatus x) t → Part.test ∉ l →
      t.svc.test = .none ∧ t.svc.testTimer = none ∧ t.svc.lastOutcome = o := by
    intro l t ht hl
    have a := ht.keeps .test hl
    have b := (offerStatus_evolves s x).keeps .test (by decide)
    exact ⟨a.1.trans (b.1.trans e.1), a.2.2.1.trans (b.2.2.1.trans e.2.1), a.2.2.2.trans (b.2.2.2.trans e.2.2)⟩
  split
  · exact key (l := []) .refl (by decide)
  · exact key (evalAllLamps_evolves _) (by decide)
  · exact key (Evolves.forEach leaveSweep_evolves _ _) (by decide)
  · exact key (endChimeTest_evolves _) (by decide)

theorem endTest_none (s : State) (o : TestOutcome) : (s.endTest o).svc.test = .none := by
  by_cases h : s.svc.test = .none
  · unfold State.endTest
    rw [if_pos h]
    exact h
  · exact (endTest_ended s o h).1

theorem endTest_quiet (s : State) (o : TestOutcome) : Quiet s (s.endTest o) := ⟨fun _ => endTest_none s o⟩

/-! ## The readers of a change -/

theorem commitWarnings_quiet (s : State) (rows : Table 96 Warning) : Quiet s (s.commitWarnings rows) := by
  unfold State.commitWarnings
  dsimp only
  refine Quiet.trans ?_ (.of (evalChime_evolves _) (by decide))
  refine Quiet.trans ?_ (.of (evalLampsNaming_evolves _ _) (by decide))
  refine Quiet.iteThen ?_ (endTest_quiet _ _)
  refine Quiet.iteThen ?_ (.of (setCause_evolves _ _) (by decide))
  refine Quiet.trans ?_ (.of (offerChanged_evolves _ _ _) (by decide))
  exact .same rfl

theorem evalWarnings_quiet (s : State) (p : WarnCfg → Bool) : Quiet s (s.evalWarnings p) :=
  .ite (commitWarnings_quiet _ _) .refl

theorem commitFaults_quiet (s : State) (fm : FaultMemory) (slots : List (Fin 32)) (b : Bool) :
    Quiet s (s.commitFaults fm slots b) := by
  unfold State.commitFaults
  dsimp only
  have h1 : Quiet s (State.offerChanged s (s.setFm fm) (recordOffsets slots ++ [offCountB, offStatus])) :=
    Quiet.after (.of (offerChanged_evolves _ _ _) (by decide)) rfl
  have h2 := fun c : Bool => Quiet.iteThen (c := c = true) h1 (.of (setCause_evolves _ .fault) (by decide))
  exact .ite (h2 _) ((h2 _).trans (evalWarnings_quiet _ _))

theorem appear_quiet (s : State) (c : FaultCode) : Quiet s (s.appear c) := by
  unfold State.appear
  dsimp only
  repeat' split
  all_goals first | exact .refl | exact commitFaults_quiet _ _ _ _ | exact .same rfl

theorem disappear_quiet (s : State) (c : FaultCode) : Quiet s (s.disappear c) := by
  unfold State.disappear
  dsimp only
  repeat' split
  all_goals first | exact .refl | exact commitFaults_quiet _ _ _ _ | exact .same rfl

theorem reportChange_quiet (s : State) (a b : Option FaultCode) : Quiet s (s.reportChange a b) := by
  unfold State.reportChange
  refine Quiet.ite .refl ?_
  dsimp only
  cases a with
  | none =>
    cases b with
    | none => exact .refl
    | some c => exact appear_quiet s c
  | some d =>
    cases b with
    | none => exact disappear_quiet s d
    | some c => exact (disappear_quiet s d).trans (appear_quiet _ c)

theorem judgeLevel_quiet (s : State) : Quiet s s.judgeLevel := by
  unfold State.judgeLevel
  dsimp only
  refine Quiet.iteThen ?_ (endTest_quiet _ _)
  exact Quiet.after (.of (offerStatus_evolves _ _) (by decide)) rfl

theorem takeMotion_quiet (s : State) (m : Motion) (hold : Option Nat) : Quiet s (s.takeMotion m hold) := by
  unfold State.takeMotion
  dsimp only
  refine Quiet.ite (.same rfl) ?_
  refine Quiet.trans ?_ (judgeLevel_quiet _)
  refine Quiet.trans ?_ (evalWarnings_quiet _ _)
  exact Quiet.after (.of (offerStatus_evolves _ _) (by decide)) rfl

theorem deriveMotion_quiet (s : State) : Quiet s s.deriveMotion := takeMotion_quiet ..

theorem handDoors_quiet (old s : State) (ds : List (Fin 6)) (passed : Bool) {report : State → Fin 6 → State}
    (h : ∀ t d, Quiet t (report t d)) : Quiet s (State.handDoors old s ds passed report) := by
  unfold State.handDoors
  dsimp only
  refine Quiet.iteThen ?_ (.of (evalLampsNaming_evolves _ _) (by decide))
  refine Quiet.trans (t := State.forEach _ ds report) ?_ (Quiet.ite .refl (evalWarnings_quiet _ _))
  refine Quiet.trans ?_ (Quiet.forEach h _ _)
  refine Quiet.iteThen ?_ (.of (setCause_evolves _ _) (by decide))
  exact Quiet.trans (.of (offerChanged_evolves _ _ _) (by decide)) (.of (offerStatus_evolves _ _) (by decide))

theorem commitDoor_quiet (s : State) (d : Fin 6) (x : Door) : Quiet s (s.commitDoor d x) :=
  Quiet.after (handDoors_quiet s _ _ _ (fun t _ => reportChange_quiet t _ _)) rfl

theorem doorsHanded_quiet (s : State) (n : Fin 256) : Quiet s (s.doorsHanded n) :=
  .forEach (fun t d => .ite ((commitDoor_quiet t d _).trans (.ite (commitDoor_quiet _ d _) .refl)) .refl) _ _

theorem ackInput_quiet (s : State) (n : Fin 256) : Quiet s (s.ackInput n) := by
  unfold State.ackInput
  refine Quiet.ite ?_ .refl
  dsimp only
  refine Quiet.ite ?_ (.same rfl)
  split
  · exact .same rfl
  · exact Quiet.after (commitWarnings_quiet (s.setWarn { s.warn with ackLevel := ackLevelOf (s.quality n) (s.value n) }) _) rfl

theorem startCycle_quiet (s : State) : Quiet s s.startCycle := by
  unfold State.startCycle
  dsimp only
  refine Quiet.trans ?_ (.of (homeAll_evolves _) (by decide))
  exact Quiet.ite (.same rfl) (Quiet.after (.of (evalAllLamps_evolves _) (by decide)) rfl)

theorem enterParking_quiet (s : State) : Quiet s s.enterParking := by
  unfold State.enterParking State.parkIndication State.parkWarnings
  dsimp only
  refine Quiet.trans ?_ (.of (evalAllLamps_evolves _) (by decide))
  refine Quiet.trans ?_ (.of (Evolves.forEach unhome_evolves _ _) (by decide))
  refine Quiet.trans ?_ (.of (silenceChime_evolves _) (by decide))
  exact ⟨fun _ => endTest_none _ _⟩

theorem judgeIgnition_quiet (s : State) : Quiet s s.judgeIgnition := by
  unfold State.judgeIgnition
  dsimp only
  refine Quiet.ite ?_ (.same rfl)
  split
  · exact Quiet.ite (.same rfl) (Quiet.after (startCycle_quiet _) rfl)
  · exact .same rfl
  · refine Quiet.ite (.same rfl) ?_
    unfold State.startOffTimer
    exact Quiet.ite (Quiet.after (enterParking_quiet _) rfl) (.same rfl)

theorem handOn_quiet (s : State) (n : Fin 256) : Quiet s (s.handOn n) := by
  unfold State.handOn
  dsimp only
  refine Quiet.iteThen ?_ (judgeIgnition_quiet _)
  refine Quiet.iteThen ?_ (judgeLevel_quiet _)
  refine Quiet.trans ?_ (.of (Evolves.forEach (fun t g => boundGauge_evolves t n g) _ _) (by decide))
  refine Quiet.trans ?_ (.of (evalLampsNaming_evolves _ _) (by decide))
  refine Quiet.trans ?_ (ackInput_quiet _ _)
  refine Quiet.trans ?_ (evalWarnings_quiet _ _)
  refine Quiet.trans ?_ (doorsHanded_quiet _ _)
  exact Quiet.iteThen .refl (deriveMotion_quiet _)

end Sys2Proof.Machine
end

