-- ==== Sys2Proof/Laws/Judged.lean ====
section
/-! SUPPORT. What a handed change of a signal is judged by: the bound signals as they stand, the ack input, the workshop level, the
ignition and the gauges that home (R7, R85, R105, R174, R180). -/

namespace Sys2Proof.Machine

/-- A change of an entry that an update makes is handed on, after the update's image and presence reports (R2, R6 to R8). -/
theorem deliver_handOn (s : State) (n : Fin 256) (v : BitVec 16) (h : s.takesUpdates = true)
    (hd : s.value n ≠ (s.deliver n v).value n ∨ s.quality n ≠ (s.deliver n v).quality n) :
    ∃ t, s.deliver n v = t.handOn n ∧ KeepsBut (.entries :: Part.faults) s t := by
  have he := commitSignal_entries s n ((s.sig.entries.get n).update (s.profile.signals.get n) v)
    (imageAlways (s.profile.signals.get n).source) (State.emitSignal n) (emitSignal_entries n)
  unfold State.deliver at hd ⊢
  dsimp only at hd ⊢
  rw [if_pos h] at hd ⊢
  unfold State.value State.quality at hd
  rw [he] at hd
  simp only [Table.get_set_self] at hd
  generalize hu : (s.sig.entries.get n).update (s.profile.signals.get n) v = u at hd ⊢
  have hdiff : (s.sig.entries.get n).differs u = true := by
    simp only [Signal.differs, Bool.or_eq_true, decide_eq_true_iff]
    split at hd <;> exact hd
  unfold State.commitSignal
  dsimp only
  rw [if_pos hdiff]
  refine ⟨_, rfl, ?_⟩
  refine KeepsBut.trans ?_ ((reportChange_evolves _ _ _).keeps.mono (by decide))
  exact (Evolves.iteThen ((setEntries_evolves _ _).mono (by decide)) ((emitSignal_evolves _ _).mono (by decide))).keeps

/-- The hand-over of a change by its readers: the motion state, doors and warnings, the ack input, the indication and the workshop
level, the ignition. -/
theorem handOn_split (t : State) (n : Fin 256) : ∃ a b c, Evolves (.motion :: .level :: .doors :: Part.faults) t a ∧ b = a.ackInput n ∧ Evolves (.level :: Part.testEnd) b c ∧
    t.handOn n = if c.profile.ignition = some n then c.judgeIgnition else c := by
  unfold State.handOn
  dsimp only
  refine ⟨((if t.profile.reference = some n then t.deriveMotion else t).doorsHanded n).evalWarnings (namesSignal n), _, _, ?_, rfl, ?_, rfl⟩
  · refine Evolves.trans ?_ ((evalWarnings_evolves _ _).mono (by decide))
    refine Evolves.trans ?_ ((doorsHanded_evolves _ _).mono (by decide))
    exact Evolves.iteThen .refl ((deriveMotion_evolves _).mono (by decide))
  · refine Evolves.iteThen ?_ ((judgeLevel_evolves _).mono (by decide))
    refine Evolves.trans ?_ ((Evolves.forEach (fun t g => boundGauge_evolves t n g) _ _).mono (by decide))
    exact (evalLampsNaming_evolves _ _).mono (by decide)

/-! ## Bound signals -/

theorem boundOn_iff (s : State) (b : Option (Fin 256)) : s.goodNonzero b = true ↔ s.boundOn b := by
  unfold State.goodNonzero State.boundOn
  cases b <;> simp

theorem ignitionNow_on (s : State) : s.ignitionNow = .on ↔ s.boundOn s.profile.ignition := by
  unfold State.ignitionNow State.boundOn
  cases s.profile.ignition with
  | none => simp
  | some n =>
    simp only [Option.some.injEq, exists_eq_left']
    split
    · split <;> simp_all
    · simp_all

theorem ignitionNow_off (s : State) : s.ignitionNow = .off ↔ ∃ n, s.profile.ignition = some n ∧ s.quality n = .good ∧ s.value n = 0 := by
  unfold State.ignitionNow
  cases s.profile.ignition with
  | none => simp
  | some n =>
    simp only [Option.some.injEq, exists_eq_left']
    split
    · split <;> simp_all
    · simp_all

/-! ## The ack input (R85) -/

theorem ackLevelOf_high (q : Quality) (v : BitVec 16) : ackLevelOf q v = .high ↔ q = .good ∧ v ≠ 0 := by
  unfold ackLevelOf; split <;> (try split) <;> simp_all

theorem ackLevelOf_low (q : Quality) (v : BitVec 16) : ackLevelOf q v = .low ↔ q = .good ∧ v = 0 := by
  unfold ackLevelOf; split <;> (try split) <;> simp_all

theorem firstUnack_eq_some (s : State) (w : Fin 96) (h : s.FirstUnack w) : s.firstUnack = some w := by
  obtain ⟨h1, pre, post, h2, h3⟩ := h
  unfold State.firstUnack
  rw [h2, List.find?_append]
  have : pre.find? (fun w => decide ((s.warn.rows.get w).state = .activeUnack)) = none := by
    rw [List.find?_eq_none]; intro x hx; simpa using h3 x hx
  rw [this]; simp [h1]

/-! ## The workshop level (R174, R177) -/

/-- A level that lapses ends a running test. -/
theorem judgeLevel_lapse (s : State) (h : s.svc.level = true) (h2 : s.judgeLevel.svc.level = false) (h3 : s.svc.test ≠ .none) :
      s.judgeLevel.svc.test = .none ∧ s.judgeLevel.svc.testTimer = none ∧ s.judgeLevel.svc.lastOutcome = .levelLost := by
  unfold State.judgeLevel at h2 ⊢
  dsimp only at h2 ⊢
  generalize hx : s.setSvc _ = x at h2 ⊢
  have hk := (offerStatus_evolves s x).keeps
  have ht : (s.offerStatus x).svc.test ≠ .none := by
    rw [(hk .test (by decide)).1]; subst hx; exact h3
  have hl : (s.offerStatus x).svc.level = x.svc.level := (hk .level (by decide)).2.2.2
  split at h2
  · rename_i hc
    rw [if_pos hc]
    exact endTest_ended _ _ ht
  · rename_i hc
    exfalso
    rw [hl] at h2
    apply hc
    subst hx
    simp only [State.setSvc_svc] at h2
    rw [h, h2]; rfl

/-! ## The ignition and homing (R105, R180) -/

theorem startOffTimer_timed (s : State) (h : s.profile.ignitionOff ≠ 0) : s.startOffTimer = s.setMode { s.mode with offTimer := some 0 } := if_neg h

theorem startOffTimer_parks (s : State) (h : s.profile.ignitionOff = 0) : s.startOffTimer = s.enterParking := if_pos h

/-- A gauge whose homing has begun. -/
def Gauge.homingBegun (x : Gauge) : Gauge := { x with state := .homing, homing := some 0, position := 0, target := 0, moving := false, shown := 0 }

theorem startHoming_get (s : State) (g h : Fin 12) : (s.startHoming g).ind.gauges.get h =
    if g = h ∧ gaugeActive (s.profile.gauges.get g) = true ∧ (s.ind.gauges.get g).state ≠ .test then
      (Gauge.homingBegun (s.ind.gauges.get g))
    else s.ind.gauges.get h := by
  have e : ∀ (t : State) o, (t.offer o).ind = t.ind := fun _ _ => rfl
  unfold State.startHoming
  dsimp only
  by_cases hc : gaugeActive (s.profile.gauges.get g) = true ∧ (s.ind.gauges.get g).state ≠ .test
  · have hc' : (gaugeActive (s.profile.gauges.get g) && decide ((s.ind.gauges.get g).state ≠ .test)) = true := by
      simp only [Bool.and_eq_true, decide_eq_true_iff]; exact hc
    rw [if_pos hc']
    have k : ∀ t : State, t.ind = (s.setGauge g (Gauge.homingBegun (s.ind.gauges.get g))).ind → t.ind.gauges.get h = if g = h ∧ gaugeActive (s.profile.gauges.get g) = true ∧ (s.ind.gauges.get g).state ≠ .test then
      (Gauge.homingBegun (s.ind.gauges.get g))
    else s.ind.gauges.get h := by
      intro t ht
      rw [ht]
      show (s.ind.gauges.set g _).get h = _
      rw [Table.get_set]
      by_cases hgh : g = h
      · rw [if_pos hgh, if_pos ⟨hgh, hc⟩]
      · rw [if_neg hgh, if_neg (fun x => hgh x.1)]
    split
    · exact k _ rfl
    · exact k _ (e _ _)
  · have hc' : ¬ (gaugeActive (s.profile.gauges.get g) && decide ((s.ind.gauges.get g).state ≠ .test)) = true := by
      simp only [Bool.and_eq_true, decide_eq_true_iff]; exact hc
    rw [if_neg hc', if_neg (fun x => hc x.2)]

theorem forEach_startHoming_get (l : List (Fin 12)) (hl : l.Nodup) (s : State) (h : Fin 12) :
    (s.forEach l State.startHoming).profile = s.profile ∧ (s.forEach l State.startHoming).ind.gauges.get h =
    if h ∈ l ∧ gaugeActive (s.profile.gauges.get h) = true ∧ (s.ind.gauges.get h).state ≠ .test then
      (Gauge.homingBegun (s.ind.gauges.get h))
    else s.ind.gauges.get h := by
  induction l generalizing s with
  | nil => simp [State.forEach]
  | cons g l ih =>
    have hn := List.nodup_cons.mp hl
    have := ih hn.2 (s.startHoming g)
    have hp : (s.startHoming g).profile = s.profile := (startHoming_evolves s g).keeps .profile (by decide)
    rw [hp, startHoming_get] at this
    show ((s.startHoming g).forEach l State.startHoming).profile = _ ∧ ((s.startHoming g).forEach l State.startHoming).ind.gauges.get h = _
    refine ⟨this.1, this.2.trans ?_⟩
    by_cases hgh : g = h
    · subst hgh
      simp only [hn.1, false_and, if_false, List.mem_cons, true_or, true_and]
    · have : h ≠ g := fun x => hgh x.symm
      simp only [hgh, this, false_and, if_false, List.mem_cons, false_or]

theorem homeAll_get (s : State) (h : Fin 12) : s.homeAll.ind.gauges.get h = if gaugeActive (s.profile.gauges.get h) = true ∧ (s.ind.gauges.get h).state ≠ .test then
      Gauge.homingBegun (s.ind.gauges.get h) else s.ind.gauges.get h := by
  have := (forEach_startHoming_get (List.finRange 12) (List.nodup_finRange 12) s h).2
  unfold State.homeAll
  simp only [List.mem_finRange, true_and] at this
  exact this

end Sys2Proof.Machine
end

