-- ==== Sys2Proof/Laws/Restart.lean ====
section
/-! SUPPORT. What the START sequence, the profile restart and image initialisation may change (11; 06 R128). -/

namespace Sys2Proof.Machine

/-! ## Image initialisation -/

theorem kept_length (s : State) : s.keptEntry.length ≤ 1 := by
  unfold State.keptEntry
  split
  · exact Nat.zero_le _
  · exact Nat.le_refl _

theorem kept_nodup (s : State) : (s.keptEntry.map Prod.fst).Nodup := by
  unfold State.keptEntry
  split
  · exact List.nodup_nil
  · exact List.nodup_singleton _

theorem markedImages_inv (p : MemoryPath) (q : List (Nat × Word)) (l : List Nat) (a : Option (List Nat)) (hq : q.length ≤ 1)
    (hn : (q.map Prod.fst).Nodup) (hl : l.Nodup) :
    MemoryPath.Inv
      { p with queue := q, resync := l.filter (fun o => !(q.map Prod.fst).contains o), awaited := a } := by
  refine ⟨Nat.le_trans hq (by decide), List.Nodup.append hn (hl.filter _) ?_⟩
  intro o h1 h2
  have h3 := (List.mem_filter.mp h2).2
  rw [List.contains_iff_mem.mpr h1] at h3
  exact Bool.noConfusion h3

theorem markImages_evolves (s : State) (q : List (Nat × Word)) (l : List Nat) (a : Option (List Nat)) (hq : q.length ≤ 1)
    (hn : (q.map Prod.fst).Nodup) (hl : l.Nodup) :
    Evolves [.queue, .awaited] s (s.setPath
      { s.path with queue := q, resync := l.filter (fun o => !(q.map Prod.fst).contains o), awaited := a }) :=
  setPath_evolves (fun p hp => by
    cases p <;> (first
      | exact absurd (by decide) hp | rfl | exact ⟨rfl, rfl⟩ | exact ⟨rfl, rfl, rfl⟩ | exact ⟨rfl, rfl, rfl, rfl⟩
      | exact (fun _ => rfl) | exact ⟨rfl, rfl, rfl, rfl, rfl, rfl, rfl, rfl, rfl, rfl⟩)) (fun _ => markedImages_inv _ _ _ _ hq hn hl)

theorem setUrgent_evolves (s : State) (u : Bool) : Evolves [.queue] s (s.setPath { s.path with urgent := u }) :=
  setPath_evolves (fun p hp => by
    cases p <;> (first
      | exact absurd (by decide) hp | rfl | exact ⟨rfl, rfl⟩ | exact ⟨rfl, rfl, rfl⟩ | exact ⟨rfl, rfl, rfl, rfl⟩
      | exact (fun _ => rfl) | exact ⟨rfl, rfl, rfl, rfl, rfl, rfl, rfl, rfl, rfl, rfl⟩)) id

theorem startImages_evolves (s : State) : Evolves [.queue, .awaited] s s.startImages := by
  unfold State.startImages
  dsimp only
  refine Evolves.trans ?_ ((setUrgent_evolves _ _).mono (by decide))
  refine Evolves.trans ?_ (requeue_evolves _)
  exact markImages_evolves s _ _ _ (kept_length s) (kept_nodup s) imageOffsets_nodup

/-! ## A profile in force at START -/

theorem setProfile_evolves (s : State) (p : Profile) (x : ProfStatus) :
    Evolves [.profile, .profStatus] s ((s.setProfile p).setProfStatus x) :=
  ⟨(fun p hp => by
    cases p <;> (first
      | exact absurd (by decide) hp | rfl | exact ⟨rfl, rfl⟩ | exact ⟨rfl, rfl, rfl⟩ | exact ⟨rfl, rfl, rfl, rfl⟩
      | exact (fun _ => rfl) | exact ⟨rfl, rfl, rfl, rfl, rfl, rfl, rfl, rfl, rfl, rfl⟩)), fun i => ⟨i.path, i.warnings, i.doors, i.faults, i.sram, i.cfg⟩⟩

theorem startDoors_evolves (s : State) (c : Table 6 DoorCfg) (t : Table 6 Door) :
    Evolves [.doors] s (s.setDoor (startedDoors c t)) := setDoor_evolves (fun p hp => by
    cases p <;> (first
      | exact absurd (by decide) hp | rfl | exact ⟨rfl, rfl⟩ | exact ⟨rfl, rfl, rfl⟩ | exact ⟨rfl, rfl, rfl, rfl⟩
      | exact (fun _ => rfl) | exact ⟨rfl, rfl, rfl, rfl, rfl, rfl, rfl, rfl, rfl, rfl⟩)) (fun _ => rfl)

theorem comeIntoForce_evolves (s : State) (p : Profile) : Evolves Part.force s (s.comeIntoForce p) := by
  unfold State.comeIntoForce
  dsimp only
  refine Evolves.trans ?_ ((startDoors_evolves _ _ _).mono (by decide))
  refine Evolves.trans ?_ ((setRx_alone _ _).mono (by decide))
  exact ((setProfile_evolves _ _ _).mono (by decide)).trans ((setInp_alone _ _).mono (by decide))

theorem enterNoProfile_evolves (s : State) : Evolves Part.force s s.enterNoProfile := by
  unfold State.enterNoProfile
  dsimp only
  refine Evolves.trans ?_ ((evalAllLamps_evolves _).mono (by decide))
  refine Evolves.trans ?_ ((setCause_evolves _ _).mono (by decide))
  exact ((setProfile_evolves _ _ _).mono (by decide)).trans ((startDoors_evolves _ _ _).mono (by decide))

theorem doorCauseSince_evolves (old s : State) : Evolves [.attnPending] s (State.doorCauseSince old s) :=
  Evolves.iteThen .refl (setCause_evolves _ _)

theorem takeForce_evolves (s : State) : Evolves Part.force s s.takeForce := by
  unfold State.takeForce
  dsimp only
  refine Evolves.trans ?_ ((startImages_evolves _).mono (by decide))
  refine Evolves.trans ?_ ((doorCauseSince_evolves _ _).mono (by decide))
  split
  · exact comeIntoForce_evolves ..
  · exact enterNoProfile_evolves ..

/-! ## The START reads -/

theorem setLoadBuffer_evolves (s : State) (p : Option Profile) : Evolves [.loadBuffer] s (s.setLoadBuffer p) :=
  ⟨(fun p hp => by
    cases p <;> (first
      | exact absurd (by decide) hp | rfl | exact ⟨rfl, rfl⟩ | exact ⟨rfl, rfl, rfl⟩ | exact ⟨rfl, rfl, rfl, rfl⟩
      | exact (fun _ => rfl) | exact ⟨rfl, rfl, rfl, rfl, rfl, rfl, rfl, rfl, rfl, rfl⟩)), fun i => ⟨i.path, i.warnings, i.doors, i.faults, i.sram, i.cfg⟩⟩

theorem profileRead_evolves (s : State) (a : Bool) :
    Evolves (.loadBuffer :: .operation :: .loading :: Part.faults) s (s.profileRead a) := by
  unfold State.profileRead
  dsimp only
  have h1 : ∀ p, Evolves (.loadBuffer :: .operation :: .loading :: Part.faults) s
      ((s.setLoadBuffer p).setOperation .startCountersRead) := fun p =>
    ((setLoadBuffer_evolves _ _).mono (by decide)).trans ((setOperation_evolves _ _).mono (by decide))
  exact Evolves.ite (h1 _) ((h1 _).trans ((momentary_evolves _ _).mono (by decide)))

/-- Doors whose counters alone change. -/
theorem setCounters_evolves (s : State) (f : Fin 6 → Door) (h : ∀ d, (f d).countsOpen = (s.door.doors.get d).countsOpen) :
    Evolves [.doors] s (s.setDoor { s.door with doors := .ofFn f }) := by
  refine setDoor_evolves (fun p hp => by
    cases p <;> (first
      | exact absurd (by decide) hp | rfl | exact ⟨rfl, rfl⟩ | exact ⟨rfl, rfl, rfl⟩ | exact ⟨rfl, rfl, rfl, rfl⟩
      | exact (fun _ => rfl) | exact ⟨rfl, rfl, rfl, rfl, rfl, rfl, rfl, rfl, rfl, rfl⟩)) (fun i => ?_)
  unfold DoorUnit.Inv at *
  rw [i]
  congr 1
  simp [Table.indices, h]

theorem countersRead_evolves (s : State) (a : Bool) :
    Evolves (.operation :: .opMode :: .cycle :: .ignition :: .wake :: .doors :: .loading :: Part.faults) s (s.countersRead a) := by
  unfold State.countersRead
  dsimp only
  have h1 : ∀ c : BitVec 24, Evolves
      (.operation :: .opMode :: .cycle :: .ignition :: .wake :: .doors :: .loading :: Part.faults) s
      ((s.setOperation .startSlotsRead).setMode { (s.setOperation .startSlotsRead).mode with cycle := c }) := fun c =>
    ((setOperation_evolves _ _).mono (by decide)).trans ((setMode_alone _ _ (by rfl) (by rfl)).mono (by decide))
  refine Evolves.ite ((h1 ((pageWord (s.cfgPage countersPageNo) 0).setWidth 24)).trans ?_) ((h1 0).trans (Evolves.trans ?_ ((momentary_evolves _ _).mono (by decide))))
  · refine Evolves.mono (setCounters_evolves _ _ (fun _ => rfl)) ?_
    decide
  · have : ∀ t : State, t.door.doors.map (fun x => { x with openCycles := 0, obstructions := 0 })
        = .ofFn (fun d => { t.door.doors.get d with openCycles := 0, obstructions := 0 }) := by
      intro t
      apply Table.ext_get
      intro i
      rw [Table.get_map, Table.get_ofFn]
    rw [this]
    refine Evolves.mono (setCounters_evolves _ _ (fun _ => rfl)) ?_
    decide

theorem loadSlot_inv (s : State) (a : BitVec 32) (r : FaultMemory × Nat) (i : Fin 32) :
    (r.1.Inv → (s.loadSlot a r i).1.Inv) ∧ FaultMemory.SameClear r.1 (s.loadSlot a r i).1 := by
  unfold State.loadSlot
  split
  · exact ⟨id, .refl _⟩
  · split
    · exact ⟨fun h => h.queue _, .queue _ _⟩
    · dsimp only
      split
      · exact ⟨id, .refl _⟩
      · exact ⟨fun h => h.queue _, .queue _ _⟩
      · split
        · exact ⟨fun h => h.queue _, .queue _ _⟩
        · dsimp only
          split
          · exact ⟨fun h => (h.put _ _).queueFor _ _, .putFor (.refl _) _ _ _⟩
          · exact ⟨fun h => h.put _ _, .put (.refl _) _ _⟩

theorem loadAll_inv (s : State) (a : BitVec 32) (l : List (Fin 32)) (r : FaultMemory × Nat) :
    (r.1.Inv → (l.foldl (s.loadSlot a) r).1.Inv) ∧ FaultMemory.SameClear r.1 (l.foldl (s.loadSlot a) r).1 := by
  induction l generalizing r with
  | nil => exact ⟨id, .refl _⟩
  | cons i l ih =>
    have h := loadSlot_inv s a r i
    have k := ih (s.loadSlot a r i)
    exact ⟨fun g => k.1 (h.1 g), h.2.trans k.2⟩

theorem momentaries_evolves (k : FaultKind) (n : Nat) (s : State) : Evolves Part.faults s (s.momentaries k n) := by
  induction n generalizing s with
  | zero => exact .refl
  | succ n ih => exact (takeMomentary_evolves s k).trans (ih _)

theorem loadSlots_evolves (s : State) (a : BitVec 32) : Evolves (.operation :: .loading :: Part.faults) s (s.loadSlots a) := by
  unfold State.loadSlots
  dsimp only
  have hl := loadAll_inv s a (List.finRange 32) (s.fm, 0)
  have h1 : Evolves (.operation :: .loading :: Part.faults) s (s.setFm
      { ((List.finRange 32).foldl (s.loadSlot a) (s.fm, 0)).1 with loaded := true, heldReports := [] }) := by
    refine setFm_evolves (fun p hp => ?_) hl.1
    obtain ⟨g1, g2, g3, _, _⟩ := hl.2
    cases p <;> (first
      | exact absurd (by decide) hp | exact ⟨g1, g2, g3⟩ | rfl | exact ⟨rfl, rfl⟩ | exact ⟨rfl, rfl, rfl⟩
      | exact ⟨rfl, rfl, rfl, rfl⟩ | exact (fun _ => rfl) | exact ⟨rfl, rfl, rfl, rfl, rfl, rfl, rfl, rfl, rfl, rfl⟩)
  have h2 := (h1.trans ((setOperation_evolves _ .none).mono (by decide))).trans
    ((Evolves.forEach (fun t (c : FaultCode) => takeMomentary_evolves t c.kind) s.fm.heldReports _).mono (by decide))
  have h3 := h2.trans ((momentaries_evolves .configMemory ((List.finRange 32).foldl (s.loadSlot a) (s.fm, 0)).2 _).mono
    (by decide))
  exact Evolves.ite h3 (h3.trans ((takeMomentary_evolves _ _).mono (by decide)))

/-! ## The profile restart -/

theorem handMotion_evolves (s : State) (m : Motion) : Evolves Part.evaluation s (s.handMotion m) :=
  Evolves.ite .refl (evalWarnings_evolves _ _)

theorem closeWindow_evolves (s : State) : Evolves [.window] s (s.setPath { s.path with windowOpen := false }) :=
  setPath_evolves (fun p hp => by
    cases p <;> (first
      | exact absurd (by decide) hp | rfl | exact ⟨rfl, rfl⟩ | exact ⟨rfl, rfl, rfl⟩ | exact ⟨rfl, rfl, rfl, rfl⟩
      | exact (fun _ => rfl) | exact ⟨rfl, rfl, rfl, rfl, rfl, rfl, rfl, rfl, rfl, rfl⟩)) id

theorem restartInd_evolves (s : State) : Evolves [.lamps, .lampCheck, .gauges, .chime] s (s.setInd s.ind.restarted) :=
  setInd_evolves (fun p hp => by
    cases p <;> (first
      | exact absurd (by decide) hp | rfl | exact ⟨rfl, rfl⟩ | exact ⟨rfl, rfl, rfl⟩ | exact ⟨rfl, rfl, rfl, rfl⟩
      | exact (fun _ => rfl) | exact ⟨rfl, rfl, rfl, rfl, rfl, rfl, rfl, rfl, rfl, rfl⟩))

theorem restartMode_evolves (s : State) :
    Evolves [.ignition] s (s.setMode { s.mode with offTimer := none, ignition := .unknown }) := setMode_evolves (fun p hp => by
    cases p <;> (first
      | exact absurd (by decide) hp | rfl | exact ⟨rfl, rfl⟩ | exact ⟨rfl, rfl, rfl⟩ | exact ⟨rfl, rfl, rfl, rfl⟩
      | exact (fun _ => rfl) | exact ⟨rfl, rfl, rfl, rfl, rfl, rfl, rfl, rfl, rfl, rfl⟩))

theorem beginRestart_evolves (s : State) (p : Profile) : Evolves Part.restart s (s.beginRestart p) := by
  unfold State.beginRestart
  dsimp only
  refine Evolves.trans ?_ ((startImages_evolves _).mono (by decide))
  refine Evolves.trans ?_ ((judgeLevel_evolves _).mono (by decide))
  refine Evolves.trans ?_ ((handMotion_evolves _ _).mono (by decide))
  refine Evolves.trans ?_ ((restartFaults_evolves _).mono (by decide))
  refine Evolves.trans ?_ ((doorCauseSince_evolves _ _).mono (by decide))
  refine Evolves.trans ?_ ((restartMode_evolves _).mono (by decide))
  refine Evolves.trans ?_ ((setSup_alone _ _).mono (by decide))
  refine Evolves.trans ?_ ((restartInd_evolves _).mono (by decide))
  refine Evolves.trans ?_ ((restartWarnings_evolves _).mono (by decide))
  refine Evolves.trans ?_ ((startDoors_evolves _ _ _).mono (by decide))
  refine Evolves.trans ?_ ((setRx_alone _ _).mono (by decide))
  refine Evolves.trans ?_ ((setInp_alone _ _).mono (by decide))
  refine Evolves.trans ?_ ((setSig_alone _ _).mono (by decide))
  refine Evolves.trans ?_ ((setProfile_evolves _ _ _).mono (by decide))
  exact ((closeWindow_evolves _).mono (by decide)).trans ((endTest_evolves _ _).mono (by decide))

theorem endRestartSup_evolves (s : State) : Evolves (.supervision :: Part.faults) s s.endRestartSup := by
  unfold State.endRestartSup
  dsimp only
  refine Evolves.iteThen ?_ ((startGrace_evolves _).mono (by decide))
  have h1 : Evolves (.supervision :: Part.faults) s
      (if s.sup.state = .lost then s.appear { kind := .hostLost, subject := 0 } else s) :=
    Evolves.iteThen .refl ((appear_evolves _ _).mono (by decide))
  have h2 : ∀ u : State, Evolves (.supervision :: Part.faults) u
      (match u.sup.timer with
      | some (.timeout, e) =>
        if u.profile.supTimeout ≤ e then
          if u.sup.state = .lost then u.setSup { u.sup with reference := none, run := 0, timer := none }
          else u.commitSup (u.sup.lose u.profile.hrst)
        else u
      | some (.grace, _) => u
      | none => u) := by
    intro u
    split
    · exact Evolves.ite (Evolves.ite ((setSup_alone _ _).mono (by decide)) (commitSup_evolves _ _)) .refl
    · exact .refl
    · exact .refl
  exact h1.trans (h2 _)

theorem setAddress_evolves (s : State) (a : Option Byte) : Evolves [.service] s (s.setSvc { s.svc with address := a }) :=
  setSvc_evolves (fun p hp => by
    cases p <;> (first
      | exact absurd (by decide) hp | rfl | exact ⟨rfl, rfl⟩ | exact ⟨rfl, rfl, rfl⟩ | exact ⟨rfl, rfl, rfl, rfl⟩
      | exact (fun _ => rfl)))

theorem endRestart_evolves (s : State) : Evolves Part.restartEnd s s.endRestart := by
  unfold State.endRestart
  dsimp only
  refine Evolves.trans ?_ ((complete_evolves _).mono (by decide))
  refine Evolves.trans ?_ ((endRestartSup_evolves _).mono (by decide))
  refine Evolves.iteThen ?_ (((evalAllWarnings_evolves _).mono (by decide)).trans
    ((enterRunIndication_evolves _).mono (by decide)))
  exact ((setCause_evolves _ _).mono (by decide)).trans ((setAddress_evolves _ _).mono (by decide))

theorem enterRunFromStart_evolves (s : State) : Evolves Part.restartEnd s s.enterRunFromStart := by
  unfold State.enterRunFromStart
  dsimp only
  refine Evolves.trans ?_ ((judgeIgnitionAtRun_evolves _).mono (by decide))
  refine Evolves.trans ?_ ((startGrace_evolves _).mono (by decide))
  refine Evolves.trans ?_ ((enterRunIndication_evolves _).mono (by decide))
  refine Evolves.trans ?_ ((evalAllWarnings_evolves _).mono (by decide))
  refine Evolves.trans ?_ ((setAddress_evolves _ _).mono (by decide))
  exact ((setMode_alone _ _ (by rfl) (by rfl)).mono (by decide)).trans ((offerStatus_evolves _ _).mono (by decide))

theorem endImages_evolves (s : State) : Evolves Part.imagesEnd s s.endImages := by
  have h1 : Evolves [.window, .awaited] s (s.setPath { s.path with windowOpen := true, awaited := none }) :=
    setPath_evolves (fun p hp => by
    cases p <;> (first
      | exact absurd (by decide) hp | rfl | exact ⟨rfl, rfl⟩ | exact ⟨rfl, rfl, rfl⟩ | exact ⟨rfl, rfl, rfl, rfl⟩
      | exact (fun _ => rfl) | exact ⟨rfl, rfl, rfl, rfl, rfl, rfl, rfl, rfl, rfl, rfl⟩)) id
  unfold State.endImages
  dsimp only
  have h2 := (h1.mono (k := Part.imagesEnd) (by decide)).trans ((offerStatus_evolves s _).mono (by decide))
  exact Evolves.ite (h2.trans ((enterRunFromStart_evolves _).mono (by decide)))
    (h2.trans ((endRestart_evolves _).mono (by decide)))

theorem restartWith_evolves (s : State) (p : Profile) : Evolves Part.restart s (s.restartWith p) :=
  ((setLoadBuffer_evolves _ _).mono (by decide)).trans (beginRestart_evolves _ _)

theorem setOperationStore_evolves (s : State) :
    Evolves [.operation, .store] s (s.setCtrl { s.ctrl with operation := .none, store := .none }) := setCtrl_evolves (fun p hp => by
    cases p <;> (first
      | exact absurd (by decide) hp | rfl | exact ⟨rfl, rfl⟩ | exact ⟨rfl, rfl, rfl⟩ | exact ⟨rfl, rfl, rfl, rfl⟩
      | exact (fun _ => rfl) | exact ⟨rfl, rfl, rfl, rfl, rfl, rfl, rfl, rfl, rfl, rfl⟩))

theorem abortStore_evolves (s : State) : Evolves Part.storeDone s s.abortStore := by
  unfold State.abortStore
  refine Evolves.trans ?_ ((momentary_evolves _ _).mono (by decide))
  exact ((setOperationStore_evolves _).mono (by decide)).trans ((refuse_evolves _ _).mono (by decide))

theorem storeWriteDone_evolves (s : State) (p : Profile) (n k : Nat) (sn : List Byte) (r : Bool) (o : PageOutcome) :
    Evolves Part.storeDone s (s.storeWriteDone p n k sn r o) := by
  unfold State.storeWriteDone
  dsimp only
  refine Evolves.trans ((writePage_evolves s (storePageNo n k) (writtenBytes sn o)).mono (by decide)) ?_
  refine Evolves.ite (Evolves.ite ?_ ((setOperation_evolves _ _).mono (by decide))) ?_
  · exact ((setOperationStore_evolves _).mono (by decide)).trans ((restartWith_evolves _ _).mono (by decide))
  · exact Evolves.ite ((setOperation_evolves _ _).mono (by decide)) ((setOperation_evolves _ _).mono (by decide))

theorem restartReadDone_evolves (s : State) (a : Bool) : Evolves Part.storeDone s (s.restartReadDone a) := by
  unfold State.restartReadDone
  dsimp only
  refine Evolves.trans ((setOperation_evolves s .none).mono (by decide)) ?_
  refine Evolves.ite ?_ ?_
  · split
    · exact (restartWith_evolves _ _).mono (by decide)
    · refine Evolves.trans ?_ ((momentary_evolves _ _).mono (by decide))
      exact ((setLoadBuffer_evolves _ _).mono (by decide)).trans ((refuse_evolves _ _).mono (by decide))
  · exact ((refuse_evolves _ _).mono (by decide)).trans ((momentary_evolves _ _).mono (by decide))

end Sys2Proof.Machine
end

