-- ==== Sys2Proof/Laws/Window.lean ====
section
/-! SUPPORT. What host accesses, grants and commands may change (06). -/

namespace Sys2Proof.Machine

theorem answer_evolves (s : State) (w : Word) : Evolves [.readData] s (s.answer w) := setPath_evolves (fun p hp => by
    cases p <;> (first
      | exact absurd (by decide) hp | rfl | exact ⟨rfl, rfl⟩ | exact ⟨rfl, rfl, rfl⟩ | exact ⟨rfl, rfl, rfl, rfl⟩
      | exact (fun _ => rfl) | exact ⟨rfl, rfl, rfl, rfl, rfl, rfl, rfl, rfl, rfl, rfl⟩)) id

theorem readSummary_evolves (s : State) : Evolves [.readData, .attnPending] s s.readSummary := setPath_evolves (fun p hp => by
    cases p <;> (first
      | exact absurd (by decide) hp | rfl | exact ⟨rfl, rfl⟩ | exact ⟨rfl, rfl, rfl⟩ | exact ⟨rfl, rfl, rfl, rfl⟩
      | exact (fun _ => rfl) | exact ⟨rfl, rfl, rfl, rfl, rfl, rfl, rfl, rfl, rfl, rfl⟩)) id

theorem setHeld_evolves (s : State) (h : Option HeldAccess) : Evolves [.held] s (s.setPath { s.path with held := h }) :=
  setPath_evolves (fun p hp => by
    cases p <;> (first
      | exact absurd (by decide) hp | rfl | exact ⟨rfl, rfl⟩ | exact ⟨rfl, rfl, rfl⟩ | exact ⟨rfl, rfl, rfl, rfl⟩
      | exact (fun _ => rfl) | exact ⟨rfl, rfl, rfl, rfl, rfl, rfl, rfl, rfl, rfl, rfl⟩)) id

/-! ## Host forwarding -/

/-- A read asks for the M-port: its word is returned, or the access is held. -/
theorem forwardRead_evolves (s : State) (w : Word) : Evolves [.readData, .held] s (s.forward (.read w)) := by
  unfold State.forward
  exact Evolves.ite ((answer_evolves _ _).mono (by decide)) ((setHeld_evolves _ _).mono (by decide))

/-- A write asks for the M-port: it is stored, or the access is held. -/
theorem forwardWrite_evolves (s : State) (a : Nat) (w : Word) (lanes : BitVec 4) :
    Evolves [.sram, .held] s (s.forward (.write a w lanes)) := by
  unfold State.forward
  exact Evolves.ite ((writeSram_evolves _ _ _ _).mono (by decide)) ((setHeld_evolves _ _).mono (by decide))

/-- The arbiter's condition for host forwarding, as the statements say it. -/
theorem hostGranted_iff (s : State) : s.hostGranted = true ↔ s.granted := by
  unfold State.hostGranted State.granted
  cases s.path.inFlight <;> cases s.path.urgent <;> cases s.path.queue <;> simp

/-- What a forwarded read does: its word is returned, or waits. -/
theorem forwardRead_returns (s : State) (w : Word) : Returns s (s.forward (.read w)) w := by
  unfold Returns State.forward
  by_cases h : s.granted
  · rw [if_pos h, if_pos ((hostGranted_iff s).2 h)]
    exact ⟨rfl, rfl⟩
  · rw [if_neg h, if_neg (fun g => h ((hostGranted_iff s).1 g))]
    exact ⟨rfl, rfl⟩

/-- What a forwarded write does: its enabled lanes are stored, or it waits. -/
theorem forwardWrite_forwards {s : State} (hs : Memory.wf Config.sramErased s.sram = true) (a : Nat) (w : Word) (lanes : BitVec 4) :
    Forwards s s (s.forward (.write a w lanes)) a w lanes := by
  unfold Forwards State.forward
  by_cases h : s.granted
  · rw [if_pos h, if_pos ((hostGranted_iff s).2 h)]
    exact ⟨writeLanes_stores hs a w lanes, rfl⟩
  · rw [if_neg h, if_neg (fun g => h ((hostGranted_iff s).1 g))]
    exact ⟨rfl, rfl⟩

theorem forwardWord_evolves (s : State) (off : Nat) (w : Word) : Evolves [.sram, .held] s (s.forwardWord off w) :=
  forwardWrite_evolves ..

theorem runForwarded_evolves (s : State) (a : Forwarded) : Evolves [.readData, .sram] s (s.runForwarded a) := by
  cases a with
  | read w => exact (answer_evolves _ _).mono (by decide)
  | write a w lanes => exact (writeSram_evolves _ _ _ _).mono (by decide)

theorem grantForwarded_evolves (s : State) : Evolves Part.forwarded s s.grantForwarded := by
  unfold State.grantForwarded
  split
  · refine Evolves.ite ?_ .refl
    exact ((setHeld_evolves _ _).mono (by decide)).trans ((runForwarded_evolves _ _).mono (by decide))
  all_goals exact .refl

/-- What the grant of waiting accesses does: one that waits is carried out if the M-port is free for it, and nothing else is touched. -/
theorem grantForwarded_serves {s : State} (hs : Memory.wf Config.sramErased s.sram = true) : WaitingServed s s.grantForwarded := by
  have hg : s.grantForwarded.granted ↔ s.granted := by
    have k := (grantForwarded_evolves s).keeps
    have h1 : s.grantForwarded.path.inFlight = s.path.inFlight := k .inFlight (by decide)
    have h2 : s.grantForwarded.path.queue = s.path.queue ∧ _ ∧ s.grantForwarded.path.urgent = s.path.urgent := k .queue (by decide)
    unfold State.granted
    rw [h1, h2.1, h2.2.2]
  constructor
  · intro w h g
    have g := (hostGranted_iff s).2 (hg.1 g)
    simp only [State.grantForwarded, h, g, if_true]
    exact ⟨rfl, rfl, rfl⟩
  · intro a w lanes h g
    have g := (hostGranted_iff s).2 (hg.1 g)
    simp only [State.grantForwarded, h, g, if_true]
    exact ⟨rfl, rfl, writeLanes_stores hs a w lanes⟩
  · intro h
    have e : s.grantForwarded = s := by
      unfold State.grantForwarded
      split
      · next x hx =>
        refine if_neg fun g => ?_
        exact h.elim (fun n => n (hg.2 ((hostGranted_iff s).1 g))) (fun n => n x hx)
      all_goals rfl
    rw [e]
    exact ⟨rfl, rfl, rfl⟩

/-! ## Host reads -/

theorem readImage_evolves (s : State) (off : Nat) : Evolves Part.hostRead s (s.readImage off) := by
  have h : Evolves Part.hostRead s
      (if s.path.atHand off then s.answer (s.latestWord off) else s.forward (.read (s.latestWord off))) :=
    Evolves.ite ((answer_evolves _ _).mono (by decide)) ((forwardRead_evolves _ _).mono (by decide))
  unfold State.readImage
  dsimp only
  split
  · exact h.trans ((arm_evolves _ _).mono (by decide))
  · exact h

/-- What a read of an image word returns: the latest word, at once or when the M-port is free for it. -/
theorem readImage_reads (s : State) (off : Nat) : ReadsImage s (s.readImage off) off (s.latestWord off) := by
  have key : ReadsImage s
      (if s.path.atHand off then s.answer (s.latestWord off) else s.forward (.read (s.latestWord off))) off
      (s.latestWord off) := by
    have hm : s.path.atHand off = true ↔ off ∈ s.path.queue.map Prod.fst ++ s.path.resync := by
      unfold MemoryPath.atHand
      simp
    unfold ReadsImage
    by_cases h : off ∈ s.path.queue.map Prod.fst ++ s.path.resync
    · rw [if_pos h, if_pos (hm.2 h)]
      exact ⟨rfl, rfl⟩
    · rw [if_neg h, if_neg (fun g => h (hm.1 g))]
      exact forwardRead_returns s _
  unfold State.readImage
  dsimp only
  generalize (if s.path.atHand off then s.answer (s.latestWord off) else s.forward (.read (s.latestWord off))) = u at key ⊢
  split
  · next w _ =>
    have h1 : (u.arm w).path.readData = u.path.readData := (arm_evolves u w).keeps .readData (by decide)
    have h2 : (u.arm w).path.held = u.path.held := (arm_evolves u w).keeps .held (by decide)
    unfold ReadsImage Returns at *
    rw [h1, h2]
    exact key
  · exact key

theorem readOffset_evolves (s : State) (off : Nat) : Evolves Part.hostRead s (s.readOffset off) := by
  unfold State.readOffset
  refine Evolves.ite ((forwardRead_evolves _ _).mono (by decide)) ?_
  refine Evolves.ite ((answer_evolves _ _).mono (by decide)) ?_
  refine Evolves.ite ((readSummary_evolves _).mono (by decide)) ?_
  exact Evolves.ite (readImage_evolves _ _) ((forwardRead_evolves _ _).mono (by decide))

theorem hostRead_evolves (s : State) (a : BitVec 22) : Evolves Part.hostRead s (s.hostRead a) := by
  unfold State.hostRead
  refine Evolves.ite ?_ .refl
  split
  · exact (forwardRead_evolves _ _).mono (by decide)
  · exact readOffset_evolves ..

/-! ## Warning cells -/

theorem setVoidAcks_evolves (s : State) (n : BitVec 16) : Evolves [.voidAcks] s (s.setWarn { s.warn with voidAcks := n }) :=
  setWarn_evolves (fun p hp => by
    cases p <;> (first
      | exact absurd (by decide) hp | rfl | exact ⟨rfl, rfl⟩ | exact ⟨rfl, rfl, rfl⟩ | exact ⟨rfl, rfl, rfl, rfl⟩
      | exact (fun _ => rfl) | exact ⟨rfl, rfl, rfl, rfl, rfl, rfl, rfl, rfl, rfl, rfl⟩)) id

theorem hostAck_evolves (s : State) (w : Fin 96) : Evolves (.voidAcks :: Part.evaluation) s (s.hostAck w) := by
  unfold State.hostAck
  dsimp only
  split
  · next h => exact (acknowledge_evolves s w h.2).mono (by decide)
  · exact ((setVoidAcks_evolves _ _).mono (by decide)).trans ((offerChanged_evolves _ _ _).mono (by decide))

theorem hostSet_evolves (s : State) (w : Fin 96) (b : Bool) : Evolves Part.evaluation s (s.hostSet w b) := by
  unfold State.hostSet
  refine Evolves.ite ?_ .refl
  dsimp only
  refine commitWarning_evolves _ _ _ (fun h => ?_)
  have : Warning.Inv { s.warn.rows.get w with hostSet := b } := h
  exact this.evaluate ..

theorem writeWarning_evolves (s : State) (w : Fin 96) (word : Word) : Evolves Part.warningWrite s (s.writeWarning w word) := by
  have hv : Evolves Part.warningWrite s s.violation := (violation_evolves s).mono (by decide)
  unfold State.writeWarning
  refine Evolves.ite ((hostAck_evolves _ _).mono (by decide)) ?_
  refine Evolves.ite ?_ hv
  refine Evolves.ite ((hostSet_evolves _ _ _).mono (by decide)) ?_
  exact Evolves.ite ((hostSet_evolves _ _ _).mono (by decide)) hv

/-! ## Commands -/

theorem refused_evolves (s : State) (r : Reason) : Evolves Part.commandBegun s (s.refuse r) :=
  (refuse_evolves s r).mono (by decide)

theorem beginClearFaults_evolves (s : State) : Evolves Part.commandBegun s s.beginClearFaults := by
  unfold State.beginClearFaults
  refine Evolves.ite (refused_evolves _ _) (Evolves.ite (refused_evolves _ _) ?_)
  refine Evolves.trans ?_ ((takeWork_evolves _).mono (by decide))
  exact ((inProgress_evolves _).mono (by decide)).trans ((takeClear_evolves _ _).mono (by decide))

theorem beginStore_evolves (s : State) : Evolves Part.commandBegun s s.beginStore := by
  unfold State.beginStore
  refine Evolves.ite ?_ (refused_evolves _ _)
  exact ((inProgress_evolves _).mono (by decide)).trans ((setStore_evolves _ _).mono (by decide))

theorem setRestartWaiting_evolves (s : State) :
    Evolves [.restartWaiting] s (s.setCtrl { s.ctrl with restartWaiting := true }) := setCtrl_evolves (fun p hp => by
    cases p <;> (first
      | exact absurd (by decide) hp | rfl | exact ⟨rfl, rfl⟩ | exact ⟨rfl, rfl, rfl⟩ | exact ⟨rfl, rfl, rfl, rfl⟩
      | exact (fun _ => rfl) | exact ⟨rfl, rfl, rfl, rfl, rfl, rfl, rfl, rfl, rfl, rfl⟩))

theorem beginReload_evolves (s : State) : Evolves Part.commandBegun s s.beginReload := by
  unfold State.beginReload
  refine Evolves.ite ?_ (refused_evolves _ _)
  refine Evolves.trans ?_ ((takeWork_evolves _).mono (by decide))
  exact ((inProgress_evolves _).mono (by decide)).trans ((setRestartWaiting_evolves _).mono (by decide))

theorem clearCauses_evolves (s : State) : Evolves [.causes] s (s.setMode { s.mode with causes := {} }) := setMode_evolves (fun p hp => by
    cases p <;> (first
      | exact absurd (by decide) hp | rfl | exact ⟨rfl, rfl⟩ | exact ⟨rfl, rfl, rfl⟩ | exact ⟨rfl, rfl, rfl, rfl⟩
      | exact (fun _ => rfl) | exact ⟨rfl, rfl, rfl, rfl, rfl, rfl, rfl, rfl, rfl, rfl⟩))

theorem beginClearCauses_evolves (s : State) : Evolves Part.commandBegun s s.beginClearCauses := by
  unfold State.beginClearCauses
  refine Evolves.ite (refused_evolves _ _) ?_
  refine Evolves.trans ?_ ((complete_evolves _).mono (by decide))
  exact ((clearCauses_evolves _).mono (by decide)).trans ((offerStatus_evolves _ _).mono (by decide))

theorem beginClearStats_evolves (s : State) : Evolves Part.commandBegun s s.beginClearStats := by
  unfold State.beginClearStats
  exact Evolves.ite (refused_evolves _ _)
    (((clearStats_evolves _).mono (by decide)).trans ((complete_evolves _).mono (by decide)))

theorem beginPark_evolves (s : State) : Evolves Part.commandBegun s s.beginPark := by
  unfold State.beginPark
  refine Evolves.ite ?_ (refused_evolves _ _)
  refine Evolves.trans ?_ ((takeWork_evolves _).mono (by decide))
  exact ((enterParking_evolves _).mono (by decide)).trans ((complete_evolves _).mono (by decide))

theorem beginCommand_evolves (s : State) (code : Byte) : Evolves Part.commandBegun s (s.beginCommand code) := by
  unfold State.beginCommand
  split
  · exact beginClearFaults_evolves s
  · exact beginStore_evolves s
  · exact beginReload_evolves s
  · exact beginClearCauses_evolves s
  · exact beginClearStats_evolves s
  · exact beginPark_evolves s
  · exact refused_evolves _ _

theorem setCommand_evolves (s : State) (c : Option Byte) : Evolves [.command] s (s.setPath { s.path with command := c }) :=
  setPath_evolves (fun p hp => by
    cases p <;> (first
      | exact absurd (by decide) hp | rfl | exact ⟨rfl, rfl⟩ | exact ⟨rfl, rfl, rfl⟩ | exact ⟨rfl, rfl, rfl, rfl⟩
      | exact (fun _ => rfl) | exact ⟨rfl, rfl, rfl, rfl, rfl, rfl, rfl, rfl, rfl, rfl⟩)) id

theorem setOverruns_evolves (s : State) (n : BitVec 16) : Evolves [.overruns] s (s.setPath { s.path with overruns := n }) :=
  setPath_evolves (fun p hp => by
    cases p <;> (first
      | exact absurd (by decide) hp | rfl | exact ⟨rfl, rfl⟩ | exact ⟨rfl, rfl, rfl⟩ | exact ⟨rfl, rfl, rfl, rfl⟩
      | exact (fun _ => rfl) | exact ⟨rfl, rfl, rfl, rfl, rfl, rfl, rfl, rfl, rfl, rfl⟩)) id

theorem writeCommand_evolves (s : State) (word : Word) : Evolves Part.commandBegun s (s.writeCommand word) := by
  unfold State.writeCommand
  split
  · exact ((setOverruns_evolves _ _).mono (by decide)).trans ((offerChanged_evolves _ _ _).mono (by decide))
  · dsimp only
    refine Evolves.trans ?_ (beginCommand_evolves _ _)
    exact ((forwardWord_evolves _ _ _).mono (by decide)).trans ((setCommand_evolves _ _).mono (by decide))

/-! ## Other host writes -/

theorem setRequests_evolves (s : State) (a b : Word) :
    Evolves [.requests] s (s.setInd { s.ind with requestLow := a, requestHigh := b }) := setInd_evolves (fun p hp => by
    cases p <;> (first
      | exact absurd (by decide) hp | rfl | exact ⟨rfl, rfl⟩ | exact ⟨rfl, rfl, rfl⟩ | exact ⟨rfl, rfl, rfl, rfl⟩
      | exact (fun _ => rfl) | exact ⟨rfl, rfl, rfl, rfl, rfl, rfl, rfl, rfl, rfl, rfl⟩))

theorem takeRequest_evolves (s : State) (u : Bool) (word : Word) : Evolves [.requests, .lamps] s (s.takeRequest u word) := by
  unfold State.takeRequest
  dsimp only
  refine Evolves.trans ?_ ((evalLamps_evolves _ _).mono (by decide))
  cases u with
  | false => exact (setRequests_evolves s word s.ind.requestHigh).mono (by decide)
  | true => exact (setRequests_evolves s s.ind.requestLow word).mono (by decide)

theorem setEnable_evolves (s : State) (e : BitVec 10) : Evolves [.attnEnable] s (s.setPath { s.path with attnEnable := e }) :=
  setPath_evolves (fun p hp => by
    cases p <;> (first
      | exact absurd (by decide) hp | rfl | exact ⟨rfl, rfl⟩ | exact ⟨rfl, rfl, rfl⟩ | exact ⟨rfl, rfl, rfl, rfl⟩
      | exact (fun _ => rfl) | exact ⟨rfl, rfl, rfl, rfl, rfl, rfl, rfl, rfl, rfl, rfl⟩)) id

theorem dropped_evolves (s : State) : Evolves Part.hostWrite s s.violation := (violation_evolves s).mono (by decide)

theorem writeLive_evolves (s : State) (off : Nat) (word : Word) : Evolves Part.hostWrite s (s.writeLive off word) := by
  unfold State.writeLive
  refine Evolves.ite ((writeCommand_evolves _ _).mono (by decide)) (Evolves.ite ?_ ?_)
  · unfold State.writeEnable
    exact ((setEnable_evolves _ _).mono (by decide)).trans ((forwardWord_evolves _ _ _).mono (by decide))
  · unfold State.writeAlive
    refine Evolves.trans ?_ ((takeWork_evolves _).mono (by decide))
    exact ((aliveWrite_evolves _ _).mono (by decide)).trans ((forwardWord_evolves _ _ _).mono (by decide))

theorem writeRequest_evolves (s : State) (u : Bool) (word : Word) :
    Evolves [.requests, .lamps, .sram, .held] s (s.writeRequest u word) := by
  unfold State.writeRequest
  exact Evolves.ite .refl (((takeRequest_evolves _ _ _).mono (by decide)).trans ((forwardWord_evolves _ _ _).mono (by decide)))

theorem writeSignal_evolves (s : State) (n : Fin 256) (word : Word) : Evolves Part.hostWrite s (s.writeSignal n word) := by
  unfold State.writeSignal
  exact Evolves.ite (Evolves.ite .refl ((setHeld_evolves _ _).mono (by decide))) (dropped_evolves s)

theorem writeGauge_evolves (s : State) (g : Fin 12) (word : Word) : Evolves Part.hostWrite s (s.writeGauge g word) := by
  unfold State.writeGauge
  exact Evolves.ite (Evolves.ite .refl ((setHeld_evolves _ _).mono (by decide))) (dropped_evolves s)

theorem writeOwned_evolves (s : State) (off : Nat) (word : Word) : Evolves Part.hostWrite s (s.writeOwned off word) := by
  unfold State.writeOwned
  refine Evolves.ite ?_ (Evolves.ite ((writeRequest_evolves _ _ _).mono (by decide))
    (Evolves.ite ((writeRequest_evolves _ _ _).mono (by decide)) ?_))
  · split
    · exact writeSignal_evolves ..
    · exact dropped_evolves s
  · split
    · exact (writeWarning_evolves _ _ _).mono (by decide)
    · exact writeGauge_evolves ..
    · exact dropped_evolves s

theorem writeOffset_evolves (s : State) (off : Nat) (word : Word) (lanes : BitVec 4) :
    Evolves Part.hostWrite s (s.writeOffset off word lanes) := by
  unfold State.writeOffset
  refine Evolves.ite (Evolves.ite (writeLive_evolves ..) (dropped_evolves s)) ?_
  refine Evolves.ite .refl (Evolves.ite (dropped_evolves s) ?_)
  refine Evolves.ite (Evolves.ite (writeOwned_evolves ..) (dropped_evolves s)) ?_
  exact Evolves.ite (dropped_evolves s) ((forwardWrite_evolves _ _ _ _).mono (by decide))

theorem hostWriteAt_evolves (s : State) (off : Nat) (word : Word) (lanes : BitVec 4) :
    Evolves Part.hostWrite s (s.hostWriteAt off word lanes) := by
  unfold State.hostWriteAt
  exact Evolves.ite (writeOffset_evolves ..) .refl

theorem hostWrite_evolves (s : State) (a : BitVec 22) (word : Word) (lanes : BitVec 4) :
    Evolves Part.hostWrite s (s.hostWrite a word lanes) := by
  unfold State.hostWrite
  refine Evolves.ite ?_ .refl
  split
  · exact (forwardWrite_evolves _ _ _ _).mono (by decide)
  · exact writeOffset_evolves ..

/-! ## Captured writes and the image writer -/

theorem supersede_evolves (off : Nat) (s : State) : Evolves [.queue, .sram] s (s.supersede off) := by
  have h1 : ∀ q r u, (s.path.Inv → MemoryPath.Inv { s.path with queue := q, resync := r, urgent := u }) →
      Evolves [.queue] s (s.setPath { s.path with queue := q, resync := r, urgent := u }) :=
    fun q r u h => setPath_evolves (fun p hp => by
    cases p <;> (first
      | exact absurd (by decide) hp | rfl | exact ⟨rfl, rfl⟩ | exact ⟨rfl, rfl, rfl⟩ | exact ⟨rfl, rfl, rfl, rfl⟩
      | exact (fun _ => rfl) | exact ⟨rfl, rfl, rfl, rfl, rfl, rfl, rfl, rfl, rfl, rfl⟩)) h
  unfold State.supersede
  dsimp only
  refine Evolves.trans ?_ ((writeSram_evolves _ _ _ _).mono (by decide))
  refine (h1 _ _ _ (fun h => ?_)).mono (by decide)
  exact h.sub List.filter_sublist List.filter_sublist

theorem captureSignal_evolves (s : State) (n : Fin 256) (word : Word) :
    Evolves (.violations :: .sram :: Part.update) s (s.captureSignal n word) := by
  unfold State.captureSignal
  dsimp only
  refine Evolves.ite ?_ ((violation_evolves s).mono (by decide))
  exact commitSignal_evolves _ _ _ _ _ _ (by decide) (fun t => (supersede_evolves _ t).mono (by decide))

theorem captureGauge_evolves (s : State) (g : Fin 12) (word : Word) :
    Evolves (.violations :: .sram :: .gauges :: Part.images) s (s.captureGauge g word) := by
  unfold State.captureGauge
  dsimp only
  refine Evolves.ite ?_ ((violation_evolves s).mono (by decide))
  exact ((setRequested_evolves _ _ _).mono (by decide)).trans ((supersede_evolves _ _).mono (by decide))

/-- The grant of a captured write changes what its capture may change, and the queue and the P-port. -/
theorem grantCaptured_evolves (s : State) {capture : State → State} (h : ∀ t, Evolves Part.granted t (capture t)) :
    Evolves Part.granted s (s.grantCaptured capture) := by
  have h1 : Evolves Part.granted s (s.setPath { s.path with held := none }) := (setHeld_evolves s none).mono (by decide)
  unfold State.grantCaptured
  refine Evolves.ite ?_ .refl
  dsimp only
  exact Evolves.ite h1 ((h1.trans (h _)).trans ((requeue_evolves _).mono (by decide)))

theorem grantHeld_evolves (s : State) : Evolves Part.granted s s.grantHeld := by
  unfold State.grantHeld
  split
  · exact grantCaptured_evolves s fun t => (captureSignal_evolves t _ _).mono (by decide)
  · exact grantCaptured_evolves s fun t => (captureGauge_evolves t _ _).mono (by decide)
  all_goals exact .refl

theorem setInFlight_evolves (s : State) (e : Option (Nat × Word)) :
    Evolves [.inFlight] s (s.setPath { s.path with inFlight := e }) := setPath_evolves (fun p hp => by
    cases p <;> (first
      | exact absurd (by decide) hp | rfl | exact ⟨rfl, rfl⟩ | exact ⟨rfl, rfl, rfl⟩ | exact ⟨rfl, rfl, rfl, rfl⟩
      | exact (fun _ => rfl) | exact ⟨rfl, rfl, rfl, rfl, rfl, rfl, rfl, rfl, rfl, rfl⟩)) id

theorem grantImage_evolves (s : State) : Evolves [.inFlight, .sram] s s.grantImage := by
  unfold State.grantImage
  split
  · refine Evolves.ite ?_ .refl
    exact ((setInFlight_evolves _ _).mono (by decide)).trans ((writeSram_evolves _ _ _ _).mono (by decide))
  · exact .refl
  · exact .refl

theorem writeDone_evolves (s : State) (e : Nat × Word) :
    Evolves [.queue, .inFlight, .awaited] s (s.setPath (s.path.writeDone e)) := by
  refine setPath_evolves (keeps_path _ _ _ ?_) (fun h => h.writeDone e)
  intro q _ hq
  have h : (s.path.writeDone e).straps = s.path.straps ∧ (s.path.writeDone e).windowOpen = s.path.windowOpen ∧
      (s.path.writeDone e).held = s.path.held ∧ (s.path.writeDone e).readData = s.path.readData ∧
      (s.path.writeDone e).command = s.path.command ∧ (s.path.writeDone e).result = s.path.result ∧
      (s.path.writeDone e).violations = s.path.violations ∧ (s.path.writeDone e).overruns = s.path.overruns ∧
      (s.path.writeDone e).attnPending = s.path.attnPending ∧ (s.path.writeDone e).attnEnable = s.path.attnEnable := by
    unfold MemoryPath.writeDone
    split
    · simp
    · split <;> simp [MemoryPath.withQueue]
  obtain ⟨h1, h2, h3, h4, h5, h6, h7, h8, h9, h10⟩ := h
  cases q <;> (first | exact absurd (by decide) hq | contradiction | assumption)

theorem imageWritten_evolves (s : State) :
    Evolves (Part.imagesEnd ++ [.inFlight]) s s.imageWritten := by
  unfold State.imageWritten
  split
  · exact .refl
  · dsimp only
    refine Evolves.iteThen ?_ ((endImages_evolves _).mono (by decide))
    exact ((writeDone_evolves _ _).mono (by decide)).trans ((requeue_evolves _).mono (by decide))

end Sys2Proof.Machine
end

