-- ==== Sys2Proof/Laws/Layout.lean ====
section
/-! SUPPORT. The words of the window as numbers: fields side by side add up (12, Tables 12-1 to 12-5). -/

namespace Sys2Proof.Machine

/-- A word reads as the number `n`, which fits `hi` bits. -/
structure Reads (w : Word) (n hi : Nat) : Prop where
  value : w.toNat = n
  fits : n < 2 ^ hi

theorem reads_field {v k : Nat} (hv : v < 2 ^ k) (hk : k ≤ 32 := by decide) : Reads (field 0 v) v k := by
  have := Nat.pow_le_pow_right (n := 2) (by decide) hk
  refine ⟨?_, hv⟩
  simp only [field, Nat.pow_zero, Nat.mul_one, BitVec.toNat_ofNat]
  exact Nat.mod_eq_of_lt (by omega)

/-- A further field above what the word holds adds its number at its place. -/
theorem Reads.or {w : Word} {n m lo v k : Nat} (h : Reads w n m) (hv : v < 2 ^ k) (hm : m ≤ lo := by decide)
    (hk : lo + k ≤ 32 := by decide) : Reads (w ||| field lo v) (n + 2 ^ lo * v) (lo + k) := by
  have hlo := Nat.pow_le_pow_right (n := 2) (by decide) hm
  have h32 := Nat.pow_le_pow_right (n := 2) (by decide) hk
  have hn : n < 2 ^ lo := by have := h.fits; omega
  have hle : n + 2 ^ lo * v < 2 ^ (lo + k) := by
    rw [Nat.pow_add]
    have : 2 ^ lo * v + 2 ^ lo ≤ 2 ^ lo * 2 ^ k := by
      rw [← Nat.mul_succ]; exact Nat.mul_le_mul_left _ hv
    omega
  refine ⟨?_, hle⟩
  have hf : (field lo v).toNat = 2 ^ lo * v := by
    simp only [field, BitVec.toNat_ofNat]
    rw [Nat.mul_comm, Nat.mod_eq_of_lt]
    omega
  rw [BitVec.toNat_or, hf, h.value, Nat.or_comm, ← Nat.two_pow_add_eq_or_of_lt hn]
  omega

/-- A flag fits one bit. -/
theorem toNat_lt_of_bool (b : Bool) : b.toNat < 2 ^ 1 := by cases b <;> decide

/-- A further flag. -/
theorem Reads.orFlag {w : Word} {n m lo : Nat} (h : Reads w n m) (b : Bool) (hm : m ≤ lo := by decide)
    (hk : lo + 1 ≤ 32 := by decide) : Reads (w ||| flag lo b) (n + 2 ^ lo * b.toNat) (lo + 1) :=
  h.or (toNat_lt_of_bool b) hm hk

theorem countPair_halves (a b : BitVec 16) : Halves (countPair a b) a b :=
  ((reads_field a.isLt).or b.isLt).value

theorem signalWord_reads (e : Signal) : Reads (signalWord e)
    (e.value.toNat + 2 ^ 16 * e.quality.toNat + 2 ^ 24 * e.sequence.toNat) 32 :=
  ((reads_field e.value.isLt).or (k := 3) (by cases e.quality <;> decide)).or e.sequence.isLt

theorem doorStateWord_reads (d : Door) : Reads (doorStateWord d)
    (d.state.toNat + 2 ^ 4 * d.source.toNat + 2 ^ 8 * d.cause.toNat + 2 ^ 12 * d.countsOpen.toNat) 13 :=
  (((reads_field (k := 4) (by cases d.state <;> decide)).or (k := 2) (by cases d.source <;> decide)).or (k := 3)
    (by cases d.cause <;> decide)).orFlag d.countsOpen

theorem warningWord_reads (w : Warning) : Reads (warningWord w)
    (w.state.toNat + 2 ^ 4 * w.present.toNat + 2 ^ 5 * w.latched.toNat + 2 ^ 6 * w.hostSet.toNat + 2 ^ 8 * w.number.toNat) 16 :=
  ((((reads_field (k := 2) (by cases w.state <;> decide)).orFlag w.present).orFlag w.latched).orFlag w.hostSet).or w.number.isLt

theorem displayWord_reads (s : State) (k : Nat) (w : Fin 96) (h : s.displayOrder[k]? = some w) : Reads (s.displayWord k)
    (w.val + 2 ^ 8 * (s.profile.warnings.get w).cls.toNat +
      2 ^ 10 * (if (s.warn.rows.get w).state = .activeAck then 1 else 0) + 2 ^ 11 * (s.warn.rows.get w).present.toNat + 2 ^ 15) 16 := by
  have g := ((((reads_field (v := w.val) (k := 7) (by omega)).or (lo := 8) (v := (s.profile.warnings.get w).cls.toNat) (k := 2)
    (by cases (s.profile.warnings.get w).cls <;> decide)).orFlag (lo := 10) (decide ((s.warn.rows.get w).state = .activeAck))).orFlag
    (lo := 11) (s.warn.rows.get w).present).orFlag (lo := 15) true
  simp only [State.displayWord, h]
  refine ⟨g.value.trans ?_, ?_⟩
  · by_cases hk : (s.warn.rows.get w).state = .activeAck <;> simp [hk]
  · have := g.fits
    by_cases hk : (s.warn.rows.get w).state = .activeAck <;> simp [hk] at this ⊢ <;> exact this

theorem gaugeTargetWord_reads (g : Gauge) (h : g.requested < 2 ^ 12) : Reads (gaugeTargetWord g) g.requested 12 := reads_field h

theorem gaugeActualWord_reads (g : Gauge) (h : g.shown < 2 ^ 12) : Reads (gaugeActualWord g)
    ((if g.state = .unhomed ∨ g.state = .homing then 0 else g.shown) + 2 ^ 16 * g.state.toNat) 19 := by
  have hs : (if g.state.homed then g.shown else 0) = if g.state = .unhomed ∨ g.state = .homing then 0 else g.shown := by
    cases g.state <;> simp [GaugeState.homed]
  unfold gaugeActualWord
  rw [hs]
  exact (reads_field (k := 12) (by split <;> omega)).or (k := 3) (by cases g.state <;> decide)

theorem resultWord_reads (r : Result) : Reads (resultWord r)
    (r.value.toNat + 2 ^ 8 * r.code.toNat + 2 ^ 16 * r.reason.toNat) 19 :=
  ((reads_field (k := 2) (by cases r.value <;> decide)).or r.code.isLt).or (k := 3) (by cases r.reason <;> decide)

theorem freezeWord_reads (e : FreezeEntry) : Reads (freezeWord e)
    (e.value.toNat + 2 ^ 16 * e.signal.toNat + 2 ^ 24 * e.quality.toNat) 27 :=
  ((reads_field e.value.isLt).or e.signal.isLt).or (k := 3) (by cases e.quality <;> decide)

theorem lineWord_zero_reads (l : LineRx) : Reads (lineWord l 0) (l.state.toNat + 2 ^ 2 * l.hunting.toNat) 3 :=
  (reads_field (k := 2) (by cases l.state <;> decide)).orFlag l.hunting

/-- The status word field by field (Table 12-3). -/
theorem statusWord_toNat (s : State) (h : s.door.openCount ≤ 6) : s.statusWord.toNat =
    s.path.windowOpen.toNat + 2 * s.mode.mode.toNat + 2 ^ 3 * s.inForce.toNat + 2 ^ 4 * s.sig.motion.toNat +
      2 ^ 6 * s.door.openCount + 2 ^ 9 * s.door.allLocked.toNat + 2 ^ 10 * s.sup.state.toNat +
      2 ^ 12 * s.svc.testerActive.toNat + 2 ^ 13 * s.svc.level.toNat + 2 ^ 14 * s.svc.test.toNat +
      2 ^ 16 * s.fm.full.toNat + 2 ^ 17 * s.fm.clearing.toNat +
      2 ^ 18 * s.mode.wakeCause.ignition.toNat + 2 ^ 19 * s.mode.wakeCause.input.toNat +
      2 ^ 20 * s.mode.wakeCause.service.toNat + 2 ^ 21 * s.mode.wakeCause.front.toNat +
      2 ^ 22 * s.mode.causes.powerOn.toNat + 2 ^ 23 * s.mode.causes.pin.toNat + 2 ^ 24 * s.mode.causes.supplyLow.toNat := by
  have hw : s.mode.wakeCause.toNat < 2 ^ 4 := by
    have := toNat_lt_of_bool s.mode.wakeCause.ignition
    have := toNat_lt_of_bool s.mode.wakeCause.input
    have := toNat_lt_of_bool s.mode.wakeCause.service
    have := toNat_lt_of_bool s.mode.wakeCause.front
    simp only [WakeSet.toNat]; omega
  have hc : s.mode.causes.toNat < 2 ^ 3 := by
    have := toNat_lt_of_bool s.mode.causes.powerOn
    have := toNat_lt_of_bool s.mode.causes.pin
    have := toNat_lt_of_bool s.mode.causes.supplyLow
    simp only [ResetCauses.toNat]; omega
  have h0 : Reads (flag 0 s.path.windowOpen) s.path.windowOpen.toNat 1 := reads_field (toNat_lt_of_bool _)
  have := ((((((((((((h0.or (lo := 1) (v := s.mode.mode.toNat) (k := 2) (by cases s.mode.mode <;> decide)).orFlag (lo := 3) s.inForce).or
    (lo := 4) (v := s.sig.motion.toNat) (k := 2) (by cases s.sig.motion <;> decide)).or (lo := 6) (v := s.door.openCount) (k := 3) (by omega)).orFlag (lo := 9)
    s.door.allLocked).or (lo := 10) (v := s.sup.state.toNat) (k := 2) (by cases s.sup.state <;> decide)).orFlag (lo := 12) s.svc.testerActive).orFlag (lo := 13) s.svc.level).or
    (lo := 14) (v := s.svc.test.toNat) (k := 2) (by cases s.svc.test <;> decide)).orFlag (lo := 16) s.fm.full).orFlag (lo := 17) s.fm.clearing).or (lo := 18) hw).or (lo := 22) hc
  have := this.value
  simp only [WakeSet.toNat, ResetCauses.toNat] at this
  unfold State.statusWord
  rw [show flag 0 s.path.windowOpen ||| field 1 s.mode.mode.toNat ||| flag 3 s.inForce ||| field 4 s.sig.motion.toNat = _ from rfl]
  simp only [WakeSet.toNat, ResetCauses.toNat]
  omega

/-- The image words of the line cells. -/
theorem imageWord_lines (s : State) (off : Nat) (h : 0x0700 ≤ off) (h2 : off < 0x0760) : s.imageWord off =
    ((s.rx.lines.get? ((off - 0x0700) / 32)).map (fun l => lineWord l ((off - 0x0700) % 32 / 4))).getD 0 := by
  unfold State.imageWord
  have e1 : offResult = 0x0694 := rfl
  have e2 : offStatus = 0x06A4 := rfl
  have e3 : offCountA = 0x06A8 := rfl
  have e4 : offCountB = 0x06AC := rfl
  repeat (first | rw [if_neg (by clear * - h h2 e1 e2 e3 e4; omega)] | rw [if_pos (by clear * - h h2 e1 e2 e3 e4; omega)])

/-- The image words of the arrival counts. -/
theorem imageWord_arrivals (s : State) (off : Nat) (h : 0x0780 ≤ off) (h2 : off < 0x0800) : s.imageWord off =
    s.rx.arrivalWord ((off - 0x0780) / 4) := by
  unfold State.imageWord
  have e1 : offResult = 0x0694 := rfl
  have e2 : offStatus = 0x06A4 := rfl
  have e3 : offCountA = 0x06A8 := rfl
  have e4 : offCountB = 0x06AC := rfl
  repeat (first | rw [if_neg (by clear * - h h2 e1 e2 e3 e4; omega)] | rw [if_pos (by clear * - h h2 e1 e2 e3 e4; omega)])

/-- The image words of the fault records. -/
theorem imageWord_records (s : State) (off : Nat) (h : 0x0800 ≤ off) (h2 : off < 0x1000) : s.imageWord off =
    ((s.fm.records.get? ((off - 0x0800) / 64)).map (fun r => recordWord r ((off - 0x0800) % 64 / 4))).getD 0 := by
  unfold State.imageWord
  have e1 : offResult = 0x0694 := rfl
  have e2 : offStatus = 0x06A4 := rfl
  have e3 : offCountA = 0x06A8 := rfl
  have e4 : offCountB = 0x06AC := rfl
  repeat (first | rw [if_neg (by clear * - h h2 e1 e2 e3 e4; omega)] | rw [if_pos (by clear * - h h2 e1 e2 e3 e4; omega)])

end Sys2Proof.Machine
end

