-- ==== Sys2Proof/Laws/Service.lean ====
section
/-! SUPPORT. What the service line's events and requests may change (09). -/

namespace Sys2Proof.Machine

/-- A service unit with other reception and transmission state only. -/
theorem setService_evolves (s : State) (x : ServiceUnit)
    (h : x.testerActive = s.svc.testerActive ∧ x.testerTimer = s.svc.testerTimer ∧ x.switchOn = s.svc.switchOn ∧
      x.standing = s.svc.standing ∧ x.brakeOn = s.svc.brakeOn ∧ x.level = s.svc.level ∧ x.test = s.svc.test ∧
      x.testDuration = s.svc.testDuration ∧ x.testTimer = s.svc.testTimer ∧ x.lastOutcome = s.svc.lastOutcome ∧
      x.wakeChar = s.svc.wakeChar) :
    Evolves [.service] s (s.setSvc x) := by
  obtain ⟨h1, h2, h3, h4, h5, h6, h7, h8, h9, h10, h11⟩ := h
  refine setSvc_evolves (fun p hp => ?_)
  cases p <;> (first
    | exact absurd (by decide) hp | rfl | exact ⟨h1, h2⟩ | exact ⟨h3, h4, h5, h6⟩ | exact ⟨h7, h8, h9, h10⟩
    | exact ⟨rfl, rfl⟩ | exact h11 | exact ⟨rfl, rfl, rfl⟩ | exact ⟨rfl, rfl, rfl, rfl⟩ | exact (fun _ => rfl))

theorem svcIdle_evolves (s : State) : Evolves [.service] s (s.setSvc s.svc.idle) :=
  setService_evolves _ _ ⟨rfl, rfl, rfl, rfl, rfl, rfl, rfl, rfl, rfl, rfl, rfl⟩

theorem svcSkip_evolves (s : State) : Evolves [.service] s (s.setSvc s.svc.skip) :=
  setService_evolves _ _ ⟨rfl, rfl, rfl, rfl, rfl, rfl, rfl, rfl, rfl, rfl, rfl⟩

theorem reply_evolves (s : State) (t : Byte) (b : List Byte) : Evolves [.service] s (s.reply t b) :=
  setService_evolves _ _ ⟨rfl, rfl, rfl, rfl, rfl, rfl, rfl, rfl, rfl, rfl, rfl⟩

theorem setTester_evolves (s : State) (a : Bool) (t : Option Nat) :
    Evolves [.tester] s (s.setSvc { s.svc with testerActive := a, testerTimer := t }) := setSvc_evolves (fun p hp => by
    cases p <;> (first
      | exact absurd (by decide) hp | rfl | exact ⟨rfl, rfl⟩ | exact ⟨rfl, rfl, rfl⟩ | exact ⟨rfl, rfl, rfl, rfl⟩
      | exact (fun _ => rfl) | exact ⟨rfl, rfl, rfl, rfl, rfl, rfl, rfl, rfl, rfl, rfl⟩))

theorem testerSeen_evolves (s : State) : Evolves (.tester :: Part.images) s s.testerSeen := by
  unfold State.testerSeen
  dsimp only
  refine Evolves.ite ((setTester_evolves _ _ _).mono (by decide)) ?_
  refine Evolves.trans ?_ ((setCause_evolves _ _).mono (by decide))
  exact ((setTester_evolves _ _ _).mono (by decide)).trans ((offerStatus_evolves _ _).mono (by decide))

theorem testerExpiry_evolves (s : State) : Evolves (.tester :: Part.images) s s.testerExpiry := by
  unfold State.testerExpiry
  refine Evolves.trans ?_ ((setCause_evolves _ _).mono (by decide))
  exact ((setTester_evolves _ _ _).mono (by decide)).trans ((offerStatus_evolves _ _).mono (by decide))

theorem sweepCompletion_evolves (s : State) : Evolves Part.testEnd s s.sweepCompletion :=
  Evolves.ite (endTest_evolves _ _) .refl

theorem setTest_evolves (s : State) (k : TestKind) (d : Nat) (t : Option Nat) :
    Evolves [.test] s (s.setSvc { s.svc with test := k, testDuration := d, testTimer := t }) := setSvc_evolves (fun p hp => by
    cases p <;> (first
      | exact absurd (by decide) hp | rfl | exact ⟨rfl, rfl⟩ | exact ⟨rfl, rfl, rfl⟩ | exact ⟨rfl, rfl, rfl, rfl⟩
      | exact (fun _ => rfl) | exact ⟨rfl, rfl, rfl, rfl, rfl, rfl, rfl, rfl, rfl, rfl⟩))

theorem startTest_evolves (s : State) (k : TestKind) (d : Nat) : Evolves Part.testEnd s (s.startTest k d) := by
  unfold State.startTest
  dsimp only
  have h1 : ∀ t, Evolves Part.testEnd s
      (State.offerStatus s (s.setSvc { s.svc with test := k, testDuration := d, testTimer := t })) := fun t =>
    ((setTest_evolves _ _ _ _).mono (by decide)).trans ((offerStatus_evolves _ _).mono (by decide))
  cases k with
  | none => exact h1 _
  | lamp => exact (h1 _).trans ((evalAllLamps_evolves _).mono (by decide))
  | gaugeSweep =>
    exact ((h1 _).trans ((Evolves.forEach enterSweep_evolves _ _).mono (by decide))).trans (sweepCompletion_evolves _)
  | chime => exact (h1 _).trans ((setChime_evolves _ _).mono (by decide))

theorem perform_evolves (s : State) (r : Request) (ps : List Byte) : Evolves Part.requested s (s.perform r ps).1 := by
  unfold State.perform
  split
  · exact .refl
  · exact .refl
  · split <;> exact .refl
  · unfold State.clearRequest
    split
    · exact .refl
    · split
      · exact .refl
      · split
        · exact .refl
        · exact ((takeClear_evolves _ _).mono (by decide)).trans ((takeWork_evolves _).mono (by decide))
  · exact .refl
  · exact .refl
  · split <;> exact .refl
  · unfold State.outputTest
    split
    · exact .refl
    · split
      · exact .refl
      · split
        · exact .refl
        · exact (startTest_evolves _ _ _).mono (by decide)
  · unfold State.stopTest
    split
    · exact .refl
    · exact (endTest_evolves _ _).mono (by decide)
  · exact .refl

theorem judgeRequest_evolves (s : State) (c : Byte) (ps : List Byte) : Evolves Part.requested s (s.judgeRequest c ps).1 := by
  unfold State.judgeRequest
  split
  · exact .refl
  · split
    · exact .refl
    · split
      · exact .refl
      · exact perform_evolves ..

theorem takeRequestFrame_evolves (s : State) (f : Bool) (t c : Byte) (ps : List Byte) :
    Evolves Part.serviced s (s.takeRequestFrame f t c ps) := by
  unfold State.takeRequestFrame
  refine Evolves.ite ?_ ?_
  · split
    · exact ((testerSeen_evolves _).mono (by decide)).trans ((reply_evolves _ _ _).mono (by decide))
    · exact (testerSeen_evolves _).mono (by decide)
  · dsimp only
    refine Evolves.trans ?_ ((reply_evolves _ _ _).mono (by decide))
    exact ((judgeRequest_evolves _ _ _).mono (by decide)).trans ((testerSeen_evolves _).mono (by decide))

theorem frameComplete_evolves (s : State) (f : List Byte) : Evolves Part.serviced s (s.frameComplete f) := by
  unfold State.frameComplete
  dsimp only
  have h1 : Evolves Part.serviced s (s.setSvc s.svc.idle) := (svcIdle_evolves s).mono (by decide)
  refine Evolves.ite (Evolves.ite ?_ (Evolves.ite ?_ h1)) h1
  · exact h1.trans (takeRequestFrame_evolves ..)
  · exact h1.trans (takeRequestFrame_evolves ..)

theorem setReceiving_evolves (s : State) (l : ServiceState) (r : List Byte) (g : Option Nat) :
    Evolves [.service] s (s.setSvc { s.svc with line := l, received := r, gap := g }) :=
  setService_evolves _ _ ⟨rfl, rfl, rfl, rfl, rfl, rfl, rfl, rfl, rfl, rfl, rfl⟩

theorem firstCharacter_evolves (s : State) (c : ServiceChar) : Evolves [.service] s (s.firstCharacter c) :=
  Evolves.ite (setReceiving_evolves ..) (svcSkip_evolves s)

theorem laterCharacter_evolves (s : State) (c : ServiceChar) : Evolves Part.serviced s (s.laterCharacter c) := by
  have hs : Evolves Part.serviced s (s.setSvc s.svc.skip) := (svcSkip_evolves s).mono (by decide)
  unfold State.laterCharacter
  dsimp only
  refine Evolves.ite hs (Evolves.ite hs (Evolves.ite (frameComplete_evolves ..) ?_))
  exact (setReceiving_evolves s s.svc.line _ _).mono (by decide)

/-- The mark of the waking character alone, with the reception it ends. -/
theorem endWakeChar_evolves (s : State) : Evolves [.service, .wakeChar] s (s.setSvc s.svc.endWakeChar) := setSvc_evolves (fun p hp => by
    cases p <;> (first
      | exact absurd (by decide) hp | rfl | exact ⟨rfl, rfl⟩ | exact ⟨rfl, rfl, rfl⟩ | exact ⟨rfl, rfl, rfl, rfl⟩
      | exact (fun _ => rfl)))

theorem setWakeChar_evolves (s : State) (b : Bool) : Evolves [.wakeChar] s (s.setSvc { s.svc with wakeChar := b }) :=
  setSvc_evolves (fun p hp => by
    cases p <;> (first
      | exact absurd (by decide) hp | rfl | exact ⟨rfl, rfl⟩ | exact ⟨rfl, rfl, rfl⟩ | exact ⟨rfl, rfl, rfl, rfl⟩
      | exact (fun _ => rfl) | exact ⟨rfl, rfl, rfl, rfl, rfl, rfl, rfl, rfl, rfl, rfl⟩))

theorem serviceCharacter_evolves (s : State) (c : ServiceChar) :
    Evolves Part.serviced s (s.serviceCharacter c) := by
  unfold State.serviceCharacter
  refine Evolves.ite ?_ .refl
  split
  · exact Evolves.ite ((endWakeChar_evolves _).mono (by decide)) ((firstCharacter_evolves _ _).mono (by decide))
  · exact Evolves.ite ((firstCharacter_evolves _ _).mono (by decide)) ((laterCharacter_evolves ..).mono (by decide))
  · exact (setReceiving_evolves s s.svc.line s.svc.received (some 0)).mono (by decide)
  · exact .refl

theorem abandon_evolves (s : State) : Evolves [.service] s (s.setSvc
    { s.svc with
      line := .receiving
      received := []
      gap := none
      response := []
      turnaround := none }) :=
  setService_evolves _ _ ⟨rfl, rfl, rfl, rfl, rfl, rfl, rfl, rfl, rfl, rfl, rfl⟩

theorem serviceWake_evolves (s : State) : Evolves (.wakeChar :: Part.resumed) s s.serviceWake :=
  ((wake_evolves _ _).mono (by decide)).trans ((setWakeChar_evolves _ _).mono (by decide))

/-- While the device is awake a start edge touches the service line only. -/
theorem serviceEdge_awake (s : State) (h : s.mode.mode ≠ .parked) : Evolves [.service, .wakeChar] s s.serviceEdge := by
  unfold State.serviceEdge
  rw [if_neg h]
  split
  · exact Evolves.ite ((abandon_evolves _).mono (by decide)) .refl
  · exact (setReceiving_evolves s s.svc.line s.svc.received none).mono (by decide)
  · exact (setWakeChar_evolves _ _).mono (by decide)
  · exact .refl

theorem serviceEdge_evolves (s : State) : Evolves Part.serviceEdge s s.serviceEdge := by
  by_cases h : s.mode.mode = .parked
  · unfold State.serviceEdge
    rw [if_pos h]
    exact (serviceWake_evolves _).mono (by decide)
  · exact (serviceEdge_awake s h).mono (by decide)

theorem requestFrame_evolves (s : State) (r : Request) (tg : Target) (t : Byte) (ps : List Byte) :
    Evolves (Part.serviceEdge ++ Part.serviced) s (s.requestFrame r tg t ps) := by
  unfold State.requestFrame
  split
  · next h =>
    have hm : s.mode.mode ≠ .parked := by
      intro e
      simp [State.serviceListens, e] at h
    have h1 : Evolves Part.serviced s s.serviceEdge := (serviceEdge_awake s hm).mono (by decide)
    refine Evolves.mono (l := Part.serviced) ?_ (by decide)
    dsimp only
    refine h1.trans ?_
    generalize s.serviceEdge = u
    have hg : Evolves Part.serviced u (u.setSvc { u.svc with gap := some 0 }) :=
      (setReceiving_evolves u u.svc.line u.svc.received (some 0)).mono (by decide)
    have hf : ∀ f, Evolves Part.serviced u (if ps.length ≤ 15 then u.frameComplete f else u.setSvc u.svc.skip) := fun f =>
      Evolves.ite (frameComplete_evolves _ _) ((svcSkip_evolves _).mono (by decide))
    split
    · exact hg
    · exact .refl
    · exact .refl
    · exact (svcIdle_evolves _).mono (by decide)
    · exact hf _
    · exact hf _
  · dsimp only
    refine Evolves.ite ?_ .refl
    refine Evolves.trans ?_ ((takeWork_evolves _).mono (by decide))
    exact ((serviceWake_evolves _).mono (by decide)).trans ((endWakeChar_evolves _).mono (by decide))

theorem beginTransmission_evolves (s : State) : Evolves [.service] s s.beginTransmission :=
  setService_evolves _ _ ⟨rfl, rfl, rfl, rfl, rfl, rfl, rfl, rfl, rfl, rfl, rfl⟩

theorem readBack_evolves (s : State) (c : ServiceChar) : Evolves [.service] s (s.readBack c) := by
  unfold State.readBack
  split
  · refine Evolves.ite (Evolves.ite ?_ ?_) ?_
    · exact setService_evolves _ _ ⟨rfl, rfl, rfl, rfl, rfl, rfl, rfl, rfl, rfl, rfl, rfl⟩
    · exact setService_evolves _ _ ⟨rfl, rfl, rfl, rfl, rfl, rfl, rfl, rfl, rfl, rfl, rfl⟩
    · exact setService_evolves _ _ ⟨rfl, rfl, rfl, rfl, rfl, rfl, rfl, rfl, rfl, rfl, rfl⟩
  · exact .refl
  · exact .refl

/-- The tester-active flag is set and its timer runs from its start; a flag that was clear sets the cause TESTER (R170). -/
theorem testerSeen_seen (s : State) : s.testerSeen.svc.testerActive = true ∧ s.testerSeen.svc.testerTimer = some 0 ∧
    (s.svc.testerActive = false → s.testerSeen.causePending .tester) := by
  unfold State.testerSeen
  dsimp only
  split
  · rename_i h
    exact ⟨rfl, rfl, fun g => by rw [g] at h; cases h⟩
  · have e : ∀ t : State, (t.setCause .tester).svc = t.svc := fun _ => rfl
    have e2 : ∀ x : ServiceUnit, (s.offerStatus (s.setSvc x)).svc = x := fun x => by
      unfold State.offerStatus; split <;> rfl
    rw [e, e2]
    refine ⟨rfl, rfl, fun _ => ?_⟩
    simp [State.causePending, State.setCause, MemoryPath.setCause, Cause.mask, Cause.bit]

end Sys2Proof.Machine
end

