-- ==== Sys2Proof/Laws/Time.lean ====
section
/-! SUPPORT. When the time of an expiry has come, and what the passing of a millisecond and a full reset keep: the invariant, and the
parts that time does not touch. -/

namespace Sys2Proof.Machine

/-! ## Timers that have come to their limit -/

@[simp] theorem reached_none (k : Nat) : reached none k = false := rfl
@[simp] theorem reached_some (e k : Nat) : reached (some e) k = decide (k ≤ e) := rfl
@[simp] theorem passed_none (k : Nat) : passed none k = false := rfl
@[simp] theorem passed_some (e k : Nat) : passed (some e) k = decide (k < e) := rfl
@[simp] theorem ranFor_none {α : Type} [DecidableEq α] (p : α) (k : Nat) : ranFor none p k = false := rfl
@[simp] theorem ranPast_none {α : Type} [DecidableEq α] (p : α) (k : Nat) : ranPast none p k = false := rfl
@[simp] theorem ranFor_some {α : Type} [DecidableEq α] (q p : α) (e k : Nat) :
    ranFor (some (q, e)) p k = (decide (q = p) && decide (k ≤ e)) := rfl
@[simp] theorem ranPast_some {α : Type} [DecidableEq α] (q p : α) (e k : Nat) :
    ranPast (some (q, e)) p k = (decide (q = p) && decide (k < e)) := rfl

/-- A timer has reached a limit exactly when it runs and stands at or past it. -/
theorem reached_iff {t : Option Nat} {k : Nat} : reached t k = true ↔ ∃ e, t = some e ∧ k ≤ e := by cases t <;> simp

/-- A timer has passed a limit exactly when it runs and stands past it. -/
theorem passed_iff {t : Option Nat} {k : Nat} : passed t k = true ↔ ∃ e, t = some e ∧ k < e := by cases t <;> simp

/-- A timer has run for a purpose exactly when it runs for it and stands at or past the limit. -/
theorem ranFor_iff {α : Type} [DecidableEq α] {t : Option (α × Nat)} {p : α} {k : Nat} :
    ranFor t p k = true ↔ ∃ e, t = some (p, e) ∧ k ≤ e := by
  cases t with
  | none => simp
  | some x =>
    obtain ⟨q, e⟩ := x
    simp only [ranFor_some, Bool.and_eq_true, decide_eq_true_eq, Option.some.injEq, Prod.mk.injEq]
    exact ⟨fun h => ⟨e, ⟨h.1, rfl⟩, h.2⟩, fun ⟨_, h, g⟩ => ⟨h.1, h.2 ▸ g⟩⟩

/-- A timer has run past a limit for a purpose exactly when it runs for it and stands past the limit. -/
theorem ranPast_iff {α : Type} [DecidableEq α] {t : Option (α × Nat)} {p : α} {k : Nat} :
    ranPast t p k = true ↔ ∃ e, t = some (p, e) ∧ k < e := by
  cases t with
  | none => simp
  | some x =>
    obtain ⟨q, e⟩ := x
    simp only [ranPast_some, Bool.and_eq_true, decide_eq_true_eq, Option.some.injEq, Prod.mk.injEq]
    exact ⟨fun h => ⟨e, ⟨h.1, rfl⟩, h.2⟩, fun ⟨_, h, g⟩ => ⟨h.1, h.2 ▸ g⟩⟩

/-! ## What falls due -/

@[simp] theorem due_stalenessExpiry (s : State) (n : Fin 256) : s.due (.stalenessExpiry n) = s.expiryTaken n := rfl
@[simp] theorem due_debounceSettle (s : State) (i : Fin 24) : s.due (.debounceSettle i) =
    (s.inForce && reached (s.inp.inputs.get i).stable (s.profile.inputs.get i).debounce) := rfl
@[simp] theorem due_speedOverflow (s : State) : s.due .speedOverflow =
    (s.takesUpdates && s.inp.overflowsWithin) := rfl
@[simp] theorem due_holdExpiry (s : State) : s.due .holdExpiry = reached s.sig.hold s.profile.stopHold := rfl
@[simp] theorem due_gapExpiry (s : State) (l : Line) : s.due (.gapExpiry l) =
    (s.linesRun && (s.rx.lines.get l.toFin).receive.inFrame &&
      passed (s.rx.lines.get l.toFin).gap (s.profile.lines.get l.toFin).gap) := rfl
@[simp] theorem due_silenceExpiry (s : State) (l : Line) : s.due (.silenceExpiry l) =
    (s.linesRun && reached (s.rx.lines.get l.toFin).silence (silenceEnd (s.profile.lines.get l.toFin))) := rfl
@[simp] theorem due_openTimeoutExpiry (s : State) (d : Fin 6) : s.due (.openTimeoutExpiry d) =
    ranPast (s.door.doors.get d).timer .openMotion (s.profile.doors.get d).openTimeout := rfl
@[simp] theorem due_closeTimeoutExpiry (s : State) (d : Fin 6) : s.due (.closeTimeoutExpiry d) =
    ranPast (s.door.doors.get d).timer .closeMotion (s.profile.doors.get d).closeTimeout := rfl
@[simp] theorem due_disagreementExpiry (s : State) (d : Fin 6) : s.due (.disagreementExpiry d) =
    ranPast (s.door.doors.get d).timer .disagree (s.profile.doors.get d).tolerance := rfl
@[simp] theorem due_onDelayExpiry (s : State) (w : Fin 96) : s.due (.onDelayExpiry w) =
    (s.warningsRun && ranFor (s.warn.rows.get w).timer .onDelay (s.profile.warnings.get w).onDelay) := rfl
@[simp] theorem due_offDelayExpiry (s : State) (w : Fin 96) : s.due (.offDelayExpiry w) =
    (s.warningsRun && ranFor (s.warn.rows.get w).timer .offDelay (s.profile.warnings.get w).offDelay) := rfl
@[simp] theorem due_blinkPhaseEnd (s : State) : s.due .blinkPhaseEnd = s.ind.blink.over := rfl
@[simp] theorem due_openLoadExpiry (s : State) (t : Fin 48) : s.due (.openLoadExpiry t) =
    reached (s.ind.lamps.get t).faultTimer Config.openLoadMs := rfl
@[simp] theorem due_clearExpiry (s : State) (t : Fin 48) : s.due (.clearExpiry t) =
    reached (s.ind.lamps.get t).clearTimer Config.openLoadMs := rfl
@[simp] theorem due_lampCheckExpiry (s : State) : s.due .lampCheckExpiry = reached s.ind.lampCheck s.profile.lampCheck := rfl
@[simp] theorem due_homingCompletion (s : State) (g : Fin 12) : s.due (.homingCompletion g) =
    ((s.ind.gauges.get g).state = .homing && reached (s.ind.gauges.get g).homing (homingTime (s.profile.gauges.get g))) := rfl
@[simp] theorem due_arrival (s : State) (g : Fin 12) : s.due (.arrival g) = (s.ind.gauges.get g).arrived := rfl
@[simp] theorem due_toneEnd (s : State) : s.due .toneEnd = s.ind.chime.phase.toneOver := rfl
@[simp] theorem due_repeatPeriodExpiry (s : State) : s.due .repeatPeriodExpiry = s.ind.chime.phase.periodOver := rfl
@[simp] theorem due_chimeTestPhaseEnd (s : State) : s.due .chimeTestPhaseEnd = s.ind.chime.test.any ChimeTest.over := rfl
@[simp] theorem due_graceExpiry (s : State) : s.due .graceExpiry =
    (s.sup.state = .starting && ranFor s.sup.timer .grace Config.graceMs) := rfl
@[simp] theorem due_timeoutExpiry (s : State) : s.due .timeoutExpiry =
    (s.sup.state = .normal && s.path.awaited.isNone && ranFor s.sup.timer .timeout s.profile.supTimeout) := rfl
@[simp] theorem due_timeoutExpiryInLost (s : State) : s.due .timeoutExpiryInLost =
    (s.sup.state = .lost && s.path.awaited.isNone && ranFor s.sup.timer .timeout s.profile.supTimeout) := rfl
@[simp] theorem due_pulseEnd (s : State) : s.due .pulseEnd = reached s.sup.pulse Config.pulseMs := rfl
@[simp] theorem due_confirmExpiry (s : State) (i : Fin 32) : s.due (.confirmExpiry i) =
    (s.mode.mode ≠ .parked && (s.fm.records.get i).any (fun r => r.state = .pending &&
      reached r.timer s.profile.confirm)) := rfl
@[simp] theorem due_quietExpiry (s : State) : s.due .quietExpiry =
    (s.svc.line = .skip && passed s.svc.gap Config.serviceGapMs) := rfl
@[simp] theorem due_serviceGapExpiry (s : State) : s.due .serviceGapExpiry =
    (s.svc.line = .receiving && passed s.svc.gap Config.serviceGapMs) := rfl
@[simp] theorem due_replyTurnaround (s : State) : s.due .replyTurnaround = reached s.svc.turnaround Config.turnaroundMs := rfl
@[simp] theorem due_testerActiveExpiry (s : State) : s.due .testerActiveExpiry = reached s.svc.testerTimer Config.graceMs := rfl
@[simp] theorem due_lampTestTimerExpiry (s : State) : s.due .lampTestTimerExpiry =
    (s.svc.test = .lamp && reached s.svc.testTimer (1000 * s.svc.testDuration)) := rfl
@[simp] theorem due_ignitionOffExpiry (s : State) : s.due .ignitionOffExpiry =
    (s.mode.mode = .run && reached s.mode.offTimer s.profile.ignitionOff) := rfl

/-- Only an expiry of the table can be due. -/
theorem mem_expiries_of_due {s : State} {c : Instr} (h : s.due c = true) : c ∈ expiries := by
  unfold expiries boundaryExpiries
  simp only [List.mem_flatten, List.mem_cons, exists_eq_or_imp, List.mem_map, List.mem_flatMap, List.mem_finRange, true_and]
  cases c
  all_goals first
    | exact (Bool.false_ne_true h).elim
    | (simp; done)
    | (rename_i l; cases l <;> simp)

/-- The overflow of the speed timer is no expiry of a millisecond's end. -/
theorem speedOverflow_not_mem : Instr.speedOverflow ∉ boundaryExpiries := by
  unfold boundaryExpiries
  simp

/-- The commands of a millisecond's end are the expiries that are due, but the overflow. -/
theorem mem_dueCommands {s : State} {c : Instr} : c ∈ s.dueCommands ↔ s.due c = true ∧ c ≠ .speedOverflow := by
  unfold State.dueCommands
  rw [List.mem_filter]
  constructor
  · exact fun h => ⟨h.2, fun e => speedOverflow_not_mem (e ▸ h.1)⟩
  · exact fun h => ⟨(List.mem_cons.1 (mem_expiries_of_due h.1)).resolve_left h.2, h.1⟩

/-- Nothing is due at a millisecond's end exactly when no expiry but the overflow is. -/
theorem dueCommands_eq_nil {s : State} : s.dueCommands = [] ↔ ∀ c, c ≠ .speedOverflow → s.due c = false := by
  rw [List.eq_nil_iff_forall_not_mem]
  exact forall_congr' fun c => by rw [mem_dueCommands, not_and', Bool.not_eq_true]

/-- A tick with nothing due: one millisecond passes, and what then is due is queued. -/
theorem tick_quiet {s : State} (hr : s.mode.inReset = false) (h : ∀ c, s.due c = false) :
    s.tick = s.advance.setPending s.advance.dueCommands := by
  simp [State.tick, hr, dueCommands_eq_nil.2 fun c _ => h c, h .speedOverflow]

/-- A tick with an expiry of the millisecond's end due: what is due there is queued, and no time passes. -/
theorem tick_due {s : State} {c : Instr} (hr : s.mode.inReset = false) (h : s.due c = true) (hc : c ≠ .speedOverflow) :
    s.tick = s.setPending s.dueCommands := by
  have hn : s.dueCommands ≠ [] := fun e => by simp [dueCommands_eq_nil.1 e c hc] at h
  simp [State.tick, hr, hn]

/-- A tick with the overflow alone due: it is queued, and no time passes. -/
theorem tick_overflow {s : State} (hr : s.mode.inReset = false) (h : s.due .speedOverflow = true)
    (hn : ∀ c, c ≠ .speedOverflow → s.due c = false) : s.tick = s.setPending [.speedOverflow] := by
  simp [State.tick, hr, dueCommands_eq_nil.2 hn, h]

/-! ## One millisecond -/

/-- A delay timer that counts on keeps its purpose, so the warning's invariant stands. -/
theorem Warning.Inv.tick {w : Warning} (h : w.Inv) : ({ w with timer := w.timer.map (fun t => (t.1, t.2 + 1)) } : Warning).Inv := by
  unfold Warning.Inv Warning.delaying at *
  cases hs : w.state <;> cases ht : w.timer <;> simp_all

/-- The door timers alone advance. -/
theorem DoorUnit.Inv.tick {u : DoorUnit} (h : u.Inv) : u.tick.Inv := by
  unfold DoorUnit.Inv DoorUnit.tick Table.indices at *
  simpa using h

/-- The warnings' timers advance in RUN. -/
theorem tickWarnings_inv {s : State} (h : ∀ w, (s.warn.rows.get w).Inv) (w : Fin 96) : (s.tickWarnings.rows.get w).Inv := by
  unfold State.tickWarnings
  split
  · simp only [Table.get_map]
    exact (h w).tick
  · exact h w

/-- Time leaves the fault memory's sets as they are. -/
theorem tickFaults_inv {s : State} (h : s.fm.Inv) : s.tickFaults.Inv := by
  unfold State.tickFaults
  split <;> exact h

@[simp] theorem advance_path (s : State) : s.advance.path = s.path := rfl
@[simp] theorem advance_warn (s : State) : s.advance.warn = s.tickWarnings := rfl
@[simp] theorem advance_door (s : State) : s.advance.door = s.door.tick := rfl
@[simp] theorem advance_fm (s : State) : s.advance.fm = s.tickFaults := rfl
@[simp] theorem advance_sram (s : State) : s.advance.sram = s.sram := rfl
@[simp] theorem advance_cfg (s : State) : s.advance.cfg = s.cfg := rfl
@[simp] theorem advance_profile (s : State) : s.advance.profile = s.profile := rfl
@[simp] theorem advance_profStatus (s : State) : s.advance.profStatus = s.profStatus := rfl
@[simp] theorem advance_ctrl (s : State) : s.advance.ctrl = s.ctrl := rfl
@[simp] theorem advance_loadBuffer (s : State) : s.advance.loadBuffer = s.loadBuffer := rfl

/-- A millisecond keeps the invariant. -/
theorem advance_keepsInv {s : State} (h : s.Inv) : s.advance.Inv where
  path := by rw [advance_path]; exact h.path
  warnings := by rw [advance_warn]; exact tickWarnings_inv h.warnings
  doors := by rw [advance_door]; exact h.doors.tick
  faults := by rw [advance_fm]; exact tickFaults_inv h.faults
  sram := by rw [advance_sram]; exact h.sram
  cfg := by rw [advance_cfg]; exact h.cfg

/-- The commands that fall due go into the queue alone. -/
theorem setPending_keepsInv {s : State} (h : s.Inv) (l : List Instr) : (s.setPending l).Inv :=
  ⟨h.path, h.warnings, h.doors, h.faults, h.sram, h.cfg⟩

/-- A step on an empty queue keeps the invariant. -/
theorem tick_keepsInv {s : State} (h : s.Inv) : s.tick.Inv := by
  unfold State.tick
  split
  · exact h
  split
  · exact setPending_keepsInv h _
  split
  · exact setPending_keepsInv h _
  · exact setPending_keepsInv (advance_keepsInv h) _

/-- A millisecond touches neither the memory path, the memories, the profile nor the controller. -/
theorem tick_keeps (s : State) :
    s.tick.path = s.path ∧ s.tick.sram = s.sram ∧ s.tick.cfg = s.cfg ∧ s.tick.profile = s.profile ∧
      s.tick.profStatus = s.profStatus ∧ s.tick.ctrl = s.ctrl ∧ s.tick.loadBuffer = s.loadBuffer := by
  unfold State.tick
  split
  · exact ⟨rfl, rfl, rfl, rfl, rfl, rfl, rfl⟩
  split
  · exact ⟨rfl, rfl, rfl, rfl, rfl, rfl, rfl⟩
  split
  · exact ⟨rfl, rfl, rfl, rfl, rfl, rfl, rfl⟩
  · exact ⟨advance_path s, advance_sram s, advance_cfg s, advance_profile s, advance_profStatus s, advance_ctrl s,
      advance_loadBuffer s⟩

/-- A full reset establishes the invariant over canonical memories. -/
theorem fullReset_inv (s : State) (straps : BitVec 2) (causes : ResetCauses) (held : List FaultCode) {sram : List Host.Cell}
    (hs : Memory.wf Config.sramErased sram = true) (hc : Memory.wf Config.cfgErased s.cfg = true) :
    (s.fullReset straps causes held sram).Inv := by
  have hw : ∀ w, (({} : WarningUnit).rows.get w).Inv := fun w => by simp [Warning.Inv]
  have hd : ({} : DoorUnit).Inv := by unfold DoorUnit.Inv; decide
  have hp : (({ straps := straps } : MemoryPath)).Inv := ⟨Nat.zero_le _, List.nodup_nil⟩
  exact ⟨hp, hw, hd, ⟨Nat.zero_le _, List.nodup_nil, List.nodup_nil⟩, hs, hc⟩

end Sys2Proof.Machine
end

