-- ==== Sys2Proof/Tests/Slice0.lean ====
section
/-! SUPPORT. The model's own tests: ill-formed commands refused, one step or two for each command on small states, and for every
statement with hypotheses a state and operands that meet them (`witness_…`). -/

set_option Elab.async false

namespace Sys2Proof.Tests

open Sys2Proof Sys2Proof.Machine

/-! ## Ill-formed commands are refused -/

theorem test_wf_character_without_start_bit :
    (Instr.characterComplete .front { CharSamples.ofByte 0 true with start := .all true }).wf = false ∧
      (Instr.characterComplete .front (CharSamples.ofByte 0 true)).wf = true := by decide
theorem test_wf_slot_page_of_wrong_size :
    (Instr.faultSlotWriteComplete (.differs [1])).wf = false ∧ (Instr.faultSlotWriteComplete .stored).wf = true := by decide
theorem test_wf_counters_page_of_wrong_size :
    (Instr.countersWriteComplete (.differs (List.replicate 65 0))).wf = false ∧
      (Instr.countersWriteComplete (.differs (List.replicate 64 0))).wf = true := by decide
theorem test_wf_profile_page_of_wrong_size : (Instr.profilePageWriteComplete (.differs [])).wf = false := by decide
theorem test_wf_tester_address :
    (Instr.identify .physical 0x7F []).wf = false ∧ (Instr.identify .physical 0x80 []).wf = true ∧
      (Instr.stopTest .physical 0xFF []).wf = false ∧ (Instr.workshopStatus .functional 0 []).wf = false ∧
      (Instr.clearFaultsRequest .physical 0x7F []).wf = false ∧ (Instr.readDoors .physical 0xFF []).wf = false := by decide
theorem test_wf_request_length :
    (Instr.readFaults .physical 0x90 (List.replicate 16 0)).wf = false ∧
      (Instr.readFreeze .physical 0x90 (List.replicate 16 0)).wf = false ∧
      (Instr.readSignals .physical 0x90 (List.replicate 16 0)).wf = false ∧
      (Instr.readLines .physical 0x90 (List.replicate 16 0)).wf = false ∧
      (Instr.outputTest .physical 0x90 (List.replicate 16 0)).wf = false ∧
      (Instr.outputTest .physical 0x90 (List.replicate 15 0)).wf = true := by decide
theorem test_no_row_gives_bits (n w : Nat) : decodeTableWord n w = none := rfl

/-! ## Small states -/

/-- A profile that uses a little of everything. -/
def prof : Profile :=
  { address := some 5
    hrst := true
    k := 1000
    lines := (Table.const 3 {}).set 0 { silence := 4, gap := 2, wake := true }
    signals := ((((Table.const 256 {}).set 0 { source := .discrete 0, high := 1 }).set 1
      { source := .host, freshness := 10, high := 100, reportStale := true }).set 2 { source := .speed, high := 32767 }).set 3
      { source := .line 0 0 8 false, freshness := 10, high := 50, substitutes := true, substitute := 7 }
    slots := (Table.const 64 none).set 0 (some { line := .front, node := 3, kind := 1, length := 1 })
    inputs := (Table.const 24 {}).set 0 { wake := true, debounce := 5 }
    doors := (Table.const 6 {}).set 0 { present := true, controller := some 1, closed := some 0 }
    warnings := ((Table.const 96 {}).set 0 { condition := .hostSet, latching := true, pattern := .single }).set 1
      { condition := .hostSet, onDelay := 10, pattern := .repeating }
    lamps := (Table.const 48 {}).set 0 { sources := [.warning 0, .hostRequest], blinkUnack := true, sensing := true }
    gauges := ((Table.const 12 {}).set 0 { mode := .bound 3 0 100, full := 60 }).set 1 { mode := .host, full := 100 } }

/-- RUN with the profile in force and the window open. -/
def run : State :=
  { profile := prof
    profStatus := .inForce
    path := { windowOpen := true }
    fm := { loaded := true }
    svc := { address := some 5 }
    mode := { mode := .run, inReset := false } }

def parked : State := { run with mode := { run.mode with mode := .parked } }
def parking : State := { run with mode := { run.mode with mode := .parking } }
def start (o : Operation) : State := { mode := { inReset := false }, ctrl := { operation := o } }

/-- The state after a command, or the state before if there is none. -/
def after (c : Instr) (s : State) : State :=
  match exec c s with
  | .next t => t
  | .fault _ => s
  | .refused _ => s

/-! ## One step -/

theorem test_powerOnReset : (after (.powerOnReset 2) run).mode.inReset = true ∧ (after (.powerOnReset 2) run).path.straps = 2 := by
  decide +kernel
theorem test_supplyLowReset : (after (.supplyLowReset 1) run).fm.heldReports = [{ kind := .supplyLow, subject := 0 }] := by
  decide +kernel
theorem test_pinReset : (after (.pinReset 0) run).mode.causes = { pin := true } := by decide +kernel
theorem test_resetEnd : (after .resetEnd State.reset).ctrl.operation = .startProfileRead := by decide +kernel
theorem test_profileReadComplete_unanswered :
    (after (.profileReadComplete false) (start .startProfileRead)).fm.heldReports = [{ kind := .profileBad, subject := 0 }] := by
  decide +kernel
theorem test_countersBlockRead_unanswered :
    (after (.countersBlockRead false) (start .startCountersRead)).fm.heldReports =
      [{ kind := .configMemory, subject := 0 }] := by decide +kernel
theorem test_faultSlotsRead_without_profile :
    (after (.faultSlotsRead 0) (start .startSlotsRead)).profStatus = .noProfile := by decide +kernel
theorem test_stalenessExpiry_substitutes :
    ((after (.stalenessExpiry 3)
      { run with sig := { entries := (Table.const 256 {}).set 3 { value := 1, quality := .good, age := 11, due := true } } }).sig.entries.get 3) =
      { value := 7, quality := .substituted, age := 11, sequence := 1 } := by decide +kernel
theorem test_logicalLevelChange : ((after (.logicalLevelChange 0) run).inp.inputs.get 0) = { high := true, stable := some 0 } := by
  decide +kernel
theorem test_debounceSettle :
    ((after (.debounceSettle 1) { run with inp := { inputs := (Table.const 24 {}).set 1 { high := true, stable := some 5 } } }).inp.inputs.get 1) =
      { high := true, filtered := .active } := by decide +kernel
theorem test_speedRisingEdge_starts_a_count : (after (.speedRisingEdge 3) run).inp.timing = true := by decide +kernel
theorem test_speed_period_across_a_millisecond :
    ((after (.speedRisingEdge 37) run).inp.tick.count, (after (.speedRisingEdge 37) run).inp.tick.edgeAt) = (63, 0) ∧
      periodOf 63 20 = 83 := by decide +kernel
theorem test_warnings_rest_while_a_restart_runs :
    { run with path := { windowOpen := false } }.warningsRun = false ∧ run.warningsRun = true := by decide
theorem test_speedRisingEdge_in_timing :
    (after (.speedRisingEdge 3) { run with profile := {}, inp := { timing := true, running := true, count := 7 } }).inp =
      { timing := true, running := true, edgeAt := 3 } := by decide +kernel
theorem test_speedOverflow :
    (after .speedOverflow { run with profile := {}, inp := { timing := true, running := true, count := 65535 } }).inp.running = false := by
  decide +kernel
/-- The speed input alone, in RUN with nothing else in the profile. -/
def speeding (u : InputUnit) : State := { run with profile := {}, inp := u }

theorem test_speedOverflow_within_the_millisecond :
    let s := speeding { timing := true, running := true, count := 65480 }
    s.due .speedOverflow = true ∧ (after .speedOverflow s).inp = {} := by decide +kernel
theorem test_speedRisingEdge_past_the_overflow :
    let s := { speeding { timing := true, running := true, count := 65500 } with
      profile := { signals := (Table.const 256 {}).set 2 { source := .speed, high := 32767 }, k := 0xFFFFFFFF } }
    (after (.speedRisingEdge 35) s).value 2 = 0x7FFF ∧ (after (.speedRisingEdge 36) s).value 2 = 0 := by decide +kernel
theorem test_tick_queues_the_overflow_alone :
    let s := speeding { timing := true, running := true, count := 65480 }
    s.dueCommands = [] ∧ s.tick.pending = [.speedOverflow] := by decide +kernel
theorem test_holdExpiry : (after .holdExpiry { run with sig := { motion := .moving, hold := some 3 } }).sig.motion = .stopped := by
  decide +kernel
theorem test_startEdge_takes_the_receiver : (after (.startEdge .rear) run).rx.owner = .rear := by decide +kernel
theorem test_startEdge_collision :
    ((after (.startEdge .rear) { run with rx := { owner := .front } }).rx.lines.get 1).counts.collisions = 1 := by decide +kernel
theorem test_startBitSample_false_start :
    (after (.startBitSample .front (.all true)) (after (.startEdge .front) run)).rx.owner = .none := by decide +kernel
theorem test_characterComplete_header :
    ((after (.characterComplete .drive (.ofByte 0x23 true)) (after (.startEdge .drive) run)).rx.lines.get 2).node = 3 := by decide +kernel
theorem test_characterComplete_without_a_start_edge :
    after (.characterComplete .drive (.ofByte 0x23 true)) run = run := by decide +kernel
theorem test_characterComplete_noise :
    ((after (.characterComplete .drive { CharSamples.ofByte 0 false with d0 := ⟨true, false, false⟩ })
      { run with rx := { lines := (Table.const 3 {}).set 2 { receive := .data, inChar := true } } }).rx.lines.get 2).counts.noise = 1 := by
  decide +kernel
theorem test_breakEvent : ((after (.breakEvent .drive) run).rx.lines.get 2).counts.breaks = 1 := by decide +kernel
theorem test_brokenEvent : ((after (.brokenEvent .drive) run).rx.lines.get 2).state = .broken := by decide +kernel
theorem test_returnEvent :
    ((after (.returnEvent .drive)
      { run with rx := { lines := (Table.const 3 {}).set 2 { broken := true, everAccepted := true } } }).rx.lines.get 2).state = .active := by
  decide +kernel
theorem test_gapExpiry :
    ((after (.gapExpiry .drive)
      { run with rx := { lines := (Table.const 3 {}).set 2 { receive := .check, gap := some 2 } } }).rx.lines.get 2).counts.truncated = 1 := by
  decide +kernel
theorem test_silenceExpiry :
    ((after (.silenceExpiry .front) { run with rx := { lines := (Table.const 3 {}).set 0 { silence := some 100 } } }).rx.lines.get 0).state =
      .silent := by decide +kernel
theorem test_openTimeoutExpiry :
    ((after (.openTimeoutExpiry 0)
      { run with door := { doors := (Table.const 6 {}).set 0 { state := .opening, timer := some (.openMotion, 501) } } }).door.doors.get 0).cause =
      .slowOpen := by decide +kernel
theorem test_closeTimeoutExpiry_of_an_opening_door :
    after (.closeTimeoutExpiry 0)
      { run with door := { doors := (Table.const 6 {}).set 0 { state := .opening, timer := some (.openMotion, 1) } } } =
      { run with door := { doors := (Table.const 6 {}).set 0 { state := .opening, timer := some (.openMotion, 1) } } } := by
  decide +kernel
theorem test_disagreementExpiry_of_an_idle_timer : (after (.disagreementExpiry 0) run).door = run.door := by decide +kernel
theorem test_onDelayExpiry :
    ((after (.onDelayExpiry 1)
      { run with warn := { clock := 9, rows := (Table.const 96 {}).set 1 { state := .pending, present := true, timer := some (.onDelay, 10) } } }).warn.rows.get 1).time =
      9 := by decide +kernel
theorem test_offDelayExpiry_latches :
    ((after (.offDelayExpiry 0)
      { run with warn := { rows := (Table.const 96 {}).set 0 { state := .activeUnack, timer := some (.offDelay, 0) } } }).warn.rows.get 0).latched =
      true := by decide +kernel
theorem test_warningCellRead_arms :
    ((after (.warningCellRead 0) { run with warn := { rows := (Table.const 96 {}).set 0 { state := .activeUnack } } }).warn.rows.get 0).armed =
      true := by decide +kernel
theorem test_ack :
    ((after (.ack 0) { run with warn := { rows := (Table.const 96 {}).set 0 { state := .activeUnack, armed := true } } }).warn.rows.get 0).state =
      .activeAck := by decide +kernel
theorem test_ack_void : (after (.ack 0) run).warn.voidAcks = 1 := by decide +kernel
theorem test_set : ((after (.set 1) run).warn.rows.get 1).state = .pending := by decide +kernel
theorem test_reset_of_another_kind : (after (.reset 2) run).path.violations = 1 := by decide +kernel
theorem test_blinkPhaseEnd : (after .blinkPhaseEnd { run with ind := { blink := .onPhase 500 } }).ind.blink = .offPhase 0 := by
  decide +kernel
theorem test_openLoadSenseChange :
    ((after (.openLoadSenseChange 0 true) { run with ind := { lamps := (Table.const 48 {}).set 0 { commanded := .on, clearTimer := some 3 } } }).ind.lamps.get 0) =
      { commanded := .on, faultTimer := some 0, senseOpen := true } := by decide +kernel
theorem test_openLoadExpiry :
    (after (.openLoadExpiry 0) { run with ind := { lamps := (Table.const 48 {}).set 0 { faultTimer := some 200 } } }).fm.present =
      [{ kind := .lampOpen, subject := 0 }] := by decide +kernel
theorem test_clearExpiry :
    ((after (.clearExpiry 0) { run with ind := { lamps := (Table.const 48 {}).set 0 { clearTimer := some 200, lampOpen := true } } }).ind.lamps.get 0).lampOpen =
      false := by decide +kernel
theorem test_lampRequestWrite :
    ((after (.lampRequestWrite false 1) { run with sup := { state := .normal } }).ind.lamps.get 0).commanded = .on := by
  decide +kernel
theorem test_lampCheckExpiry : (after .lampCheckExpiry { run with ind := { lampCheck := some 0 } }).ind.lampCheck = none := by
  decide +kernel
theorem test_homingCompletion :
    ((after (.homingCompletion 1) { run with ind := { gauges := (Table.const 12 {}).set 1 { state := .homing, homing := some 100, requested := 9 } } }).ind.gauges.get 1).target =
      9 := by decide +kernel
theorem test_arrival :
    ((after (.arrival 1) { run with ind := { gauges := (Table.const 12 {}).set 1 { state := .ready, position := 9, target := 9, moving := true } } }).ind.gauges.get 1) =
      { state := .ready, position := 9, target := 9, shown := 9 } := by decide +kernel
theorem test_hostGaugeTargetWrite_and_grant :
    ((after .capturedWriteGrant (after (.hostGaugeTargetWrite 1 500) run)).ind.gauges.get 1).requested = 100 := by decide +kernel
theorem test_toneEnd : (after .toneEnd { run with ind := { chime := { selection := some 1, phase := .repeatTone 300 } } }).ind.chime.phase =
    .repeatSilence 300 := by decide +kernel
theorem test_repeatPeriodExpiry :
    (after .repeatPeriodExpiry { run with ind := { chime := { selection := some 1, phase := .repeatSilence 1500 } } }).ind.chime.phase =
      .repeatTone 0 := by decide +kernel
theorem test_chimeTestPhaseEnd :
    (after .chimeTestPhaseEnd { run with svc := { test := .chime }, ind := { chime := { test := some (.steady 1000) } } }).svc.lastOutcome =
      .completed := by decide +kernel
theorem test_windowWrite_outside_the_window : (after (.windowWrite 1 0x12345678 0x3) run).sramWord 4 = 0x5678 := by decide +kernel
theorem test_windowWrite_read_only : (after (.windowWrite (run.windowWordAddr 0x0698) 0 0xF) run).path.violations = 1 := by decide +kernel
/-- The M-port taken by an image write, its entry in the queue. -/
def taken : State := { run with path := { run.path with queue := [(4, 77)], inFlight := some (4, 77) } }

theorem test_windowWrite_waits_for_the_port :
    let s := after (.windowWrite 1 0x12345678 0x3) taken
    s.sram = [] ∧ s.portFree = false ∧ after (.windowWrite 1 0 0xF) s = s ∧ after .capturedWriteGrant s = s ∧
      (after .imageWriteComplete s).sramWord 4 = 0x5678 ∧ (after .imageWriteComplete s).portFree = true := by decide +kernel
theorem test_imageWordRead_waits_for_the_port :
    let s := after (.imageWordRead (taken.windowWordAddr 8)) { taken with sram := [(0x3FC008, 9)] }
    s.path.readData = 0 ∧ (after .imageWriteComplete s).path.readData = 9 := by decide +kernel
theorem test_imageWordRead_from_the_queue :
    (after (.imageWordRead (run.windowWordAddr 4)) { run with path := { run.path with queue := [(4, 77)] } }).path.readData = 77 := by
  decide +kernel
theorem test_hostSignalWrite_is_held : (after (.hostSignalWrite 1 42) run).path.held = some (.signal 1 42) := by decide +kernel
theorem test_imageWriteGrant :
    (after .imageWriteGrant { run with path := { run.path with queue := [(4, 77)] } }).sramWord (run.windowAddr 4) = 77 := by decide +kernel
theorem test_imageWriteComplete :
    (after .imageWriteComplete { run with path := { run.path with queue := [(4, 77)], inFlight := some (4, 77) } }).path.queue = [] := by
  decide +kernel
theorem test_clearFaultsCommand_without_the_level : (after (.clearFaultsCommand 0) run).path.result =
    { value := .refused, code := 1, reason := .notAllowed } := by decide +kernel
theorem test_profileStore : (after (.profileStore 0) run).ctrl.store = .validating := by decide +kernel
theorem test_restart : (after (.restart 0) run).ctrl.operation = .restartRead := by decide +kernel
theorem test_clearCauses : (after (.clearCauses 0) run).path.result.value = .done := by decide +kernel
theorem test_clearStats :
    ((after (.clearStats 0) { run with rx := { lines := (Table.const 3 {}).set 0 { counts := { breaks := 3 } } } }).rx.lines.get 0).counts = {} := by
  decide +kernel
theorem test_parkNow : (after (.parkNow 0) run).mode.mode = .parking := by decide +kernel
theorem test_attentionSummaryRead :
    (after .attentionSummaryRead { run with path := { run.path with attnPending := 5 } }).path.readData = 5 := by decide +kernel
theorem test_attentionEnableWrite : (after (.attentionEnableWrite 0xFFFFFFFF) run).path.attnEnable = 0x3FF := by decide +kernel
theorem test_hostAliveWrite : (after (.hostAliveWrite 0x108) { run with sup := { reference := some 7 } }).sup.state = .normal := by
  decide +kernel
theorem test_graceExpiry : (after .graceExpiry { run with sup := { timer := some (.grace, 5000) } }).hrst = true := by decide +kernel
theorem test_timeoutExpiry_of_a_grace_timer :
    (after .timeoutExpiry { run with sup := { timer := some (.grace, 50) } }).sup.state = .starting := by decide +kernel
theorem test_timeoutExpiryInLost :
    (after .timeoutExpiryInLost { run with sup := { state := .lost, timer := some (.timeout, 50), run := 2, reference := some 1 } }).sup.reference =
      none := by decide +kernel
theorem test_pulseEnd : (after .pulseEnd { run with sup := { pulse := some 100 } }).hrst = false := by decide +kernel
theorem test_confirmExpiry :
    ((after (.confirmExpiry 0)
      { run with fm := { run.fm with records := (Table.const 32 none).set 0 (some { code := ⟨.hostLost, 0⟩, timer := some 0 }) } }).fm.records.get 0).map
        Record.occurrence = some 1 := by decide +kernel
theorem test_faultSlotWriteComplete_differs :
    (after (.faultSlotWriteComplete (.differs [1])) { run with ctrl := { operation := .slotWrite 3 [0] false true } }).ctrl.operation =
      .slotWrite 3 [0] true true := by decide +kernel
theorem test_countersWriteComplete_dropped :
    (after (.countersWriteComplete (.differs [1])) { run with ctrl := { operation := .countersWrite [0] true } }).ctrl.operation = .none := by
  decide +kernel
theorem test_profileStoreValidation_of_nothing :
    (after .profileStoreValidation { run with path := { run.path with command := some 2 }, ctrl := { store := .validating } }).path.result =
      { value := .refused, code := 2, reason := .profileInvalid } := by decide +kernel
theorem test_profilePageWriteComplete :
    (after (.profilePageWriteComplete .stored)
      { run with ctrl := { operation := .storeWrite {} 2 0 [0] false, store := .writing } }).ctrl.operation.page = some 1 := by
  decide +kernel
theorem test_profileStoreValidation_waits_for_the_port :
    let s : State := { taken with ctrl := { store := .validating } }
    after .profileStoreValidation s = s := by decide +kernel
theorem test_store_page_read_waits_for_the_port :
    let s : State := { taken with ctrl := { operation := .storeRead {} 2 1, store := .writing } }
    s.takeWork.ctrl.operation = .storeRead {} 2 1 ∧ (after .imageWriteComplete s).ctrl.operation.page = some 1 := by decide +kernel
theorem test_restartReadComplete_unanswered :
    (after (.restartReadComplete false) { run with path := { run.path with command := some 3 }, ctrl := { operation := .restartRead } }).path.result.reason =
      .memoryError := by decide +kernel
theorem test_serviceStartEdge :
    (after .serviceStartEdge { run with svc := { line := .reply, turnaround := some 1, response := [1] } }).svc.line = .receiving := by
  decide +kernel
theorem test_serviceCharacter : (after (.serviceCharacter (.ofByte 5)) run).svc.received = [5] := by decide +kernel
theorem test_quietExpiry : (after .quietExpiry { run with svc := { line := .skip, gap := some 21 } }).svc.line = .idle := by
  decide +kernel
theorem test_serviceGapExpiry : (after .serviceGapExpiry { run with svc := { line := .receiving, received := [5], gap := some 21 } }).svc.received = [] := by
  decide +kernel
theorem test_identify :
    (after (.identify .physical 0x90 []) run).svc.response = [0x90, 5, 0x0B, 0x41, 0x46, 0, 0, 0, 0, 0, 0, 0, 0, 0, 0x99] := by
  decide +kernel
theorem test_readFaults : (after (.readFaults .physical 0x90 [0]) run).svc.response = [0x90, 5, 2, 0x42, 0, 0xD5] := by decide +kernel
theorem test_readFreeze_not_listed :
    (after (.readFreeze .physical 0x90 [1, 2]) run).svc.response = [0x90, 5, 3, 0x7F, 3, 0x11, 0xFB] := by decide +kernel
theorem test_clearFaultsRequest : (after (.clearFaultsRequest .physical 0x90 []) run).svc.response.getD 5 0 = 0x13 := by decide +kernel
theorem test_readSignals :
    (after (.readSignals .functional 0x90 [9]) run).svc.response.take 10 = [0x90, 5, 7, 0x45, 9, 0, 0, 0, 0, 0] := by decide +kernel
theorem test_readDoors : (after (.readDoors .physical 0x90 []) run).svc.response.length = 67 := by decide +kernel
theorem test_readLines : (after (.readLines .physical 0x90 [2]) run).svc.response.length = 28 := by decide +kernel
theorem test_outputTest_without_the_level : (after (.outputTest .physical 0x90 [2]) run).svc.response.getD 5 0 = 0x13 := by decide +kernel
theorem test_stopTest : (after (.stopTest .physical 0x90 []) { run with svc := { run.svc with test := .gaugeSweep } }).svc.lastOutcome =
    .stopped := by decide +kernel
theorem test_workshopStatus : (after (.workshopStatus .functional 0x90 []) run).svc.response.length = 10 := by decide +kernel
theorem test_replyTurnaround : (after .replyTurnaround { run with svc := { turnaround := some 3 } }).svc.transmitting = true := by
  decide +kernel
theorem test_responseCharacter_echo :
    (after (.responseCharacter (.ofByte 1)) { run with svc := { line := .reply, response := [2], transmitting := true } }).svc.echoLosses = 1 := by
  decide +kernel
theorem test_testerActiveExpiry :
    (after .testerActiveExpiry { run with svc := { testerActive := true, testerTimer := some 5000 } }).svc.testerActive = false := by
  decide +kernel
theorem test_lampTestTimerExpiry :
    (after .lampTestTimerExpiry { run with svc := { test := .lamp, testTimer := some 1 } }).svc.lastOutcome = .completed := by
  decide +kernel
theorem test_ignitionOffExpiry : (after .ignitionOffExpiry { run with mode := { run.mode with offTimer := some 0 } }).mode.mode = .parking := by
  decide +kernel
/-! ### An expiry before its time, and other corners that a review named -/

theorem test_stale_blink_end : after .blinkPhaseEnd { run with ind := { blink := .onPhase 499 } } = { run with ind := { blink := .onPhase 499 } } := by
  decide +kernel
theorem test_stale_speedOverflow :
    (after .speedOverflow { run with inp := { timing := true, running := true, count := 65434 } }).inp.running = true := by decide +kernel
theorem test_stale_timeout :
    (after .timeoutExpiry { run with sup := { state := .normal, timer := some (.timeout, 49) } }).sup.state = .normal := by decide +kernel
theorem test_stale_arrival :
    ((after (.arrival 1) { run with ind := { gauges := (Table.const 12 {}).set 1 { state := .ready, target := 9, moving := true } } }).ind.gauges.get 1).position =
      0 := by decide +kernel
theorem test_stalenessExpiry_after_an_update :
    ((after (.stalenessExpiry 3)
      { run with sig := { entries := (Table.const 256 {}).set 3 { value := 1, quality := .good } } }).sig.entries.get 3).quality = .good := by
  decide +kernel
theorem test_debounce_0_settles_before_time_passes :
    let s : State := { run with inp := { inputs := (Table.const 24 {}).set 1 { stable := some 0 } } }
    s.tick = s.setPending s.dueCommands ∧ .debounceSettle 1 ∈ s.dueCommands :=
  ⟨tick_due (c := .debounceSettle 1) rfl (by decide +kernel) (by decide), mem_dueCommands.2 ⟨by decide +kernel, by decide⟩⟩
theorem test_character_that_woke_the_device :
    let s : State := { run with svc := { address := some 5, wakeChar := true } }
    (after (.serviceCharacter (.ofByte 5)) s).svc.line = .skip ∧
      (after (.serviceCharacter (.ofByte 5)) (after .serviceStartEdge s)).svc.received = [5] := by decide +kernel
theorem test_door_cause_between_two_faults :
    let cfg : DoorCfg := { present := true, controller := some 1, closed := some 0, tolerance := 0 }
    let s : State :=
      { parking with
        profile := { prof with doors := (Table.const 6 {}).set 0 cfg }
        sig := { entries := ((Table.const 256 {}).set 1 { value := 3, quality := .good }).set 0 { value := 1, quality := .good } }
        door := { doors := (Table.const 6 {}).set 0 { state := .fault, source := .controller, cause := .code } } }
    (s.doorsHanded 1).causePending .door := by decide +kernel
theorem test_warning_cause_at_a_restart :
    let s := ({ run with warn := { rows := (Table.const 96 {}).set 0 { state := .activeAck } } } : State)
    s.restartWarnings.causePending .warning := by decide +kernel
theorem test_restart_closes_the_window_first :
    let s : State :=
      { run with
        path := { windowOpen := true, queue := (List.range 32).map (fun k => (4 * k, 0)) }
        svc := { test := .lamp } }
    (s.beginRestart prof).svc.lastOutcome = .restart ∧ ¬ (s.beginRestart prof).causePending .updateOverflow := by decide +kernel
theorem test_tick_in_reset :
    (match step State.reset with
      | .next t => decide (t = State.reset)
      | .fault _ => false
      | .refused _ => false) = true := by decide +kernel
theorem test_tick_counts_a_millisecond : (State.tick run).warn.clock = 1 ∧ (State.tick run).mode.time = 1 := by
  decide +kernel

/-! ## Witnesses: states and operands that meet the hypotheses of each statement, clause by clause -/

theorem witness_EmptyQueueLetsAMillisecondPass :
    (State.reset.pending = [] ∧ State.reset.mode.inReset = true) ∧
    (run.pending = [] ∧ run.running ∧ ∀ c, run.due c = false) ∧
    (let s := { run with ind := { blink := .onPhase 500 } };
      s.pending = [] ∧ s.running ∧ ∃ c, s.due c = true ∧ c ≠ .speedOverflow) ∧
    (let s := speeding { running := true, count := 65500, edgeAt := 65 };
      s.pending = [] ∧ s.running ∧ s.due .speedOverflow = true ∧ ∀ c, c ≠ .speedOverflow → s.due c = false) ∧
    Instr.blinkPhaseEnd ∈ expiries ∧ run.due .blinkPhaseEnd = false := by
  have h : State.due { run with ind := { blink := .onPhase 500 } } .blinkPhaseEnd = true := by decide
  have quiet : ∀ c, run.due c = false := fun c => by
    by_cases hc : c = .speedOverflow
    · subst hc; decide
    · exact dueCommands_eq_nil.1 (by decide +kernel) c hc
  exact ⟨by decide, ⟨by decide, by decide, quiet⟩, ⟨by decide, by decide, _, h, by decide⟩,
    ⟨by decide, by decide, by decide, dueCommands_eq_nil.1 (by decide +kernel)⟩, mem_expiries_of_due h, by decide⟩

/-- The invariant holds in `run`, and it steps. -/
theorem witness_StepKeepsTheInvariant : run.Inv ∧ ∃ t, step run = .next t := by
  refine ⟨⟨?_, ?_, ?_, ?_, ?_, ?_⟩, _, rfl⟩
  · unfold MemoryPath.Inv; decide +kernel
  · intro w
    have h : run.warn.rows.get w = {} := Table.get_const ..
    rw [h]
    unfold Warning.Inv
    decide
  · unfold DoorUnit.Inv; decide +kernel
  · unfold FaultMemory.Inv; decide +kernel
  · decide +kernel
  · decide +kernel

/-- `run` with its status word in SRAM. -/
def shown : State := { run with sram := [(0x3FC6A4, 0x0B)] }

theorem shown_latest : ∀ o ∈ imageOffsets, shown.latestWord o = shown.imageWord o := by decide +kernel

theorem mem_imageOffsets {o : Nat} (h : isImageOffset o = true) : o ∈ imageOffsets := by
  have hb : o % 4 = 0 ∧ o < 4096 := by
    unfold isImageOffset offResult offStatus offCountA offCountB at h
    simp only [Bool.and_eq_true, Bool.or_eq_true, decide_eq_true_eq] at h
    omega
  refine List.mem_filter.2 ⟨List.mem_map.2 ⟨o / 4, List.mem_range.2 (by omega), by omega⟩, h⟩

/-- A window that is open and coherent. -/
theorem witness_WindowShowsTheLatestWord : shown.path.windowOpen = true ∧ shown.Coherent ∧ ∃ t, step shown = .next t :=
  ⟨rfl,
    { places := by intro o ho; simp [shown, run] at ho
      written := by intro e he; simp [shown, run] at he
      waiting := by intro a w lanes h; simp [shown, run] at h
      reading := by intro h; simp [shown, run] at h
      latest := fun _ o ho => shown_latest o (mem_imageOffsets ho) }, _, rfl⟩

theorem witness_FullResets :
    State.reset.mode.inReset = true ∧ (∀ w, Instr.holdExpiry ≠ .powerOnReset w) ∧ (∀ w, Instr.holdExpiry ≠ .supplyLowReset w) ∧
      (∀ w, Instr.holdExpiry ≠ .pinReset w) ∧ Instr.holdExpiry ≠ .resetEnd ∧ (∀ i, Instr.holdExpiry ≠ .logicalLevelChange i) ∧
      ∀ k b, Instr.holdExpiry ≠ .openLoadSenseChange k b :=
  ⟨rfl, nofun, nofun, nofun, nofun, nofun, nofun⟩

theorem witness_StartReadsProfileAndCounters :
    State.reset.mode.inReset = true ∧
    ((start .startProfileRead).running ∧ (start .startProfileRead).ctrl.operation = .startProfileRead ∧
      (start .startProfileRead).fm.loaded = false) ∧
    (start .startCountersRead).running ∧ (start .startCountersRead).ctrl.operation = .startCountersRead ∧
      (start .startCountersRead).fm.loaded = false := by decide +kernel

theorem readByte_range' (d : Byte) (f : Nat → Byte) (n x : Nat) :
    ∀ b, readByte d ((List.range' b n).map (fun a => (a, f a))) x = if b ≤ x ∧ x < b + n then f x else d := by
  induction n with
  | zero => intro b; simp [readByte]
  | succ n ih =>
    intro b
    simp only [List.range'_succ, List.map_cons, readByte, ih]
    by_cases h : x = b
    · subst h; simp
    · simp only [h, if_false]
      congr 1
      exact propext ⟨fun g => by omega, fun g => by omega⟩

/-- The record that slot 31 was stored with, ACTIVE. -/
def kept : Record := { code := ⟨.lampOpen, 47⟩, state := .active, occurrence := 3, first := some ⟨7, 8⟩, last := some ⟨9, 10⟩ }

/-- The same record as the load leaves it. -/
def keptLoaded : Record := { kept with state := .passive, seen := false }

/-- The page of a slot. The last of the 32 holds a record; of the mixed pages the last two hold the same one, and slot 29 names a kind
that is none. -/
def storedPage (mixed : Bool) (i : Fin 32) : List Byte :=
  if i = 31 ∨ mixed ∧ i = 30 then slotPage i (some kept)
  else if mixed ∧ i = 29 then checkedPage (0x000200FF :: List.replicate 14 0) 29
  else slotPage i none

/-- The bytes of the 32 slot pages. -/
def slotByte (mixed : Bool) (a : Nat) : Byte := (storedPage mixed (Fin.ofNat 32 ((a - 0x2000) / 64))).getD (a % 64) 0

/-- START about to read the fault slots, with slot 3 torn when they are mixed. -/
def slotsStored (mixed : Bool) : State :=
  { start .startSlotsRead with
    cfg := (List.range' 0x2000 2048).map (fun a => (a, slotByte mixed a))
    ctrl := { operation := .startSlotsRead, torn := if mixed then [slotPageNo 3] else [] } }

/-- Every slot answers; of the mixed ones slot 4 does not. -/
def slotsAnswered (mixed : Bool) : BitVec 32 := if mixed then 0xFFFFFFEF else 0xFFFFFFFF

/-- What the load makes of a slot. -/
def slotLoaded (mixed : Bool) (i : Fin 32) : Option Record :=
  if (mixed = false ∧ i = 31) ∨ (mixed = true ∧ i = 30) then some keptLoaded else none

/-- The bad slots: one torn, one of no kind, one with a code loaded from a lower slot. -/
abbrev slotBad (mixed : Bool) (i : Fin 32) : Prop := mixed = true ∧ (i = 3 ∨ i = 29 ∨ i = 31)

theorem slotsStored_page (mixed : Bool) (i : Fin 32) : (slotsStored mixed).cfgPage (slotPageNo i) = storedPage mixed i := by
  have len : (storedPage mixed i).length = 64 := by revert mixed i; decide +kernel
  have hi := i.isLt
  have h : (slotsStored mixed).cfgByte = fun x => if 0x2000 ≤ x ∧ x < 0x2000 + 2048 then slotByte mixed x else 0xFF :=
    funext fun x => readByte_range' 0xFF (slotByte mixed) 2048 x 0x2000
  refine List.ext_getElem (by simp [State.cfgPage, len]) fun k _ hk => ?_
  have hk : k < 64 := len ▸ hk
  have hn : Fin.ofNat 32 ((64 * slotPageNo i + k - 0x2000) / 64) = i := Fin.ext (by simp [slotPageNo]; omega)
  simp only [State.cfgPage, List.getElem_map, List.getElem_range, h]
  rw [if_pos ⟨by unfold slotPageNo; omega, by unfold slotPageNo; omega⟩, slotByte, hn,
    show (64 * slotPageNo i + k) % 64 = k by omega]
  simp [List.getD_eq_getElem?_getD, len, hk]

theorem storedPage_holds (mixed : Bool) (i : Fin 32) (h : i = 31 ∨ mixed = true ∧ i = 30) :
    SlotHolds (storedPage mixed i) keptLoaded := by
  rcases mixed with _ | _ <;> rcases h with rfl | ⟨h, rfl⟩
  all_goals first
    | cases h; done
    | exact ⟨by decide +kernel, by decide +kernel, by decide +kernel, by decide +kernel, by decide +kernel, by decide +kernel,
        by decide +kernel⟩

theorem storedPage_empty : ∀ (mixed : Bool) (i : Fin 32), i ≠ 31 → ¬ (mixed = true ∧ (i = 30 ∨ i = 29)) → ∀ k, k < 15 →
    pageWord (storedPage mixed i) k = 0 := by decide +kernel

theorem storedPage_names_no_record : NamesNoRecord (storedPage true 29) :=
  ⟨⟨0, by decide, by decide +kernel⟩, Or.inl fun kind => by cases kind <;> decide +kernel⟩

theorem slots_bad : ∀ (mixed : Bool) (i : Fin 32),
    (slotPageNo i ∈ (if mixed then [slotPageNo 3] else []) ∨ mixed = true ∧ i = 31 → slotLoaded mixed i = none ∧ slotBad mixed i) ∧
    (slotPageNo i ∉ (if mixed then [slotPageNo 3] else []) → ¬ (mixed = true ∧ (i = 29 ∨ i = 31)) → ¬ slotBad mixed i) := by decide +kernel

theorem slots_loaded : ∀ (mixed : Bool) (i : Fin 32), ¬ (mixed = true ∧ i = 31) → (i = 31 ∨ mixed = true ∧ i = 30) →
    slotLoaded mixed i = some keptLoaded ∧ ∀ j, j < i → slotLoaded mixed j = none := by decide +kernel

theorem slotsStored_load (mixed : Bool) :
    (slotsStored mixed).SlotsLoad (slotsAnswered mixed) (slotLoaded mixed) (slotBad mixed) where
  unanswered := by
    have h : ∀ (mixed : Bool) (i : Fin 32), (slotsAnswered mixed).getLsbD i.val = false → slotLoaded mixed i = none ∧ ¬ slotBad mixed i := by
      decide +kernel
    exact h mixed
  failing := by
    intro i _ h
    have ok : ∀ (mixed : Bool) (i : Fin 32), pageOk (storedPage mixed i) i.val = true := by decide +kernel
    rw [slotsStored_page, ok] at h
    exact (slots_bad mixed i).1 (Or.inl (h.resolve_right nofun))
  readable := by
    intro i _ ht _
    have ht : slotPageNo i ∉ (if mixed then [slotPageNo 3] else []) := ht
    rw [slotsStored_page]
    by_cases h29 : mixed = true ∧ i = 29
    · obtain ⟨rfl, rfl⟩ := h29
      exact Or.inl ⟨storedPage_names_no_record, by decide, by decide⟩
    right
    by_cases hr : i = 31 ∨ mixed = true ∧ i = 30
    · refine ⟨some keptLoaded, storedPage_holds mixed i hr, ?_⟩
      by_cases hd : mixed = true ∧ i = 31
      · refine Or.inr ⟨?_, (slots_bad mixed i).1 (Or.inr hd)⟩
        obtain ⟨rfl, rfl⟩ := hd
        exact ⟨30, keptLoaded, keptLoaded, by decide, rfl, rfl, rfl⟩
      · have hl := slots_loaded mixed i hd hr
        refine Or.inl ⟨fun j r q hj h _ => ?_, hl.1,
          (slots_bad mixed i).2 ht fun h => h.2.elim (fun g => h29 ⟨h.1, g⟩) fun g => hd ⟨h.1, g⟩⟩
        rw [hl.2 j hj] at h
        cases h
    · refine ⟨none, storedPage_empty mixed i (fun h => hr (Or.inl h)) (fun h => h.2.elim (fun g => hr (Or.inr ⟨h.1, g⟩)) fun g => h29 ⟨h.1, g⟩),
        Or.inl ⟨fun _ _ _ _ _ h => (by cases h), ?_,
          (slots_bad mixed i).2 ht fun h => h.2.elim (fun g => h29 ⟨h.1, g⟩) fun g => hr (Or.inl g)⟩⟩
      have h : ∀ (mixed : Bool) (i : Fin 32), ¬ (i = 31 ∨ mixed = true ∧ i = 30) → slotLoaded mixed i = none := by decide +kernel
      exact h mixed i hr

theorem witness_StartLoadsTheFaultSlots :
    ((start .startSlotsRead).running ∧ (start .startSlotsRead).ctrl.operation = .startSlotsRead ∧
      (start .startSlotsRead).mode.mode = .start ∧ (start .startSlotsRead).loadBuffer = none ∧
      ({ start .startSlotsRead with loadBuffer := some prof }).loadBuffer = some prof) ∧
    (∀ mixed, (slotsStored mixed).running ∧ (slotsStored mixed).ctrl.operation = .startSlotsRead ∧
      (slotsStored mixed).mode.mode = .start ∧ (∀ i, (slotsStored mixed).fm.records.get i = none) ∧
      (slotsStored mixed).fm.heldReports = [] ∧
      (slotsStored mixed).SlotsLoad (slotsAnswered mixed) (slotLoaded mixed) (slotBad mixed)) ∧
    ((∀ i : Fin 32, (slotsAnswered false).getLsbD i.val = true ∧ ¬ slotBad false i) ∧ slotLoaded false 31 = some keptLoaded ∧
      (slotsAnswered true).getLsbD 4 = false ∧ slotBad true 3 ∧ slotBad true 29 ∧ slotBad true 31 ∧
      slotLoaded true 30 = some keptLoaded) ∧
    (keptLoaded.code ≠ ⟨.configMemory, 0⟩ ∧
      (pageWord ((slotsStored true).cfgPage (slotPageNo 30)) 0).toNat / 2 ^ 16 % 2 ^ 2 = 2 ∧
      keptLoaded.code.kind ≠ .configMemory ∧ keptLoaded.code.kind ≠ .profileBad) := by
  have empty : ∀ i, ({} : FaultMemory).records.get i = none := by decide +kernel
  refine ⟨by decide +kernel, fun mixed => ⟨rfl, rfl, rfl, empty, rfl, slotsStored_load mixed⟩, by decide +kernel, by decide, ?_, by decide,
    by decide⟩
  rw [slotsStored_page]
  decide +kernel

theorem witness_UpdateSetsTheEntry :
    run.takesUpdates = true ∧ (run.profile.signals.get 1).low.toInt = 0 ∧ (run.profile.signals.get 1).high.toInt = 100 ∧
      ((0 : BitVec 16).toInt = 0 ∧ (100 : BitVec 16).toInt = 100 ∧ (101 : BitVec 16).toInt = 101 ∧ (0xFFFF : BitVec 16).toInt = -1) ∧
      ({ run with profile := { prof with signals := prof.signals.set 1 { low := 1 } } }.profile.signals.get 1).high.toInt <
        ({ run with profile := { prof with signals := prof.signals.set 1 { low := 1 } } }.profile.signals.get 1).low.toInt := by
  decide +kernel

/-- Entry `n` of the signal table replaced. -/
def withEntry (n : Fin 256) (e : Signal) (s : State) : State := { s with sig := { s.sig with entries := s.sig.entries.set n e } }

theorem witness_StalenessExpiry :
    let s := withEntry 3 { quality := .good, age := 11, due := true } (withEntry 1 { quality := .invalid, age := 11, due := true } run)
    s.running ∧ s.takesUpdates = true ∧ ∀ n ∈ [(1 : Fin 256), 3],
      sourceAges (s.profile.signals.get n).source = true ∧ (s.profile.signals.get n).freshness ≠ 0 ∧
        ((s.sig.entries.get n).quality = .good ∨ (s.sig.entries.get n).quality = .invalid) ∧
        (s.sig.entries.get n).due = true ∧ (s.profile.signals.get n).freshness < (s.sig.entries.get n).age.toNat := by
  decide +kernel

/-- Input `i` replaced. -/
def withInput (i : Fin 24) (x : Input) (s : State) : State := { s with inp := { s.inp with inputs := s.inp.inputs.set i x } }

theorem witness_DiscreteInputs :
    { run with profStatus := .noProfile }.inForce = false ∧ State.reset.mode.inReset = true ∧
    (run.running ∧ run.inForce = true ∧ (run.profile.inputs.get 0).debounce ≠ 0) ∧
    (run.mode.mode ≠ .parked ∧ (run.profile.inputs.get 1).debounce = 0) ∧
    (∀ high ∈ [true, false], ∀ resettle ∈ [true, false],
      let s := withInput 0 { high := high, filtered := if high then .inactive else .active, stable := some 5, resettle := resettle }
        (withEntry 0 { value := if high then 0 else 1 } run)
      let now : Filtered := if high then .active else .inactive
      let v : BitVec 16 := if high then 1 else 0
      s.running ∧ s.takesUpdates = true ∧ (s.inp.inputs.get 0).stable = some 5 ∧ (s.profile.inputs.get 0).debounce ≤ 5 ∧
        (if (s.inp.inputs.get 0).high = (s.profile.inputs.get 0).activeLow then now = .inactive ∧ v = 0 else now = .active ∧ v = 1) ∧
        (if (s.inp.inputs.get 0).resettle then
          ∃ n, (s.profile.signals.get n).source = .discrete 0 ∧ (s.sig.entries.get n).value ≠ v
        else (s.inp.inputs.get 0).filtered ≠ now)) := by decide +kernel

theorem witness_SpeedInput :
    (run.running ∧ run.takesUpdates = true ∧ run.inp.timing = false ∧ run.inp.running = false) ∧
    (let s : State := { run with inp := { timing := true, running := true, count := 65500 } };
      s.running ∧ s.takesUpdates = true ∧ s.inp.timing = true ∧ s.inp.count + (35 : BitVec 16).toNat ≤ 65535 ∧
        65535 = max 1 (s.inp.count + (35 : BitVec 16).toNat) ∧ s.inp.running = true ∧
        65535 < s.inp.count + (36 : BitVec 16).toNat ∧ 65535 ≤ s.inp.count + (100 - s.inp.edgeAt)) ∧
    (let s : State := { run with inp := { running := true, count := 65435 } };
      s.inp.timing = false ∧ s.inp.count + (100 : BitVec 16).toNat ≤ 65535 ∧ 65535 ≤ s.inp.count + (100 - s.inp.edgeAt)) := by
  decide +kernel

/-- `run` whose speed reference is entry 2 with threshold 5 and a hold time. -/
def referenced (q : Quality) (v : BitVec 16) (m : Motion) : State :=
  withEntry 2 { value := v, quality := q }
    { run with profile := { prof with reference := some 2, movingThreshold := 5, stopHold := 20 }, sig := { motion := m } }

theorem witness_MotionFollowsTheReference :
    run.profile.reference = none ∧ (∀ q v m, (referenced q v m).profile.reference = some 2) ∧
    ((referenced .never 0 .moving).quality 2 = .never ∧ (referenced .substituted 9 .unknown).quality 2 = .substituted ∧
      ((referenced .good 5 .stopped).quality 2 = .good ∧
        (referenced .good 5 .stopped).profile.movingThreshold.toInt ≤ ((referenced .good 5 .stopped).value 2).toInt) ∧
      ((referenced .good 4 .stopped).quality 2 = .good ∧
        ((referenced .good 4 .stopped).value 2).toInt < (referenced .good 4 .stopped).profile.movingThreshold.toInt ∧
        (referenced .good 4 .stopped).sig.motion = .stopped) ∧
      ((referenced .good 4 .moving).sig.motion ≠ .stopped ∧ (referenced .good 4 .moving).profile.stopHold ≠ 0)) ∧
    (run.running ∧ ({ run with sig := { motion := .moving, hold := some 0 } }).sig.hold = some 0 ∧ run.profile.stopHold ≤ 0) := by
  refine ⟨rfl, fun _ _ _ => rfl, ?_, ?_⟩ <;> decide +kernel

theorem witness_WakeEventsResume :
    (parked.running ∧ parked.mode.mode = .parked ∧ parked.inForce = true ∧ (parked.profile.lines.get 0).wake = true) ∧
    (let s := withInput 0 { high := true, filtered := .inactive, stable := some 5 } parked;
      s.running ∧ s.mode.mode = .parked ∧ s.inForce = true ∧ (s.inp.inputs.get 0).stable = some 5 ∧ (s.profile.inputs.get 0).debounce ≤ 5 ∧
        (s.profile.inputs.get 0).wake = true ∧ s.ignitionInput 0 = false ∧ (s.inp.inputs.get 0).filtered = .inactive ∧
        (s.inp.inputs.get 0).high ≠ (s.profile.inputs.get 0).activeLow ∧ (s.profile.inputs.get 0).edge ≠ .falling) ∧
    (let s := withInput 0 { high := false, filtered := .active, stable := some 5 }
        { parked with profile := { prof with inputs := (Table.const 24 {}).set 0 { wake := true, edge := .falling } } };
      s.inForce = true ∧ (s.inp.inputs.get 0).stable = some 5 ∧ (s.profile.inputs.get 0).debounce ≤ 5 ∧ (s.profile.inputs.get 0).wake = true ∧
        s.ignitionInput 0 = false ∧ (s.inp.inputs.get 0).filtered = .active ∧
        (s.inp.inputs.get 0).high = (s.profile.inputs.get 0).activeLow ∧ (s.profile.inputs.get 0).edge ≠ .rising) ∧
    (let s := withInput 0 { high := true, filtered := .inactive, stable := some 5 }
        { parked with profile := { prof with ignition := some 0, inputs := Table.const 24 {} } };
      s.running ∧ s.mode.mode = .parked ∧ s.inForce = true ∧ (s.inp.inputs.get 0).stable = some 5 ∧ (s.profile.inputs.get 0).debounce ≤ 5 ∧
        (s.profile.inputs.get 0).wake = false ∧ s.ignitionInput 0 = true ∧ (s.inp.inputs.get 0).filtered ≠ .active ∧
        (s.inp.inputs.get 0).high ≠ (s.profile.inputs.get 0).activeLow) := by decide +kernel

/-- Line `l` replaced, and the shared receiver's owner set. -/
def withLine (l : Line) (x : LineRx) (o : Owner) (s : State) : State :=
  { s with rx := { s.rx with lines := s.rx.lines.set l.toFin x, owner := o } }

theorem witness_StartEdges :
    (run.running ∧ run.lineTakes .drive = true ∧ run.lineTakes .front = true ∧ run.lineTakes .rear = true) ∧
    (run.rx.received .drive = true ∧ (run.line .drive).inChar = false) ∧
    (run.rx.received .front = false ∧ run.rx.owner = .none) ∧
    (let s := withLine .front {} .front run;
      s.running ∧ s.lineTakes .rear = true ∧ s.rx.received .rear = false ∧ s.rx.owner ≠ .none ∧ s.rx.collision = false) ∧
    (let s := withLine .front { inChar := true } .front run;
      s.running ∧ s.lineTakes .front = true ∧ s.rx.received .front = true ∧ (s.line .front).inChar = true) ∧
    (Samples.all true).majority = true ∧ (Samples.all false).majority = false := by decide +kernel

theorem witness_CharactersOfAFrame :
    ((withLine .drive { inChar := true } .none run).receives .drive ∧
      ((withLine .drive { inChar := true } .none run).line .drive).receive.inFrame = false ∧ (run.line .drive).inChar = false) ∧
    ((CharSamples.ofByte 0x23 true).falseStart = false ∧ (CharSamples.ofByte 0x23 true).clean = true ∧
      (CharSamples.ofByte 0x23 true).mark.majority = true) ∧
    (¬ ((CharSamples.ofByte 0x23 false).clean = true ∧ (CharSamples.ofByte 0x23 false).mark.majority = true)) ∧
    (let s := withLine .rear { receive := .headerSeen, inChar := true } .rear run;
      s.receives .rear ∧ (s.line .rear).receive = .headerSeen) ∧
    ((CharSamples.ofByte 12 false).byte.toNat ≤ 12 ∧ (CharSamples.ofByte 12 false).clean = true ∧
      (CharSamples.ofByte 12 false).mark.majority = false) ∧
    (let s := withLine .drive { receive := .data, length := 12, inChar := true } .none run;
      s.receives .drive ∧ (s.line .drive).receive = .data ∧ (s.line .drive).hunting = false) := by decide +kernel

theorem witness_CharacterDiscardsAFrame :
    (let s := withLine .drive { receive := .headerSeen, inChar := true } .none run;
      s.receives .drive ∧ (s.line .drive).receive.inFrame = true ∧ (s.line .drive).receive = .headerSeen) ∧
    ((CharSamples.ofByte 1 true).falseStart = false ∧ (CharSamples.ofByte 1 true).clean = true ∧
      (CharSamples.ofByte 1 true).mark.majority = true) ∧
    (let c := { CharSamples.ofByte 1 false with stop := .all false };
      c.falseStart = false ∧ c.framing = true) ∧
    (let c := { CharSamples.ofByte 1 false with d0 := ⟨true, true, false⟩ };
      c.falseStart = false ∧ c.framing = false ∧ c.noisy = true) ∧
    (12 < (CharSamples.ofByte 13 false).byte.toNat ∧ (CharSamples.ofByte 13 false).clean = true) ∧
    (let s := withLine .drive { receive := .check, xor := 1, inChar := true } .none run;
      s.receives .drive ∧ (s.line .drive).receive = .check ∧ (s.line .drive).xor ≠ (CharSamples.ofByte 13 false).byte) := by
  decide +kernel

theorem witness_CheckedFrame :
    let c := CharSamples.ofByte 0x21 false
    let none' := withLine .drive { receive := .check, xor := 0x21, inChar := true } .none run
    let other := withLine .front { receive := .check, xor := 0x21, node := 3, kind := 1, length := 2, inChar := true } .front run
    let fits := withLine .front { receive := .check, xor := 0x21, node := 3, kind := 1, length := 1, taken := [9], inChar := true } .front run
    (c.falseStart = false ∧ c.clean = true ∧ c.mark.majority = false) ∧
    (none'.receives .drive ∧ (none'.line .drive).receive = .check ∧ (none'.line .drive).xor = c.byte ∧
      none'.slotFor .drive (none'.line .drive).node (none'.line .drive).kind = none) ∧
    ((∀ s ∈ [other, fits], s.receives .front ∧ (s.line .front).receive = .check ∧ (s.line .front).xor = c.byte ∧
        s.slotFor .front (s.line .front).node (s.line .front).kind = some 0 ∧
        s.profile.slots.get 0 = some { line := .front, node := 3, kind := 1, length := 1 }) ∧
      1 ≠ (other.line .front).length ∧ 1 = (fits.line .front).length ∧
      (fits.profile.signals.get 3).source = .line 0 0 8 false) := by decide +kernel

theorem witness_LineSignalField :
    ((List.replicate 12 (0 : Byte)).length ≤ 12 ∧ 11 < 12 ∧ 7 < 8) ∧ (1 ≤ 16 ∧ 16 ≤ 16 ∧ 80 + 16 ≤ 96) ∧
    (let rd : Nat → Byte := fun a => if a = atSignal 255 then 3 else if a = atSignal 255 + 3 then 81 else 16;
      255 < 256 ∧ rd (atSignal 255) = 3 ∧ 96 < (rd (atSignal 255 + 3)).toNat + (rd (atSignal 255 + 4)).toNat) := by decide +kernel

theorem witness_BreaksGapsAndSilence :
    (let s := withLine .rear { receive := .check, gap := some 3 } .none
        { run with profile := { prof with lines := Table.const 3 { gap := 2 } } };
      s.running ∧ s.lineTakes .rear = true ∧ s.linesRun = true ∧ (s.line .rear).receive.inFrame = true ∧
        (s.line .rear).gap = some 3 ∧ (s.profile.lines.get (Line.toFin .rear)).gap < 3) ∧
    (run.lineTakes .rear = true ∧ (run.line .rear).receive.inFrame = false) ∧
    (let s := withLine .front { silence := some 100 } .none run;
      s.running ∧ s.linesRun = true ∧ (s.line .front).silence = some 100 ∧
        (silenceLimit (s.profile.lines.get (Line.toFin .front)).silence).getD 0 ≤ 100 ∧ (s.line .front).broken = false ∧
        (s.line .front).silentMark = false) := by decide +kernel

theorem witness_BrokenAndReturn :
    (run.running ∧ run.linesRun = true ∧ (run.line .front).broken = false) ∧
    (let s := withLine .drive { broken := true } .none run;
      s.running ∧ s.linesRun = true ∧ (s.line .drive).broken = true) := by decide +kernel

/-- Door `d` replaced. -/
def withDoor (d : Fin 6) (x : Door) (s : State) : State := { s with door := { s.door with doors := s.door.doors.set d x } }

theorem witness_DoorTimers :
    (run.running ∧ ∀ p ∈ [(DoorPurpose.openMotion, 501, (run.profile.doors.get 5).openTimeout),
        (.closeMotion, 20001, (run.profile.doors.get 5).closeTimeout), (.disagree, 1, (run.profile.doors.get 5).tolerance)],
      (withDoor 5 { timer := some (p.1, p.2.1) } run).running ∧ p.2.2 < p.2.1 ∧
        ((withDoor 5 { timer := some (p.1, p.2.1) } run).door.doors.get 5).timer = some (p.1, p.2.1) ∧
        ((withDoor 5 { timer := some (p.1, p.2.1) } run).door.doors.get 5).cause = .none) ∧
    (∀ p ∈ [((0 : BitVec 16), DoorState.closedLocked), (1, .closed), (2, .opening), (3, .opened), (4, .closing), (5, .reversing),
        (6, .fault), (0xFFFF, .fault)],
      (withEntry 1 { value := p.1, quality := .good } run).usableValue (run.profile.doors.get 0).controller = some p.1 ∧
        codeNames p.1 p.2) ∧
    (∀ p ∈ [((1 : BitVec 16), (0 : BitVec 16)), (3, 1)],
      (withEntry 0 { value := p.2, quality := .good } run).disagrees (run.profile.doors.get 0) p.1) ∧
    ¬ run.disagrees (run.profile.doors.get 0) 3 := by
  refine ⟨by decide +kernel, by unfold codeNames; decide +kernel, ?_, ?_⟩
  · intro p hp
    have hc : (run.profile.doors.get 0).closed = some 0 := by decide
    rcases List.mem_cons.1 hp with rfl | hp
    · exact ⟨0, hc, by decide +kernel, Or.inl ⟨by decide, by decide +kernel⟩⟩
    · rcases List.mem_singleton.1 hp with rfl
      exact ⟨0, hc, by decide +kernel, Or.inr ⟨by decide, by decide +kernel⟩⟩
  · rintro ⟨n, hn, hq, -⟩
    have hc : (run.profile.doors.get 0).closed = some 0 := by decide
    rw [hc] at hn
    cases hn
    revert hq
    decide +kernel

theorem witness_DegradedDoor :
    let s := withEntry 0 { value := 1, quality := .good } (withEntry 4 { value := 1, quality := .substituted }
      (withEntry 5 { quality := .good } run))
    (s.quality 1 = .never ∧ (prof.doors.get 0).controller = some 1) ∧
    (s.usableValue (some 0) = some 1 ∧ s.usableValue (some 4) = some 1 ∧ s.usableValue none = none ∧
      s.usableValue (some 5) = some 0 ∧ s.usableValue (some 1) = none) := by decide +kernel

/-- Doors 0, 2 and 5 bound to signal 0, door 5 a RAMP door, its ramp signal 6; door 3 present and bound to nothing. -/
def doored : State :=
  { run with
    profile := { prof with
      doors := (((prof.doors.set 2 { present := true, closed := some 0, locked := some 7 }).set 5
        { present := true, closed := some 0, locked := some 7, ramp := true, rampOut := some 6 }).set 3 { present := true }) } }

theorem witness_DoorCounters :
    (∀ d ∈ [(0 : Fin 6), 2, 5], boundDoor (doored.profile.doors.get d) 0 = true) ∧
    (∀ d ∈ [(1 : Fin 6), 3, 4], boundDoor (doored.profile.doors.get d) 0 = false) ∧
    (∀ d, boundDoor (doored.profile.doors.get d) 255 = false) ∧
    (let s := withEntry 7 { value := 1, quality := .good } (withEntry 0 { value := 1, quality := .good } doored);
      let t := s.doorsHanded 0;
      t.door.openCount = 0 ∧ t.door.allLocked = false ∧ (t.door.doors.get 2).state = .closedLocked ∧
        (t.door.doors.get 0).state = .closed ∧
        (let u := withEntry 6 { value := 1, quality := .good } s;
          (u.doorsHanded 0).door.openCount = 1 ∧ ((u.doorsHanded 0).door.doors.get 5).countsOpen = true ∧
            u.countsOpen (u.profile.doors.get 5) { state := .closedLocked } = true ∧
            u.countsOpen (u.profile.doors.get 2) { state := .closed } = false ∧
            u.countsOpen (u.profile.doors.get 4) { state := .opened } = false ∧
            u.countsOpen (u.profile.doors.get 2) { state := .fault } = true) ∧
        (withEntry 6 { value := 1, quality := .substituted } s).countsOpen (s.profile.doors.get 5) { state := .closed } = false) ∧
    (let s := withEntry 0 { value := 0, quality := .good } doored;
      (s.doorsHanded 0).door.openCount = 3 ∧ ((s.doorsHanded 0).door.doors.get 5).openCycles = 1) := by
  decide +kernel

/-- Warning `w` replaced. -/
def withWarning (w : Fin 96) (x : Warning) (s : State) : State := { s with warn := { s.warn with rows := s.warn.rows.set w x } }

theorem witness_WarningDelays :
    (let s := withWarning 1 { state := .pending, present := true, timer := some (.onDelay, 10) }
        (withWarning 0 { state := .activeUnack, timer := some (.offDelay, 0) } run);
      s.running ∧ s.warningsRun = true ∧ (s.warn.rows.get 1).timer = some (.onDelay, 10) ∧ (s.profile.warnings.get 1).onDelay ≤ 10 ∧
        (s.warn.rows.get 0).timer = some (.offDelay, 0) ∧ (s.profile.warnings.get 0).offDelay ≤ 0 ∧
        (s.warn.rows.get 0).state = .activeUnack ∧ (s.profile.warnings.get 0).latching = true) ∧
    ((run.profile.warnings.get 0).condition ≠ .unused ∧ (run.profile.warnings.get 95).condition = .unused) ∧
    (let s := withEntry 7 { value := 5, quality := .good } run;
      s.conditionHolds false false (.above 7 4 2) ∧ s.conditionHolds true false (.above 7 6 2) ∧
        ¬ s.conditionHolds true false (.above 7 7 2) ∧ s.conditionHolds false false (.below 7 6 2) ∧
        s.conditionHolds true false (.below 7 4 2) ∧ ¬ s.conditionHolds true false (.below 7 3 2) ∧
        s.conditionHolds false false (.equal 7 5) ∧ s.conditionHolds false false (.qualityBad 8) ∧
        s.conditionHolds false true .hostSet) := by
  refine ⟨by decide +kernel, by decide +kernel, ?_⟩
  simp only [State.conditionHolds]
  decide +kernel

theorem witness_ReadsWithAnEffect :
    (run.running ∧ run.portFree = true ∧ run.path.windowOpen = true ∧ run.granted) ∧
    (taken.running ∧ taken.portFree = true ∧ taken.path.windowOpen = true ∧ ¬ taken.granted ∧
      offWarning 0 ∉ taken.path.queue.map Prod.fst ++ taken.path.resync) ∧
    (State.reset.portFree = true ∧ (start .none).running ∧ (start .none).path.windowOpen = false) := by decide +kernel

theorem witness_HostAckSetAndReset :
    (let s := withWarning 95 { state := .activeUnack, armed := true } run;
      s.hostReady ∧ (s.warn.rows.get 95).armed = true ∧ (s.warn.rows.get 95).state = .activeUnack) ∧
    (run.hostReady ∧ (run.warn.rows.get 0).armed = false) ∧
    ((run.profile.warnings.get 0).condition = .hostSet ∧ (run.profile.warnings.get 1).condition = .hostSet ∧
      run.mode.mode = .run ∧ run.inForce = true ∧ gateOpen run.sig.motion (run.profile.warnings.get 0).gate = true ∧
      (run.profile.warnings.get 0).onDelay = 0 ∧ (run.profile.warnings.get 1).onDelay ≠ 0 ∧
      (run.warn.rows.get 0).present = false ∧ (run.warn.rows.get 0).state = .inactive) ∧
    (parked.hostReady ∧ parked.mode.mode ≠ .run) := by decide +kernel

theorem witness_WarningCellViolations :
    run.hostReady ∧ (0 : Word) ≠ Config.ackWord ∧ (0 : Word) ≠ Config.setWord ∧ (0 : Word) ≠ Config.resetWord ∧
      (0x7 : BitVec 4) ≠ 0xF ∧ (run.profile.warnings.get 95).condition ≠ .hostSet := by decide +kernel

theorem witness_DisplayOrder :
    let s := withWarning 1 { state := .activeUnack } (withWarning 0 { state := .activeAck } run)
    (∀ w, (s.profile.warnings.get w).priority ≤ 255) ∧ s.displayOrder[0]? = some 1 ∧ s.displayOrder[1]? = some 0 := by
  decide +kernel

theorem witness_TelltaleCommanded :
    (run.mode.mode = .run ∧ run.inForce = true ∧ run.ind.lampCheck = none ∧ run.svc.test ≠ .lamp) ∧
    ({ run with ind := { lampCheck := some 0 } }.ind.lampCheck.isSome = true ∧ { run with svc := { test := .lamp } }.svc.test = .lamp) ∧
    (let s := withWarning 0 { state := .activeUnack } run;
      (s.profile.lamps.get 0).sources.any (s.sourceTrue 0) = true ∧ (s.profile.lamps.get 0).blinkUnack = true ∧
        LampSource.warning 0 ∈ (s.profile.lamps.get 0).sources ∧ (s.warn.rows.get 0).state = .activeUnack) ∧
    (let s := withWarning 0 { state := .activeAck } run;
      (s.profile.lamps.get 0).sources.any (s.sourceTrue 0) = true ∧
        ∀ w, ¬ (LampSource.warning w ∈ (s.profile.lamps.get 0).sources ∧ (s.warn.rows.get w).state = .activeUnack)) ∧
    (run.profile.lamps.get 47).sources.any (run.sourceTrue 47) = false := by decide +kernel

/-- Telltale `k` replaced. -/
def withLamp (k : Fin 48) (x : Lamp) (s : State) : State := { s with ind := { s.ind with lamps := s.ind.lamps.set k x } }

theorem witness_TelltaleCommanded_other_modes :
    (∀ m ∈ [parking, parked], m.inForce = true ∧ (m.mode.mode = .parking ∨ m.mode.mode = .parked) ∧
      LampSource.warning 0 ∈ (m.profile.lamps.get 0).sources ∧
      (withWarning 0 { state := .activeAck } m).commanded 0 = .on ∧ (withWarning 0 { state := .activeUnack } m).commanded 0 = .on ∧
      (withWarning 0 { state := .pending } m).commanded 0 = .off ∧
      { m with sup := { state := .normal }, ind := { requestLow := 1 } }.commanded 0 = .off ∧
      { m with profStatus := .noProfile }.commanded 0 = .off) ∧
    (let s := { run with profStatus := .noProfile };
      s.profStatus = .noProfile ∧ s.commanded 0 = .on ∧ (1 : Fin 48) ≠ 0 ∧ s.commanded 1 = .off ∧ s.commanded 47 = .off) ∧
    ((start .none).profStatus = .notYet ∧ (start .none).commanded 0 = .off) ∧
    (let s := withWarning 0 { state := .activeAck } { start .none with profStatus := .inForce, profile := prof };
      s.inForce = true ∧ s.mode.mode = .start ∧ s.commanded 0 = .off) := by decide +kernel

theorem witness_BlinkAndOpenLoad :
    (let s := withLamp 0 { commanded := .blink, senseOpen := true } { run with ind := { blink := .onPhase 500 } };
      s.running ∧ s.ind.blink = .onPhase 500 ∧ (s.ind.lamps.get 0).commanded = .blink) ∧
    (let s := withLamp 0 { commanded := .blink } { run with ind := { blink := .offPhase 500 } };
      s.running ∧ s.ind.blink = .offPhase 500 ∧ (s.ind.lamps.get 0).commanded = .blink ∧ (s.profile.lamps.get 0).sensing = true) ∧
    (let s := withLamp 0 { commanded := .on, faultTimer := some 3 } { run with ind := { blink := .offPhase 500 } };
      (s.ind.lamps.get 0).commanded = .on ∧ (s.profile.lamps.get 0).sensing = true ∧ (s.ind.lamps.get 47).commanded = .off) ∧
    500 ≤ 500 ∧
    (true ≠ (run.ind.lamps.get 47).senseOpen) ∧
    (let s := withLamp 0 { faultTimer := some 200 } run;
      s.running ∧ (s.ind.lamps.get 0).faultTimer = some 200 ∧ (s.ind.lamps.get 0).lampOpen = false) ∧
    (let s := withLamp 0 { clearTimer := some 200, lampOpen := true } run;
      s.running ∧ (s.ind.lamps.get 0).clearTimer = some 200 ∧ (s.ind.lamps.get 0).lampOpen = true) := by decide +kernel

theorem witness_LampRequests :
    (run.hostReady ∧ run.mode.mode ≠ .parked ∧ Memory.wf Config.sramErased run.sram = true ∧
      LampSource.hostRequest ∈ (run.profile.lamps.get 0).sources ∧
      run.ind.requestBit 0 ≠ ({ run.ind with requestLow := 1 }).requestBit 0) ∧
    (parked.hostReady ∧ parked.mode.mode = .parked) ∧
    ({ run with ind := { lampCheck := some 9 } }.running ∧ { run with ind := { lampCheck := some 9 } }.ind.lampCheck = some 9 ∧ run.profile.lampCheck ≤ 9) := by
  decide +kernel

/-- Gauge `g` replaced. -/
def withGauge (g : Fin 12) (x : Gauge) (s : State) : State := { s with ind := { s.ind with gauges := s.ind.gauges.set g x } }

theorem witness_GaugeEvents :
    (let s := withGauge 1 { state := .homing, homing := some 100, requested := 9 } run;
      s.running ∧ (s.ind.gauges.get 1).state = .homing ∧ (s.ind.gauges.get 1).homing = some 100 ∧
        stepsTime (s.profile.gauges.get 1) ≤ 100) ∧
    (let s := withGauge 1 { state := .parked, moving := true, position := 50, target := 50 } run;
      s.running ∧ (s.ind.gauges.get 1).position = (s.ind.gauges.get 1).target ∧ (s.ind.gauges.get 1).state = .parked ∧
        (s.ind.gauges.get 1).moving = true ∧ s.svc.test ≠ .gaugeSweep) ∧
    (let s := withGauge 1 { state := .test, sweep := some .up, moving := true, position := 100, target := 100 }
        (withGauge 0 { state := .test, sweep := some .down, moving := true } run);
      s.running ∧ (s.ind.gauges.get 0).position = (s.ind.gauges.get 0).target ∧ (s.ind.gauges.get 0).state = .test ∧
        (s.ind.gauges.get 0).sweep = some .down ∧ (s.ind.gauges.get 0).moving = true ∧ (s.ind.gauges.get 1).moving = true ∧
        (s.ind.gauges.get 1).position = (s.ind.gauges.get 1).target ∧
        (s.ind.gauges.get 1).state = .test ∧ (s.ind.gauges.get 1).sweep = some .up) ∧
    (run.ind.gauges.get 1).moving = false ∧
    (let s := withGauge 1 { state := .test, sweep := some .back, moving := true } { run with svc := { test := .gaugeSweep } };
      s.running ∧ (s.ind.gauges.get 1).position = (s.ind.gauges.get 1).target ∧ (s.ind.gauges.get 1).state = .test ∧
        (s.ind.gauges.get 1).sweep = some .back ∧ (s.ind.gauges.get 1).moving = true ∧ s.svc.test = .gaugeSweep ∧
        (∀ h, h ≠ 1 → (s.ind.gauges.get h).state ≠ .test) ∧
        ∃ h, h ≠ (1 : Fin 12) ∧ ((withGauge 0 { state := .test } s).ind.gauges.get h).state = .test) := by decide +kernel

theorem witness_BoundGaugePosition :
    ((4 : BitVec 16).toInt < (5 : BitVec 16).toInt ∧ (5 : BitVec 16).toInt ≤ (5 : BitVec 16).toInt) ∧
    ((0xFFF6 : BitVec 16).toInt < (10 : BitVec 16).toInt ∧ (0xFFF6 : BitVec 16).toInt ≤ (0xFFF6 : BitVec 16).toInt ∧
      (10 : BitVec 16).toInt ≤ (10 : BitVec 16).toInt ∧ (0xFFF6 : BitVec 16).toInt ≤ (0 : BitVec 16).toInt ∧
      (0 : BitVec 16).toInt ≤ (10 : BitVec 16).toInt) := by decide +kernel

/-- The chime replaced. -/
def withChime (c : Chime) (s : State) : State := { s with ind := { s.ind with chime := c } }

theorem witness_ChimePhases :
    run.running ∧ (300 ≤ 300 ∧ 1500 ≤ 1500 ∧ 3000 ≤ 3000 ∧ 1000 ≤ 1000) ∧
      (withChime { phase := .singleTone 300 } run).ind.chime.phase = .singleTone 300 ∧
      (withChime { phase := .singleTone 300 } run).ind.chime.test = none ∧
      (withChime { phase := .repeatTone 300 } run).ind.chime.phase = .repeatTone 300 ∧
      (withChime { phase := .repeatSilence 1500 } run).ind.chime.phase = .repeatSilence 1500 ∧
      (withChime { test := some (.tone 300) } run).ind.chime.test = some (.tone 300) ∧
      (withChime { test := some (.repeated 3000) } run).ind.chime.test = some (.repeated 3000) ∧
      (withChime { test := some (.steady 1000) } { run with svc := { test := .chime } }).ind.chime.test = some (.steady 1000) ∧
      (withChime { test := some (.steady 1000) } { run with svc := { test := .chime } }).svc.test = .chime := by decide +kernel

theorem witness_CapturedWritesAreHeld :
    run.running ∧ run.portFree = true ∧ run.path.windowOpen = true ∧ run.mode.mode ≠ .parked ∧
      (True ↔ (run.profile.signals.get 1).source = .host) ∧ (False ↔ (run.profile.signals.get 255).source = .host) ∧
      (True ↔ (run.profile.gauges.get 1).mode = .host) ∧ (False ↔ (run.profile.gauges.get 11).mode = .host) ∧
      (parked.running ∧ parked.portFree = true ∧ parked.path.windowOpen = true ∧ parked.mode.mode = .parked) ∧
      ((start .none).running ∧ (start .none).portFree = true ∧ (start .none).path.windowOpen = false) := by decide +kernel

/-- An access held at the P-port. -/
def holding (h : HeldAccess) (s : State) : State := { s with path := { s.path with held := some h } }

theorem witness_CapturedWriteGrant :
    (let s := holding (.signal 1 42) run;
      s.running ∧ s.hostGranted = true ∧ Memory.wf Config.sramErased s.sram = true ∧ s.path.held = some (.signal 1 42) ∧
        s.path.windowOpen = true ∧ s.mode.mode ≠ .parked ∧ s.inForce = true ∧ (s.profile.signals.get 1).source = .host) ∧
    (let s := holding (.gauge 1 4095) (withGauge 1 { state := .ready } run);
      s.running ∧ s.hostGranted = true ∧ s.path.held = some (.gauge 1 4095) ∧ s.path.windowOpen = true ∧ s.mode.mode ≠ .parked ∧
        (s.profile.gauges.get 1).mode = .host ∧ (s.ind.gauges.get 1).state = .ready) ∧
    ((holding (.gauge 1 0) run).ind.gauges.get 1).state ≠ .ready ∧
    (let s := holding (.gauge 1 0) parked;
      s.running ∧ s.hostGranted = true ∧ Memory.wf Config.sramErased s.sram = true ∧
        s.path.held = some (.gauge 1 0) ∧ s.mode.mode = .parked) ∧
    ((holding (.signal 1 0) (start .none)).path.windowOpen = false ∧
      (holding (.signal 1 0) (start .none)).path.held = some (.signal 1 0)) ∧
    (holding (.forwarded (.read 0)) run).path.held = some (.forwarded (.read 0)) ∧
      (holding (.forwarded (.read 0)) run).hostGranted = true := by decide +kernel

theorem witness_WindowWrites :
    (run.running ∧ run.portFree = true ∧ Memory.wf Config.sramErased run.sram = true) ∧
    (run.windowOffset 0 = none ∧ run.windowOffset 0x0FEFFF = none ∧ run.windowOffset 0x0FF000 = some 0 ∧
      run.windowOffset 0x0FFFFF = some 0x3FFC ∧ run.windowOffset 0x100000 = none) ∧
    ((∀ off ∈ [0x0460, 0x047C, 0x0688, 0x068C, 0x06B0, 0x06FC, 0x1000, 0x1FFC, 0x2000, 0x3FFC],
        isLiveCell off = false ∧ isReadOnly off = false ∧ isOwned off = false) ∧ run.ctrl.store = .none) ∧
    { run with ctrl := { store := .validating } }.ctrl.store ≠ .none ∧ (0xE : BitVec 4) ≠ 0xF ∧
    (run.granted ∧ taken.running ∧ taken.portFree = true ∧ ¬ taken.granted) ∧
    (start .none).path.windowOpen = false := by decide +kernel

theorem witness_ImageWordReads :
    (run.running ∧ run.portFree = true ∧ run.path.windowOpen = true ∧ run.windowOffset 0 = none) ∧
    (∀ off ∈ [0x0690, 0x069C, 0x06A0, 0x0698], run.windowOffset (run.windowWordAddr off) = some off) ∧
    (∀ off ∈ [0x0460, 0x047C, 0x0680, 0x068C, 0x06B0, 0x06FC, 0x1000, 0x1FFC, 0x2000, 0x3FFC],
      run.windowOffset (run.windowWordAddr off) = some off ∧
        (0x0460 ≤ off ∧ off < 0x0480 ∨ 0x0680 ≤ off ∧ off < 0x0690 ∨ 0x06B0 ≤ off ∧ off < 0x0700 ∨ 0x1000 ≤ off)) ∧
    (∀ off ∈ [0, 0x045C, 0x0600, 0x0FFC], run.windowOffset (run.windowWordAddr off) = some off ∧
      isImageOffset off = true ∧ (off < 0x0480 ∨ 0x0600 ≤ off)) ∧
    (∀ w ∈ [(0 : Fin 96), 95], run.windowOffset (run.windowWordAddr (offWarning w)) = some (offWarning w) ∧
      isImageOffset (offWarning w) = true ∧ 0x0480 ≤ offWarning w ∧ offWarning w < 0x0600) ∧
    (let s := { run with path := { run.path with queue := [(4, 9)], resync := [8] } };
      (4, 9) ∈ s.path.queue ∧ (s.path.queue.map Prod.fst).Nodup ∧ 8 ∉ s.path.queue.map Prod.fst ∧ 8 ∈ s.path.resync ∧
        12 ∉ s.path.queue.map Prod.fst ∧ 12 ∉ s.path.resync) ∧
    ((start .none).windowOffset ((start .none).windowWordAddr 0) = some 0 ∧ (start .none).path.windowOpen = false) := by
  decide +kernel

/-- A queue of `n` entries for the offsets 0, 4, 8 and so on. -/
def queueOf (n : Nat) : MemoryPath := { queue := (List.range n).map (fun k => (4 * k, 0)), resync := [1000], windowOpen := true }

theorem witness_OfferedImages :
    4 ∈ (queueOf 2).queue.map Prod.fst ∧ (1000 ∉ (queueOf 2).queue.map Prod.fst ∧ 1000 ∈ (queueOf 2).resync) ∧
    (2000 ∉ (queueOf 31).queue.map Prod.fst ∧ 2000 ∉ (queueOf 31).resync ∧ (queueOf 31).queue.length < 32) ∧
    (23 ≤ (queueOf 23).queue.length ∧ 2000 ∉ (queueOf 23).queue.map Prod.fst ∧ (queueOf 22).queue.length < 23 ∧
      8 ≤ (queueOf 8).queue.length ∧ (queueOf 7).urgent = false ∧ 2000 ∉ (queueOf 8).queue.map Prod.fst) ∧
    (2000 ∉ (queueOf 32).queue.map Prod.fst ∧ 2000 ∉ (queueOf 32).resync ∧ 32 ≤ (queueOf 32).queue.length) := by decide +kernel

theorem witness_ImageWriter :
    (let s := { run with path := { run.path with queue := [(4, 9)] } };
      s.running ∧ s.path.queue = [(4, 9)] ∧ s.path.inFlight = none ∧ s.path.held = none ∧ s.path.urgent = false ∧
        Memory.wf Config.sramErased s.sram = true ∧ (holding (.signal 1 0) s).path.held.isSome = true) ∧
    (let s := { run with path := { run.path with queue := [(4, 9)], inFlight := some (4, 8) } };
      s.running ∧ s.path.inFlight = some (4, 8) ∧ s.path.awaited = none ∧ s.mode.mode ≠ .parking ∧
        Memory.wf Config.sramErased s.sram = true ∧
        (after .imageWriteComplete (holding (.forwarded (.read 5)) s)).granted ∧
        (after .imageWriteComplete (holding (.forwarded (.write 0 5 0xF)) s)).granted) ∧
    (let s := holding (.forwarded (.read 5)) { run with path := { run.path with queue := (queueOf 24).queue, inFlight := some (0, 0), urgent := true } };
      s.running ∧ s.path.queue.head? = some (0, 0) ∧ ¬ (after .imageWriteComplete s).granted) ∧
    (∀ n ∈ [(9, false), (10, true)],
      let s := { run with path := { run.path with queue := (queueOf n.1).queue, inFlight := some (0, 0), urgent := true } };
      s.running ∧ s.path.queue.head? = some (0, 0) ∧ (after .imageWriteComplete s).path.urgent = n.2) ∧
    (let s := { run with path := { run.path with queue := (queueOf 8).queue, inFlight := some (0, 1), urgent := true } };
      s.running ∧ ((0, 0) : Nat × Word) ≠ (0, 1) ∧ 8 ≤ s.path.queue.length ∧ (after .imageWriteComplete s).path.urgent = true) ∧
    (let s := { run with path := { queue := [(4, 9)], inFlight := some (4, 9), awaited := some [4] } };
      s.running ∧ s.path.held = none ∧ s.path.queue = [(4, 9)] ∧ s.path.inFlight = some (4, 9) ∧ s.path.resync = [] ∧ s.path.awaited = some [(4, 9).1] ∧
        s.mode.mode ≠ .start) := by decide +kernel

theorem witness_CommandsTaken :
    (run.running ∧ run.portFree = true ∧ run.path.command = none ∧ Memory.wf Config.sramErased run.sram = true ∧
      run.mode.mode = .run ∧ run.goodNonzero run.profile.ignition = false ∧ run.ctrl.operation = .none ∧ run.fm.loaded = true ∧
      run.ctrl.store = .none ∧ run.fm.present = []) ∧
    (parking.running ∧ parking.portFree = true ∧ parking.path.command = none ∧ parking.mode.mode = .parking) ∧
    ({ run with svc := { level := true } }.svc.level = true ∧ { run with svc := { level := true } }.fm.clearing = false) ∧
    { run with ctrl := { operation := .countersWrite [] false } }.ctrl.operation ≠ .none := by decide +kernel

/-- The workshop level held and `n` codes present, of the kind SIGNAL_STALE. -/
def presentCodes (n confirm : Nat) : State :=
  { run with
    profile := { prof with confirm := confirm }
    svc := { level := true, address := some 5 }
    fm := { loaded := true, present := (List.range n).map (fun k => { kind := .signalStale, subject := BitVec.ofNat 8 k }) } }

theorem witness_CommandsTaken_clear :
    (let s := presentCodes 33 100;
      s.svc.level = true ∧ s.fm.clearing = false ∧ s.profile.confirm ≠ 0 ∧ s.fm.present[31]? ≠ none ∧
        (s.takeClear .command).fm.full = true ∧ (s.takeClear .command).fm.overflow = 1 ∧
        (s.takeClear .command).fm.records.get 31 =
          some { code := { kind := .signalStale, subject := 31 }, timer := some 0 }) ∧
    (let s := presentCodes 32 0;
      s.profile.confirm = 0 ∧ (s.takeClear .service).fm.full = false ∧ (s.takeClear .service).fm.overflow = 0 ∧
        ((s.takeClear .service).fm.records.get 31).any (fun r => r.state = .active ∧ r.occurrence = 1) = true) := by decide +kernel

theorem witness_CommandsRefused :
    (run.running ∧ run.portFree = true ∧ run.path.command = none ∧ run.svc.level = false ∧ 6 < (7 : Byte).toNat ∧
      (1 ≤ (1 : Byte).toNat ∧ (6 : Byte).toNat ≤ 6)) ∧
    ((start .none).running ∧ (start .none).portFree = true ∧ (start .none).path.command = none ∧ (start .none).mode.mode = .start) ∧
    (parked.running ∧ parked.mode.mode = .parked ∧ parking.mode.mode ≠ .run) ∧
    (let s := { run with svc := { level := true }, fm := { clearing := true } };
      s.running ∧ s.path.command = none ∧ s.svc.level = true ∧ s.fm.clearing = true) ∧
    (let s := withEntry 0 { value := 1, quality := .good } { run with profile := { prof with ignition := some 0 } };
      s.running ∧ s.goodNonzero s.profile.ignition = true) ∧
    { run with path := { run.path with command := some 2 } }.path.command.isSome = true := by decide +kernel

theorem witness_AttentionEnable :
    (run.running ∧ run.portFree = true ∧ Memory.wf Config.sramErased run.sram = true ∧ run.granted) ∧
    (taken.running ∧ taken.portFree = true ∧ Memory.wf Config.sramErased taken.sram = true ∧ ¬ taken.granted) := by decide +kernel

/-- A supervision state in `run`. -/
def supervised (u : Supervision) : State := { run with sup := u }

theorem witness_AliveWrites :
    (8 : Byte) = (0x108 : Word).setWidth 8 ∧ (run.running ∧ run.portFree = true ∧ Memory.wf Config.sramErased run.sram = true) ∧
    parked.mode.mode = .parked ∧ (start .none).mode.mode = .start ∧ (start .none).inForce = false ∧
    (run.sup.reference ≠ some (8 - 1) ∧ run.sup.state ≠ .lost) ∧ (supervised { state := .lost }).sup.state = .lost ∧
    ((supervised { state := .normal, reference := some 7 }).sup.reference = some (8 - 1) ∧
      (supervised { state := .normal, reference := some 255 }).sup.reference = some ((0 : Byte) - 1)) ∧
    ((supervised { state := .lost, reference := some 7, run := 1 }).sup.run < 2 ∧
      2 ≤ (supervised { state := .lost, reference := some 7, run := 2 }).sup.run) ∧
    (supervised { reference := some 7 }).sup.state = .starting := by decide +kernel

theorem witness_SupervisionExpiries :
    run.running ∧ run.path.awaited = none ∧ run.profile.supTimeout ≤ 50 ∧ 5000 ≤ 5000 ∧ 100 ≤ 100 ∧
    ((supervised { timer := some (.grace, 5000) }).sup.state = .starting ∧
      (supervised { timer := some (.grace, 5000) }).sup.timer = some (.grace, 5000)) ∧
    ((supervised { state := .normal, timer := some (.timeout, 50) }).sup.state = .normal ∧
      (supervised { state := .normal, timer := some (.timeout, 50) }).sup.timer = some (.timeout, 50)) ∧
    ((supervised { state := .lost, timer := some (.timeout, 50) }).sup.state = .lost ∧
      (supervised { state := .lost, timer := some (.timeout, 50) }).sup.timer = some (.timeout, 50)) ∧
    (supervised { pulse := some 100 }).sup.pulse = some 100 := by decide +kernel

/-- Slot `i` of the fault memory with a record. -/
def withRecord (i : Fin 32) (r : Record) (present : List FaultCode) : State :=
  { run with fm := { run.fm with records := run.fm.records.set i (some r), present := present } }

theorem witness_FaultRecords :
    (let r : Record := { code := ⟨.hostLost, 0⟩, timer := some 0 };
      (withRecord 31 r []).running ∧ (withRecord 31 r []).mode.mode ≠ .parked ∧ (withRecord 31 r []).fm.records.get 31 = some r ∧
        r.state = .pending ∧ r.timer = some 0 ∧ (withRecord 31 r []).profile.confirm ≤ 0 ∧ r.code.kind ≠ .configMemory ∧
        r.code.kind ≠ .profileBad) ∧
    (let s := withRecord 0 { code := ⟨.hostLost, 0⟩, state := .active } [⟨.hostLost, 0⟩];
      (⟨.hostLost, 0⟩ ∈ s.fm.present ∧ ⟨.supplyLow, 0⟩ ∉ s.fm.present ∧ s.fm.present.length < 64) ∧
        (s.fm.slotOf ⟨.supplyLow, 0⟩ = none ∧ s.fm.freeSlot = some 1) ∧
        (s.fm.slotOf ⟨.hostLost, 0⟩ = some 0 ∧ s.fm.records.get 0 = some { code := ⟨.hostLost, 0⟩, state := .active })) ∧
    (let s := withRecord 0 { code := ⟨.hostLost, 0⟩ } ((List.range 64).map (fun k => ⟨.lampOpen, BitVec.ofNat 8 k⟩));
      64 ≤ s.fm.present.length ∧ ⟨.hostLost, 0⟩ ∉ s.fm.present) := by decide +kernel

/-- `run` with every slot of the fault memory taken, by PASSIVE records when `b` and by ACTIVE ones otherwise; the healing count of
slot 31 is the highest. -/
def fullTable (b : Bool) : State :=
  { run with
    profile := { prof with heal := 40 }
    fm :=
      { run.fm with
        records := .ofFn (fun i => some
          { code := ⟨.lampOpen, BitVec.ofNat 8 i.val⟩
            state := if b then .passive else .active
            healing := if i = 31 then 255 else 0
            seen := false }) } }

theorem witness_FaultRecords_full_table :
    (∀ b ∈ [true, false], ⟨.hostLost, 0⟩ ∉ (fullTable b).fm.present ∧ (fullTable b).fm.present.length < 64 ∧
      (fullTable b).fm.slotOf ⟨.hostLost, 0⟩ = none ∧ ∀ i, ((fullTable b).fm.records.get i).isSome = true) ∧
    (∀ i, i ≠ 31 → ∀ r ∈ (fullTable true).fm.records.get i, r.healing.toNat < (255 : Byte).toNat) ∧
    (((fullTable true).fm.records.get 31).map Record.state = some .passive ∧
      ((fullTable true).fm.records.get 31).map Record.healing = some 255) ∧
    (∀ i, ∀ r ∈ (fullTable false).fm.records.get i, r.state ≠ .passive) ∧
    (((fullTable true).fm.records.get 0).map (fun r => (r.state, r.seen)) = some (.passive, false) ∧
      (fullTable true).profile.heal ≠ 0 ∧ (fullTable true).profile.heal ≤ (satInc (255 : Byte)).toNat ∧
      (satInc (0 : Byte)).toNat < (fullTable true).profile.heal) := by
  decide +kernel

theorem witness_PassiveRecordReappears :
    let r : Record := { code := ⟨.lineSilent, 2⟩, state := .passive, occurrence := 255 }
    let s := withRecord 31 r ((List.range 63).map (fun k => ⟨.lampOpen, BitVec.ofNat 8 k⟩))
    ⟨.lineSilent, 2⟩ ∉ s.fm.present ∧ s.fm.present.length < 64 ∧ s.fm.slotOf ⟨.lineSilent, 2⟩ = some 31 ∧
      s.fm.records.get 31 = some r ∧ r.code = ⟨.lineSilent, 2⟩ ∧ r.state = .passive := by decide +kernel

/-- `run` with an operation of the controller. -/
def busy (o : Operation) : State := { run with ctrl := { operation := o } }

/-- A page of a byte. -/
def page (b : Byte) : List Byte := List.replicate 64 b

theorem witness_FaultSlotWrites :
    (let s := busy (.slotWrite 31 (page 0) true true);
      s.running ∧ s.mode.mode ≠ .parking ∧ s.fm.loaded = true ∧ s.ctrl.operation = .slotWrite 31 (page 0) true true ∧
        (page 0).length = 64 ∧ (page 1).length = 64 ∧ page 1 ≠ page 0 ∧ Memory.wf Config.cfgErased s.cfg = true) ∧
    (let s := { busy (.slotWrite 31 (page 0) false true) with
        fm := { loaded := true, clearing := true, outstanding := [31], requester := some .command } };
      s.ctrl.operation = .slotWrite 31 (page 0) false true ∧ s.fm.clearing = true ∧
        s.fm.outstanding.filter (fun j => j ≠ 31) = [] ∧ s.fm.requester = some .command) ∧
    (let s := withRecord 3 { code := ⟨.configMemory, 0⟩, state := .passive } [];
      s.fm.slotOf ⟨.configMemory, 0⟩ = some 3 ∧ s.fm.records.get 3 = some { code := ⟨.configMemory, 0⟩, state := .passive }) := by
  decide +kernel

theorem witness_CountersWrites :
    (∀ retried ∈ [true, false], (busy (.countersWrite (page 0) retried)).running ∧
      (busy (.countersWrite (page 0) retried)).mode.mode ≠ .parking ∧ (busy (.countersWrite (page 0) retried)).fm.loaded = true ∧
      (busy (.countersWrite (page 0) retried)).ctrl.operation = .countersWrite (page 0) retried ∧
      Memory.wf Config.cfgErased (busy (.countersWrite (page 0) retried)).cfg = true) ∧
    (page 0).length = 64 ∧ (page 1).length = 64 ∧ page 1 ≠ page 0 ∧
    (run.ctrl.store = .none ∧ run.ctrl.restartWaiting = false ∧ run.ctrl.countersPending = false ∧ run.fm.writeQueue = []) ∧
    ({ parking with fm := { parking.fm with writeQueue := [31] } }.mode.mode = .parking ∧
      { parking with fm := { parking.fm with writeQueue := [31] } }.fm.writeQueue ≠ []) ∧
    (let s := withRecord 3 { code := ⟨.configMemory, 0⟩, state := .passive } [];
      s.fm.slotOf ⟨.configMemory, 0⟩ = some 3 ∧ s.fm.records.get 3 = some { code := ⟨.configMemory, 0⟩, state := .passive }) := by
  decide +kernel

/-! ### A stored profile and a staged one: 6856 bytes with a correct check word -/

/-- The bytes of the smallest valid profile: its length, its check word and the address 5. -/
def image (a : Nat) : Byte := if a = 6 then 0xC8 else if a = 7 then 0x1A else if a = 8 then 0x32 else if a = 9 then 0xE5 else if a = 10 then 5 else 0

/-- `run` with the image in the staging area and a store that is validating. -/
def staged : State :=
  { run with
    sram := [(0x3FE006, 0xC8), (0x3FE007, 0x1A), (0x3FE008, 0x32), (0x3FE009, 0xE5), (0x3FE00A, 5)]
    ctrl := { store := .validating } }

theorem witness_StoreValidation :
    (staged.running ∧ staged.mode.mode ≠ .parking ∧ staged.ctrl.store = .validating ∧ staged.ctrl.operation = .none ∧
      staged.fm.loaded = true ∧ staged.path.inFlight = none ∧ staged.path.queue = [] ∧ staged.path.held = none) ∧ validProfile staged.stagingByte = true ∧
    validProfile { staged with sram := [] }.stagingByte = false ∧
    validProfile { parking with ctrl := { store := .validating } }.stagingByte = false ∧
    { staged with ctrl := { store := .validating, operation := .countersWrite [] false } }.ctrl.operation ≠ .none ∧
    (let s : State := { taken with ctrl := { store := .validating } };
      s.running ∧ s.ctrl.store = .validating ∧ s.path.inFlight ≠ none ∧ s.path.queue ≠ []) := by
  decide +kernel

theorem witness_ProfilePageWrites :
    (∀ o ∈ [Operation.storeWrite {} 108 107 (page 0) true, .storeWrite {} 108 108 (page 0) false, .storeAbort (page 0)],
      (busy o).running ∧ (busy o).mode.mode = .run ∧ (busy o).fm.loaded = true ∧ (busy o).ctrl.operation = o ∧
        Memory.wf Config.cfgErased (busy o).cfg = true) ∧
    (page 0).length = 64 ∧ (page 1).length = 64 ∧ page 1 ≠ page 0 ∧ 107 < 108 ∧
    ((busy .none).path.inFlight = none ∧ (busy .none).path.queue = [] ∧ (busy .none).path.held = none) ∧
    (let s : State := { taken with ctrl := { operation := .storeRead {} 108 108 } };
      s.running ∧ s.mode.mode = .run ∧ s.fm.loaded = true ∧ s.ctrl.operation = .storeRead {} 108 108 ∧ s.path.queue = [(4, 77)] ∧
        s.path.inFlight = some (4, 77) ∧ s.path.resync = [] ∧ s.path.awaited = none ∧ s.path.held = none ∧
        Memory.wf Config.cfgErased s.cfg = true) := by decide +kernel

/-- The image as cells. -/
def imageCells : List Host.Cell := (List.range' 0 6856).map (fun a => (a, image a))

/-- `run` with the image stored and the RESTART read in progress. -/
def stored : State := { busy .restartRead with cfg := imageCells }

theorem stored_bytes : stored.cfgByte = fun x => if 0 ≤ x ∧ x < 0 + 6856 then image x else 0xFF := by
  funext x
  exact readByte_range' 0xFF image 6856 x 0

theorem witness_RestartRead :
    (stored.running ∧ stored.mode.mode = .run ∧ stored.fm.loaded = true ∧ stored.ctrl.operation = .restartRead) ∧
    (∃ p, stored.storedProfile = some p) ∧ (busy .restartRead).storedProfile = none := by
  refine ⟨⟨rfl, rfl, rfl, rfl⟩, ⟨readProfile stored.cfgByte, ?_⟩, by decide +kernel⟩
  have h : validProfile stored.cfgByte = true := by rw [stored_bytes]; decide +kernel
  have t : stored.ctrl.torn = [] := rfl
  simp [State.storedProfile, h, t]

/-- `run` with a state of the service unit. -/
def serving (u : ServiceUnit) : State := { run with svc := { u with address := some 5 } }

theorem witness_ServiceReception :
    (run.running ∧ run.serviceListens = true ∧ run.svc.line = .idle ∧ run.svc.wakeChar = false ∧
      (serving { wakeChar := true }).svc.line = .idle ∧ (serving { wakeChar := true }).svc.wakeChar = true) ∧
    ((ServiceChar.ofByte 0x7F).good = true ∧ 1 ≤ (ServiceChar.ofByte 0x7F).data.toNat ∧ (ServiceChar.ofByte 0x7F).data.toNat ≤ 0x7F) ∧
    ({ ServiceChar.ofByte 1 with stop := false }.good = false ∧ (ServiceChar.ofByte 0).data = 0 ∧
      16 < (ServiceChar.ofByte 17).data.toNat ∧ (ServiceChar.ofByte 16).data.toNat ≤ 16 ∧ (ServiceChar.ofByte 16).data ≠ 0) ∧
    ((serving { line := .receiving, received := [5, 0x90] }).svc.line = .receiving ∧
      (serving { line := .receiving, received := [5, 0x90] }).svc.received.length = 2 ∧
      (serving { line := .receiving, received := [5] }).svc.received.length = 1 ∧
      (let l : List Byte := [5, 0x90, 1]; 3 ≤ l.length ∧ l.length < (l.getD 2 0).toNat + 3)) ∧
    ((serving { line := .receiving, received := [5], gap := some 21 }).svc.gap = some 21 ∧
      (serving { line := .receiving, received := [5], gap := some 21 }).svc.received ≠ []) ∧
    ((serving { line := .skip, gap := some 21 }).svc.line = .skip ∧ (serving { line := .skip, gap := some 21 }).svc.gap = some 21) ∧
    ((serving { line := .reply, turnaround := some 3 }).svc.line = .reply ∧
      (serving { line := .reply, turnaround := some 3 }).svc.turnaround.isSome = true) := by decide +kernel

theorem witness_ReadRequests :
    (run.running ∧ run.serviceListens = true ∧ run.svc.line = .idle ∧ run.svc.address = some 5 ∧ (5 : Byte) ≠ 0x7F ∧
      0x80 ≤ (0x80 : Byte).toNat ∧ (0xFE : Byte).toNat ≤ 0xFE) ∧
    (∀ x ∈ [(Request.identify, ([] : List Byte)), (.readFaults, [7]), (.readFreeze, [10, 0]), (.readSignals, [0, 1, 2, 3, 4, 5, 6, 255]),
        (.readDoors, []), (.readLines, [2]), (.workshopStatus, [])],
      x.1.isRead = true ∧ x.1.countOk x.2 = true ∧ x.1.rangeOk x.2 = true) ∧
    (let r : Record := { code := ⟨.hostLost, 0⟩, state := .active };
      (withRecord 0 r []).fm.records.get 0 = some r ∧ r.state ≠ .pending ∧
        BitVec.ofNat 8 r.code.kind.toNat = ([10, 0] : List Byte).getD 0 0 ∧ r.code.subject = ([10, 0] : List Byte).getD 1 0) ∧
    (∀ i, run.fm.records.get i = none) ∧ (parked.running ∧ parked.mode.mode = .parked) := by decide +kernel

theorem witness_RequestsRefusedOrDropped :
    (run.running ∧ run.serviceListens = true ∧ run.svc.line = .idle ∧ run.svc.address = some 5) ∧
    (Request.identify.countOk [1] = false ∧ (List.replicate 15 (1 : Byte)).length ≤ 15) ∧
    (Request.readFaults.countOk [8] = true ∧ Request.readFaults.rangeOk [8] = false) ∧ Request.stopTest.isRead = false := by
  decide +kernel

theorem witness_WorkshopRequests :
    (let s := serving { level := true };
      s.running ∧ s.serviceListens = true ∧ s.svc.line = .idle ∧ s.svc.address = some 5 ∧ s.mode.mode = .run ∧ s.svc.level = true ∧
        s.stopUnack = false ∧ s.svc.test = .none ∧ s.fm.clearing = false ∧ s.inForce = true ∧
        (∀ g, (s.ind.gauges.get g).state.homed = false)) ∧
    ((∀ p ∈ [([1, 30] : List Byte), [2], [3]], Request.outputTest.countOk p = true ∧ Request.outputTest.rangeOk p = true)) ∧
    (parking.mode.mode ≠ .run ∧ parking.serviceListens = true ∧ run.svc.level = false) ∧
    (withWarning 0 { state := .activeUnack } (serving { level := true })).stopUnack = true ∧
    (serving { level := true, test := .chime }).svc.test ≠ .none ∧
    ({ serving { level := true } with fm := { clearing := true } }).fm.clearing = true := by decide +kernel

theorem witness_WorkshopRequests_sweep :
    let s := withGauge 0 { state := .ready, moving := true, requested := 9, target := 9 }
      (withGauge 1 { state := .parked, position := 7 } (withGauge 2 { state := .homing } (serving { level := true })));
    let t := after (.outputTest .physical 0x90 [2]) s;
    ((s.ind.gauges.get 0).state = .ready ∧ (s.ind.gauges.get 0).moving = true ∧ (s.ind.gauges.get 0).position = 0) ∧
    ((s.ind.gauges.get 1).state = .parked ∧ (s.ind.gauges.get 1).moving = false) ∧
    ((s.ind.gauges.get 2).state ≠ .ready ∧ (s.ind.gauges.get 2).state ≠ .parked) ∧
    (t.ind.gauges.get 0).sweep = some .up ∧ (t.ind.gauges.get 1).sweep = some .down ∧ (t.ind.gauges.get 1).moving = true ∧
    (t.ind.gauges.get 2).state = .homing ∧ t.svc.test = .gaugeSweep := by decide +kernel

theorem test_sweep_of_a_gauge_that_stands_at_0_gives_no_arrival :
    let s := after (.outputTest .physical 0x90 [2]) (withGauge 1 { state := .ready } (serving { level := true }));
    (s.ind.gauges.get 1).state = .test ∧ (s.ind.gauges.get 1).sweep = some .down ∧ s.due (.arrival 1) = false ∧
      after (.arrival 1) s = s := by decide +kernel

theorem witness_StopTestRequest :
    (run.running ∧ run.mode.mode = .run ∧ run.svc.line = .idle ∧ run.svc.address = some 5 ∧ run.svc.test = .none) ∧
    (serving { line := .receiving, test := .lamp }).svc.test ≠ .none := by decide +kernel

theorem witness_ResponsesAndServiceTimers :
    ((serving { turnaround := some 3 }).running ∧ (serving { turnaround := some 3 }).svc.turnaround = some 3) ∧
    ((serving { transmitting := true, response := [1, 2] }).svc.transmitting = true ∧
      (serving { transmitting := true, response := [1, 2] }).svc.response[
        (serving { transmitting := true, response := [1, 2] }).svc.sent]? = some 1 ∧
      (ServiceChar.ofByte 1).good = true ∧ (ServiceChar.ofByte 1).data = 1 ∧
      (serving { transmitting := true, response := [1, 2] }).svc.sent + 1 ≠
        (serving { transmitting := true, response := [1, 2] }).svc.response.length) ∧
    ((serving { transmitting := true, response := [1, 2], sent := 1 }).svc.response[1]? = some 2 ∧
      (serving { transmitting := true, response := [1, 2], sent := 1 }).svc.sent + 1 = 2) ∧
    (ServiceChar.ofByte 3).data ≠ 1 ∧ (serving { testerTimer := some 5000 }).svc.testerTimer = some 5000 ∧
    ((serving { test := .lamp, testDuration := 1, testTimer := some 1000 }).svc.test = .lamp ∧
      (serving { test := .lamp, testDuration := 1, testTimer := some 1000 }).svc.testTimer = some 1000 ∧
      1000 * (serving { test := .lamp, testDuration := 1, testTimer := some 1000 }).svc.testDuration ≤ 1000) := by decide +kernel

theorem witness_EntryIntoParking :
    (let s := { run with mode := { run.mode with offTimer := some 0 }, svc := { test := .lamp } };
      s.running ∧ s.mode.mode = .run ∧ s.mode.offTimer = some 0 ∧ s.profile.ignitionOff ≤ 0 ∧ s.svc.test ≠ .none) ∧
    (let s := { parking with ctrl := { operation := .countersWrite (page 0) false } };
      s.running ∧ s.mode.mode = .parking ∧ s.fm.loaded = true ∧ s.ctrl.operation = .countersWrite (page 0) false ∧
        s.ctrl.countersPending = false ∧ s.ctrl.restartWaiting = false ∧ s.ctrl.store = .none ∧ s.goodNonzero s.profile.ignition = false ∧
        s.fm.writeQueue = [] ∧ s.path.command ≠ some 2 ∧ s.path.command ≠ some 3 ∧ s.mode.wakePending = {} ∧
        { s with svc := { testerActive := true } }.svc.testerActive = true ∧
        { s with fm := { loaded := true, writeQueue := [31] } }.fm.writeQueue = [31] ∧
        { s with path := { s.path with command := some 3 } }.path.command = some 3) ∧
    (let s := { parking with ctrl := { operation := .slotWrite 31 (page 0) true false } };
      s.ctrl.operation = .slotWrite 31 (page 0) true false ∧ s.fm.clearing = false) ∧
    (let s := withEntry 0 { value := 1, quality := .good } { parking with profile := { prof with ignition := some 0 } };
      s.goodNonzero s.profile.ignition = true ∧ s.mode.wakePending.union { ignition := true } ≠ {}) := by decide +kernel

/-! ## Witnesses of what a signal, a level and an ignition are judged by -/

/-- Signals 9 to 12 bound: service switch, parking brake, ignition and ack input, in a mode. -/
def bound (m : Mode) : State :=
  { run with
    mode := { run.mode with mode := m }
    profile := { prof with
      serviceSwitch := some 9
      parkingBrake := some 10
      ignition := some 11
      ackInput := some 12
      ignitionOff := 60
      lampCheck := 3
      signals := Table.const 256 { source := .host, high := 100 } } }

/-- The three conditions of the workshop level hold. -/
def workshop (level : Bool) (t : TestKind) : State :=
  withEntry 9 { value := 1, quality := .good } (withEntry 10 { value := 1, quality := .good }
    { bound .run with sig := { motion := .stopped }, svc := { run.svc with level := level, test := t } })

theorem witness_MotionFollowsTheReference_judged :
    (referenced .good 5 .stopped).deriveMotion.sig.motion ≠ (referenced .good 5 .stopped).sig.motion ∧
      ({ run with sig := { motion := .moving, hold := some 0 } }).sig.motion ≠ .stopped := by decide +kernel

theorem witness_WorkshopRequests_level :
    (let s := withEntry 9 { value := 0, quality := .good } (workshop true .lamp);
      s.svc.level = true ∧ s.judgeLevel.svc.level = false ∧ s.svc.test ≠ .none) ∧
    (let s := workshop false .none;
      s.svc.level = false ∧ s.judgeLevel.svc.level = true ∧ s.svc.test = .none) ∧
    (workshop true .lamp).judgeLevel.svc.level = true ∧
    (let s := workshop true .gaugeSweep;
      s.takesUpdates = true ∧ s.profile.serviceSwitch = some 9 ∧ s.profile.parkingBrake = some 10 ∧ s.svc.level = true ∧
        s.value 9 ≠ (s.deliver 9 0).value 9 ∧ (s.deliver 9 0).svc.level = false ∧ (s.deliver 9 0).svc.test = .none ∧
        s.quality 10 ≠ (s.deliver 10 101).quality 10 ∧ (s.deliver 10 101).svc.level = false) := by decide +kernel

/-- The ignition signal as it stands, in a mode, the ignition as it was, with or without an open drive cycle. -/
def ignition (m : Mode) (v : BitVec 16) (q : Quality) (was : Ignition) (cycle : Bool) (delay : Nat) : State :=
  let s := withEntry 11 { value := v, quality := q } (bound m)
  { s with
    mode := { s.mode with ignition := was, cycleOpen := cycle }
    profile := { s.profile with ignitionOff := delay } }

theorem witness_EntryIntoParking_ignition :
    (let s := ignition .parking 1 .good .off false 60; s.mode.mode ≠ .run ∧ s.judgeIgnition.mode.ignition = .on) ∧
    (let s := ignition .run 1 .good .off false 60;
      s.mode.mode = .run ∧ s.judgeIgnition.mode.ignition = .on ∧ s.mode.cycleOpen = false ∧ s.profile.lampCheck ≠ 0 ∧
        (s.profile.gauges.get 1).mode ≠ .off ∧ (s.ind.gauges.get 1).state ≠ .test ∧ (s.profile.gauges.get 11).mode = .off ∧
        s.mode.cycle.toNat ≠ 16777215 ∧ s.inForce = true ∧
        (let t := { s with profile := { s.profile with lampCheck := 0 }, mode := { s.mode with cycle := 0xFFFFFF } };
          t.profile.lampCheck = 0 ∧ t.mode.cycle.toNat = 16777215 ∧ t.judgeIgnition.mode.cycle = 0xFFFFFF)) ∧
    (let s := ignition .run 1 .good .on true 60; s.judgeIgnition.mode.ignition = .on ∧ s.mode.cycleOpen = true) ∧
    ((ignition .run 1 .stale .on true 60).judgeIgnition.mode.ignition = .unknown) ∧
    (let s := ignition .run 0 .good .off true 60; s.judgeIgnition.mode.ignition = .off ∧ s.mode.ignition = .off) ∧
    (let s := ignition .run 0 .good .on true 60;
      s.judgeIgnition.mode.ignition = .off ∧ s.mode.ignition ≠ .off ∧ s.profile.ignitionOff ≠ 0 ∧
        s.judgeIgnition.mode.offTimer = some 0) ∧
    (let s := ignition .run 0 .good .unknown true 0;
      s.judgeIgnition.mode.ignition = .off ∧ s.mode.ignition ≠ .off ∧ s.profile.ignitionOff = 0 ∧
        s.judgeIgnition.mode.mode = .parking) ∧
    (ignition .run 0 .good .off false 60).judgeIgnitionAtRun.mode.offTimer = some 0 ∧
    (let s := ignition .run 0 .good .off false 60;
      s.takesUpdates = true ∧ s.profile.ignition = some 11 ∧ s.value 11 ≠ (s.deliver 11 1).value 11 ∧ s.mode.mode = .run ∧
        (s.deliver 11 1).mode.ignition = .on ∧ s.mode.cycleOpen = false ∧
        s.quality 11 ≠ (s.deliver 11 101).quality 11 ∧ (s.deliver 11 101).mode.ignition = .unknown) := by decide +kernel

/-- The ack input as it was, a STOP warning 0 in a state and an unacknowledged warning 1 of a class. -/
def acking (v : BitVec 16) (before : AckLevel) (first : WarnState) (cls : WarnClass) : State :=
  let s := withEntry 12 { value := v, quality := .good } (bound .run)
  { s with
    profile := { s.profile with
      warnings := ((Table.const 96 {}).set 0 { condition := .hostSet, cls := .stop }).set 1 { condition := .hostSet, cls := cls } }
    warn := { s.warn with
      ackLevel := before
      rows := (s.warn.rows.set 0 { state := first, time := 5 }).set 1 { state := .activeUnack, time := 3 } } }

theorem witness_HostAckSetAndReset_input :
    ((bound .parking).profile.ackInput ≠ some 11 ∧ (bound .parking).mode.mode = .parking ∧ (bound .parked).mode.mode = .parked) ∧
    (let s := acking 1 .low .activeUnack .stop;
      s.profile.ackInput = some 12 ∧ s.mode.mode ≠ .parking ∧ s.mode.mode ≠ .parked ∧ s.warn.ackLevel = .low ∧
        s.quality 12 = .good ∧ s.value 12 ≠ 0 ∧ s.mode.mode = .run ∧ s.inForce = true ∧ s.path.windowOpen = true ∧
        s.displayOrder = [1, 0] ∧ (s.warn.rows.get 1).state = .activeUnack ∧
        ((s.ackInput 12).warn.rows.get 1).state = .activeAck ∧ ((s.ackInput 12).warn.rows.get 0).state = .activeUnack) ∧
    (let s := acking 1 .low .activeAck .info;
      s.displayOrder = [0] ++ 1 :: [] ∧ (s.warn.rows.get 0).state ≠ .activeUnack ∧ (s.warn.rows.get 1).state = .activeUnack ∧
        ((s.ackInput 12).warn.rows.get 1).state = .activeAck) ∧
    ((acking 0 .low .activeAck .stop).value 12 = 0 ∧ (acking 1 .high .activeAck .stop).warn.ackLevel ≠ .low) ∧
    ({ acking 1 .low .activeUnack .stop with profStatus := .noProfile }).warningsRun = false ∧
    (let s := { bound .run with warn := { ackLevel := .low } }; ∀ w, (s.warn.rows.get w).state ≠ .activeUnack) ∧
    (let s := acking 0 .low .activeUnack .stop;
      s.takesUpdates = true ∧ s.value 12 ≠ (s.deliver 12 1).value 12 ∧ (s.deliver 12 1).warn.ackLevel = .high ∧
        s.quality 12 ≠ (s.deliver 12 101).quality 12 ∧ (s.deliver 12 101).warn.ackLevel = .unknown) := by decide +kernel

/-- Telltales 1 and 47 name every other kind of source. -/
def sourced : State :=
  let c : LampCfg := { sources := [.signal 1, .doorAnyOpen, .doorOpen 5, .hostRequest, .hostLost] }
  { run with profile := { prof with lamps := (Table.const 48 c) } }

theorem witness_TelltaleCommanded_sources :
    (∀ k ∈ [(1 : Fin 48), 47], (sourced.profile.lamps.get k).sources.any (sourced.sourceTrue k) = false) ∧
    (let s := withEntry 1 { value := 5, quality := .substituted } sourced; s.canUse 1 ∧ s.value 1 ≠ 0 ∧ s.commanded 1 = .on) ∧
    (let s := { sourced with door := { openCount := 1 } }; 1 ≤ s.door.openCount ∧ s.commanded 1 = .on) ∧
    (let s := withDoor 5 { countsOpen := true } sourced; (s.door.doors.get 5).countsOpen = true ∧ s.commanded 1 = .on) ∧
    (let s := { sourced with sup := { state := .normal }, ind := { requestLow := 2, requestHigh := 0x8000 } };
      s.ind.requestLow.getLsbD 1 = true ∧ s.ind.requestHigh.getLsbD (47 - 32) = true ∧ s.sup.state = .normal ∧
        s.commanded 1 = .on ∧ s.commanded 2 = .off ∧ s.commanded 47 = .on ∧ s.commanded 46 = .off) ∧
    (let s := { sourced with ind := { requestLow := 2 } }; s.sup.state ≠ .normal ∧ s.commanded 1 = .off) ∧
    (let s := { sourced with sup := { state := .lost } }; s.sup.state = .lost ∧ s.commanded 1 = .on) := by decide +kernel

/-- A request in reception, its check character still to come. -/
def unchecked (l : List Byte) : State := serving { line := .receiving, received := l }

theorem witness_ServiceReception_last :
    (∀ l ∈ [([5, 0x90, 1, 0x01] : List Byte), [0x7F, 0x90, 1, 0x01], [5, 0x90, 1, 0x55], [0x7F, 0x90, 1, 0x55], [6, 0x90, 1, 0x01],
        [5, 0x7F, 1, 0x01], [5, 0xFF, 1, 0x01]],
      (unchecked l).svc.line = .receiving ∧ (ServiceChar.ofByte (xorAll l)).good = true ∧
        (∃ x ∈ [(5 : Byte), 6, 0x7F], ∃ y ∈ [(0x90 : Byte), 0x7F, 0xFF], ∃ c ∈ [(0x01 : Byte), 0x55],
          (unchecked l).svc.received = [x, y, 1, c] ++ []) ∧ (1 : Byte).toNat = ([] : List Byte).length + 1 ∧
        xorAll ((unchecked l).svc.received ++ [xorAll l]) = 0) ∧
    xorAll ((unchecked [5, 0x90, 1, 0x01]).svc.received ++ [0]) ≠ 0 ∧
    (0x7F : Byte).toNat < 0x80 ∧ 0xFE < (0xFF : Byte).toNat ∧ (unchecked []).svc.address ≠ some 6 ∧
    (unchecked []).svc.address = some 5 ∧ 0x80 ≤ (0x90 : Byte).toNat ∧ (0x90 : Byte).toNat ≤ 0xFE ∧
    Request.identify.code = 0x01 ∧ Request.ofCode 0x55 = none ∧ (unchecked []).svc.testerActive = false := by decide +kernel

/-- `run` with a record, a warning on display, a gauge that has arrived and counts. -/
def recorded : State :=
  withWarning 95 { state := .activeAck, present := true }
    { withGauge 1 { state := .ready, requested := 9, shown := 9 } run with
      fm := { run.fm with records := (Table.const 32 none).set 31 (some { kept with frame := some { entries := [⟨7, 0xFFFE, .stale⟩], motion := .moving, openCount := 6 } }) }
      path := { run.path with violations := 3 } }

theorem recorded_inv : recorded.Inv := by
  refine ⟨?_, ?_, ?_, ?_, ?_, ?_⟩
  · unfold MemoryPath.Inv; decide +kernel
  · intro w
    unfold recorded withWarning
    rw [Table.get_set]
    split
    · unfold Warning.Inv
      decide
    · rw [show (withGauge 1 _ run).warn.rows = Table.const 96 {} from rfl, Table.get_const]
      unfold Warning.Inv
      decide
  · unfold DoorUnit.Inv; decide +kernel
  · unfold FaultMemory.Inv; decide +kernel
  · decide +kernel
  · decide +kernel

theorem witness_ImageWordReads_layout :
    recorded.Inv ∧ recorded.displayOrder[0]? = some 95 ∧ recorded.displayOrder[1]? = none ∧
      (∀ g : Fin 12, (recorded.ind.gauges.get g).requested < 2 ^ 12 ∧ (recorded.ind.gauges.get g).shown < 2 ^ 12) ∧
      recorded.fm.records.get 30 = none ∧
      (recorded.imageWord 0x06A8 = 3 ∧ recorded.imageWord 0x0600 = 0x8C5F ∧ recorded.imageWord 0x0FDC = 0x0307FFFE) ∧
      ∃ r f, recorded.fm.records.get 31 = some r ∧ r.first = some ⟨7, 8⟩ ∧ r.last = some ⟨9, 10⟩ ∧ r.frame = some f ∧
        f.openCount < 8 ∧ f.entries.length ≤ 4 := by
  refine ⟨recorded_inv, by decide +kernel, by decide +kernel, by decide +kernel, by decide +kernel, by decide +kernel, _, _, rfl, rfl,
    rfl, rfl, by decide, by decide⟩

/-- A page of a store carries the assigned bits alone: slot 0 of the image, whose bits 2 to 6 Table 12-7 leaves free, and the last page,
whose bytes past the length are 0. -/
theorem test_profilePage_writes_unassigned_bits_0 :
    let s := { staged with sram := staged.sram ++
      [(0x3FE038, 0xFF), (0x3FE03B, 0xFF), (0x3FFAC7, 0xFF), (0x3FFAC8, 0xFF), (0x3FFAFF, 0xFF)] }
    (s.profilePage 0).getD 0x38 0 = 0x83 ∧ (s.profilePage 0).getD 0x3B 0 = 0 ∧ (s.profilePage 0).getD 6 0 = 0xC8 ∧
      (s.profilePage 107).getD 7 0 = 0x00 ∧ (s.profilePage 107).getD 8 0 = 0 ∧ (s.profilePage 107).getD 63 0 = 0 := by decide +kernel

/-- A wake resume is one event of the door unit: the freeze frame of the first door's fault counts both doors open. -/
theorem test_resumeDoors_hands_on_a_complete_table :
    let faulty : DoorCfg := { present := true, controller := some 2 }
    let s := withEntry 2 { value := 9, quality := .good }
      { run with profile := { prof with freeze := [2], doors := ((Table.const 6 {}).set 0 faulty).set 5 faulty } }
    s.resumeDoors.door.openCount = 2 ∧
      ([0, 1].map fun i => ((s.resumeDoors.fm.records.get i).bind (·.frame)).map (·.openCount)) = [some 2, some 2] ∧
      ([0, 1].map fun i => (s.resumeDoors.fm.records.get i).map (·.code)) =
        [some ⟨.doorControllerFault, 0⟩, some ⟨.doorControllerFault, 5⟩] := by decide +kernel

end Sys2Proof.Tests
end

section
/-! The commands of a running device and of one in reset, and what an update leaves in the signal table (01). -/

namespace Sys2Proof.Machine

/-! ## Commands and the reset cause (R190) -/

/-- Once the reset cause no longer lasts, a command has its effect. -/
theorem live_running {s : State} (h : s.running) (f : State → State) : s.live f = f s := by simp [State.live, h]

/-- While the reset cause lasts, a command has no effect. -/
theorem live_inReset {s : State} (h : s.mode.inReset = true) (f : State → State) : s.live f = s := by simp [State.live, h]

/-! ## Work of the controller taken after an event (R187) -/

/-- What an event may change, with the work that the controller takes after it. -/
theorem keeps_takeWork {l : List Part} {s t : State} (h : KeepsBut l s t) : KeepsBut (l ++ Part.work) s t.takeWork :=
  (h.mono fun _ hp => List.mem_append_left _ hp).trans
    ((takeWork_evolves t).keeps.mono fun _ hp => List.mem_append_right _ hp)

/-- A command that ends with the controller's work: what the event gives, the work left out. -/
theorem gives_work {c : Instr} {s t : State} {l : List Part} {P : State → Prop} (he : exec c s = .next t.takeWork)
    (hk : KeepsBut l s t) (hP : P t.takeWork) : Gives c s (l ++ Part.work) P := ⟨_, he, keeps_takeWork hk, hP⟩

/-- The work behind a store that waits: a RESTART, the counters, a slot (R187). -/
def State.rankedWork (s : State) : State :=
  if s.ctrl.restartWaiting then s.setCtrl { s.ctrl with operation := .restartRead, restartWaiting := false }
  else if s.ctrl.countersPending then
    s.setCtrl { s.ctrl with operation := .countersWrite (countersPage s) false, countersPending := false }
  else s.takeSlot

theorem nextWork_busy {s : State} (h : ¬ (s.ctrl.operation = .none ∧ s.fm.loaded = true)) : s.nextWork = s := if_neg h

theorem nextWork_store {s : State} (h : s.ctrl.operation = .none ∧ s.fm.loaded = true) {p : Profile} {n : Nat}
    (hs : s.ctrl.store = .waiting p n) :
    s.nextWork = s.setCtrl { s.ctrl with operation := .storeRead p n 0, store := .writing } := by
  unfold State.nextWork
  rw [if_pos h, hs]

theorem nextWork_ranked {s : State} (h : s.ctrl.operation = .none ∧ s.fm.loaded = true)
    (hs : ∀ p n, s.ctrl.store ≠ .waiting p n) : s.nextWork = s.rankedWork := by
  unfold State.nextWork
  rw [if_pos h]
  cases hst : s.ctrl.store with
  | waiting p n => exact absurd hst (hs p n)
  | none => rfl
  | validating => rfl
  | writing => rfl

theorem takeSlot_eq (s : State) : ∃ q c, s.takeSlot = (s.setFm { s.fm with writeQueue := q }).setCtrl c := by
  unfold State.takeSlot
  split
  · exact ⟨s.fm.writeQueue, s.ctrl, rfl⟩
  · exact ⟨_, _, rfl⟩

theorem nextWork_eq (s : State) : ∃ q c, s.nextWork = (s.setFm { s.fm with writeQueue := q }).setCtrl c := by
  by_cases h : s.ctrl.operation = .none ∧ s.fm.loaded = true
  · by_cases hs : ∃ p n, s.ctrl.store = .waiting p n
    · obtain ⟨p, n, hs⟩ := hs
      exact ⟨s.fm.writeQueue, _, nextWork_store h hs⟩
    · rw [nextWork_ranked h fun p n e => hs ⟨p, n, e⟩]
      unfold State.rankedWork
      split
      · exact ⟨s.fm.writeQueue, _, rfl⟩
      · split
        · exact ⟨s.fm.writeQueue, _, rfl⟩
        · exact takeSlot_eq s
  · rw [nextWork_busy h]
    exact ⟨s.fm.writeQueue, s.ctrl, rfl⟩

theorem serveReader_eq (s : State) : ∃ c, s.serveReader = s.setCtrl c := by
  unfold State.serveReader
  split
  · split
    · exact ⟨_, rfl⟩
    · exact ⟨s.ctrl, rfl⟩
  all_goals exact ⟨s.ctrl, rfl⟩

/-- The work that the controller takes is its own and a slot of the write queue. -/
theorem takeWork_eq (s : State) : ∃ q c, s.takeWork = (s.setFm { s.fm with writeQueue := q }).setCtrl c := by
  obtain ⟨q, c, hn⟩ := nextWork_eq s
  obtain ⟨d, hd⟩ := serveReader_eq s.nextWork
  exact ⟨q, d, hd.trans (by rw [hn]; rfl)⟩

@[simp] theorem takeWork_profile (s : State) : s.takeWork.profile = s.profile := by
  obtain ⟨q, c, h⟩ := takeWork_eq s
  rw [h]
  rfl

@[simp] theorem takeWork_profStatus (s : State) : s.takeWork.profStatus = s.profStatus := by
  obtain ⟨q, c, h⟩ := takeWork_eq s
  rw [h]
  rfl

@[simp] theorem takeWork_sig (s : State) : s.takeWork.sig = s.sig := by
  obtain ⟨q, c, h⟩ := takeWork_eq s
  rw [h]
  rfl

@[simp] theorem takeWork_inp (s : State) : s.takeWork.inp = s.inp := by
  obtain ⟨q, c, h⟩ := takeWork_eq s
  rw [h]
  rfl

@[simp] theorem takeWork_rx (s : State) : s.takeWork.rx = s.rx := by
  obtain ⟨q, c, h⟩ := takeWork_eq s
  rw [h]
  rfl

@[simp] theorem takeWork_door (s : State) : s.takeWork.door = s.door := by
  obtain ⟨q, c, h⟩ := takeWork_eq s
  rw [h]
  rfl

@[simp] theorem takeWork_warn (s : State) : s.takeWork.warn = s.warn := by
  obtain ⟨q, c, h⟩ := takeWork_eq s
  rw [h]
  rfl

@[simp] theorem takeWork_ind (s : State) : s.takeWork.ind = s.ind := by
  obtain ⟨q, c, h⟩ := takeWork_eq s
  rw [h]
  rfl

@[simp] theorem takeWork_path (s : State) : s.takeWork.path = s.path := by
  obtain ⟨q, c, h⟩ := takeWork_eq s
  rw [h]
  rfl

@[simp] theorem takeWork_sup (s : State) : s.takeWork.sup = s.sup := by
  obtain ⟨q, c, h⟩ := takeWork_eq s
  rw [h]
  rfl

@[simp] theorem takeWork_svc (s : State) : s.takeWork.svc = s.svc := by
  obtain ⟨q, c, h⟩ := takeWork_eq s
  rw [h]
  rfl

@[simp] theorem takeWork_mode (s : State) : s.takeWork.mode = s.mode := by
  obtain ⟨q, c, h⟩ := takeWork_eq s
  rw [h]
  rfl

@[simp] theorem takeWork_sram (s : State) : s.takeWork.sram = s.sram := by
  obtain ⟨q, c, h⟩ := takeWork_eq s
  rw [h]
  rfl

@[simp] theorem takeWork_cfg (s : State) : s.takeWork.cfg = s.cfg := by
  obtain ⟨q, c, h⟩ := takeWork_eq s
  rw [h]
  rfl

/-! ## Updates (R2) -/

theorem inRange_iff (c : SignalCfg) (v : BitVec 16) : inRange c v = true ↔ c.low.toInt ≤ v.toInt ∧ v.toInt ≤ c.high.toInt := by
  simp [inRange]

/-- An update leaves every other entry as it was. -/
theorem deliver_unmoved {s : State} (h : s.takesUpdates = true) {m n : Fin 256} (hm : m ≠ n) (v : BitVec 16) :
    s.Unmoved (s.deliver n v) m := by
  unfold State.Unmoved
  rw [deliver_entries s n v h, Table.get_set_ne _ (Ne.symm hm)]

/-- What an update makes of an entry (R2). -/
theorem update_fields (c : SignalCfg) (v : BitVec 16) (e : Signal) :
    (e.update c v).value = v ∧
      if inRange c v then (e.update c v).quality = .good ∧ (e.update c v).age = 0
      else (e.update c v).quality = .invalid ∧ (e.update c v).age = e.age := by
  unfold Signal.update
  split <;> simp

/-- An update sets value, quality and age of its entry by the plausible range. -/
theorem deliver_updated {s : State} (h : s.takesUpdates = true) (n : Fin 256) (v : BitVec 16) :
    s.Updated (s.deliver n v) n v := by
  unfold State.Updated
  rw [deliver_entries s n v h, Table.get_set_self]
  split <;> exact update_fields _ _ _

/-- One update of the same value for each entry of a list: every entry of it is updated, no other moves (R11, R15). -/
theorem forEach_deliver {l : List (Fin 256)} (hl : l.Nodup) {s : State} (h : s.takesUpdates = true) (v : BitVec 16) :
    (∀ n ∈ l, s.Updated (s.forEach l fun t n => t.deliver n v) n v) ∧
      ∀ n, n ∉ l → s.Unmoved (s.forEach l fun t n => t.deliver n v) n := by
  induction l generalizing s with
  | nil => exact ⟨fun n hn => absurd hn List.not_mem_nil, fun n _ => rfl⟩
  | cons m l ih =>
    obtain ⟨hm, hl⟩ := List.nodup_cons.mp hl
    obtain ⟨hin, hout⟩ := ih hl (deliver_takes s m v h)
    have hp : (s.deliver m v).profile = s.profile := (deliver_evolves s m v).keeps .profile (by decide)
    refine ⟨fun n hn => ?_, fun n hn => ?_⟩
    · rcases List.mem_cons.mp hn with rfl | hn
      · have := deliver_updated h n v
        unfold State.Updated at this ⊢
        rw [← hout n hm] at this
        exact this
      · have hne : n ≠ m := fun e => hm (e ▸ hn)
        have := hin n hn
        unfold State.Updated at this ⊢
        rw [hp, deliver_unmoved h hne v] at this
        exact this
    · obtain ⟨hne, hn⟩ := not_or.mp (fun e => hn (List.mem_cons.mpr e))
      exact (hout n hn).trans (deliver_unmoved h hne v)

end Sys2Proof.Machine

open Sys2Proof Sys2Proof.Machine

/-- Settles O9: the entry that an update leaves, by its plausible range. -/
theorem updateSetsTheEntry : Obligations.UpdateSetsTheEntry := by
  intro s n v h
  have hu := deliver_updated h n v
  refine ⟨(deliver_evolves s n v).keeps, fun m hm => deliver_unmoved h hm v, fun hr => ?_, fun hr => ?_, fun hr => ?_⟩
  · obtain ⟨hv, hq⟩ := hu
    rw [if_pos ((inRange_iff _ _).mpr hr)] at hq
    exact ⟨hv, hq⟩
  · obtain ⟨hv, hq⟩ := hu
    rw [if_neg (fun e => hr ((inRange_iff _ _).mp e))] at hq
    exact ⟨hv, hq⟩
  · have hn : ¬ inRange (s.profile.signals.get n) v = true := fun e => by
      have := (inRange_iff _ _).mp e
      omega
    obtain ⟨-, hq⟩ := hu
    rw [if_neg hn] at hq
    exact hq.1

end

section
/-! The staleness expiry and the motion state (01, R4, R16 to R18). -/

namespace Sys2Proof.Machine

/-- What a staleness expiry leaves in the table: one new image, the age going on (R4, R6). -/
theorem takeExpiry_entries (s : State) (n : Fin 256) :
    (s.takeExpiry n).sig.entries = s.sig.entries.set n
      { (s.sig.entries.get n).expire (s.profile.signals.get n) with sequence := (s.sig.entries.get n).sequence + 1 } := by
  have := commitSignal_entries s n ((s.sig.entries.get n).expire (s.profile.signals.get n)) true _ (emitSignal_entries n)
  rwa [Bool.true_or, if_pos rfl] at this

/-- The workshop level as judged stands while its conditions and what it is judged from do (R174). -/
theorem State.LevelJudged.of_keeps {l : List Part} {s t : State} (h : s.LevelJudged) (k : KeepsBut l s t)
    (hl : ∀ p ∈ [Part.level, .profile, .profStatus, .entries, .motion], p ∉ l) : t.LevelJudged := by
  have hp : t.profile = s.profile := k .profile (hl _ (by decide))
  have hf : t.inForce = s.inForce := congrArg (fun x : ProfStatus => decide (x = .inForce)) (k .profStatus (hl _ (by decide)))
  have he : t.sig.entries = s.sig.entries := k .entries (hl _ (by decide))
  have hm : t.sig.motion = s.sig.motion := (k .motion (hl _ (by decide))).1
  obtain ⟨h1, h2, h3, h4⟩ := k .level (hl _ (by decide))
  have hb : ∀ b, t.boundOn b ↔ s.boundOn b := fun b => by simp only [State.boundOn, State.quality, State.value, he]
  exact ⟨by rw [h1, hp, hb]; exact h.switchOn, by rw [h2, hm]; exact h.standing, by rw [h3, hp, hb]; exact h.brakeOn,
    by rw [h4, hf, hp, hb, hb, hm]; exact h.level⟩

/-- The workshop level and its conditions are those of the state that they are judged in (R174). -/
theorem judgeLevel_judged (s : State) : s.judgeLevel.LevelJudged := by
  unfold State.judgeLevel
  dsimp only
  generalize hx : s.setSvc _ = x
  have hj : x.LevelJudged := by
    subst hx
    refine ⟨boundOn_iff s _, decide_eq_true_iff, boundOn_iff s _, ?_⟩
    simp only [State.setSvc_svc, Bool.and_eq_true, boundOn_iff, decide_eq_true_iff, and_assoc]
    rfl
  have ho := hj.of_keeps (offerStatus_evolves s x).keeps (by decide)
  split
  · exact ho.of_keeps (endTest_evolves _ _).keeps (by decide)
  · exact ho

/-- A change of the motion state judges the workshop level anew (R18). -/
theorem takeMotion_judged {s : State} {m : Motion} (h : m ≠ s.sig.motion) (hold : Option Nat) :
    (s.takeMotion m hold).LevelJudged := by
  unfold State.takeMotion
  dsimp only
  rw [if_neg h]
  exact judgeLevel_judged _

/-- The motion state and the hold timer that the class of the reference gives (Table 1-6). -/
theorem deriveMotion_motion (s : State) :
    (s.deriveMotion.sig.motion, s.deriveMotion.sig.hold) =
      motionAfter s.refClass s.profile.stopHold s.sig.motion s.sig.hold := by
  obtain ⟨hm, hh⟩ := takeMotion_motion s (motionAfter s.refClass s.profile.stopHold s.sig.motion s.sig.hold).1
    (motionAfter s.refClass s.profile.stopHold s.sig.motion s.sig.hold).2
  exact Prod.ext hm hh

/-- The motion state and the hold timer when the class is known. -/
theorem deriveMotion_of_class {s : State} {c : RefClass} (h : s.refClass = c) {m : Motion} {hold : Option Nat}
    (ha : motionAfter c s.profile.stopHold s.sig.motion s.sig.hold = (m, hold)) :
    s.deriveMotion.sig.motion = m ∧ s.deriveMotion.sig.hold = hold := by
  have := deriveMotion_motion s
  rw [h, ha] at this
  exact Prod.mk.inj this

theorem refClass_of_reference {s : State} {n : Fin 256} (h : s.profile.reference = some n) :
    s.refClass = classOf s.profile.movingThreshold (s.quality n) (s.value n) := by
  unfold State.refClass
  rw [h]

/-- At a change of the motion state the workshop level is judged anew. -/
theorem deriveMotion_judged {s : State} (h : s.deriveMotion.sig.motion ≠ s.sig.motion) : s.deriveMotion.LevelJudged :=
  takeMotion_judged (fun e => h ((takeMotion_motion s _ _).1.trans e)) _

end Sys2Proof.Machine

open Sys2Proof Sys2Proof.Machine

/-- Settles O10: an expiry that is due leaves its entry STALE or SUBSTITUTED, and no other. -/
theorem stalenessExpiry : Obligations.StalenessExpiry := by
  intro n s hr ht hs hf hq hd ha
  have hdue : s.due (.stalenessExpiry n) = true := by simp [State.expiryTaken, ht, hs, hf, hq, hd]
  refine gives_work (t := s.takeExpiry n) ?_ (takeExpiry_evolves s n).keeps ⟨?_, fun m hm => ?_⟩
  · simp only [exec, execStalenessExpiry, live_running hr, hdue, if_true]
  · rw [takeWork_sig, takeExpiry_entries, Table.get_set_self]
    rfl
  · rw [State.Unmoved, takeWork_sig, takeExpiry_entries, Table.get_set_ne _ (Ne.symm hm)]

/-- Settles O13: Table 1-6 row by row, then the hold expiry. -/
theorem motionFollowsTheReference : Obligations.MotionFollowsTheReference := by
  intro s
  refine ⟨(deriveMotion_evolves s).keeps, fun h => ?_, fun n h => ⟨fun hq => ?_, fun hq => ?_, fun hq hv => ?_,
    fun hq hv => ⟨fun hm => ?_, fun hm hh => ?_⟩⟩, deriveMotion_judged, fun e hr hh he => ?_⟩
  · exact deriveMotion_of_class (c := .bad) (by simp [State.refClass, h]) rfl
  · refine deriveMotion_of_class (c := .bad) ?_ rfl
    rw [refClass_of_reference h]
    rcases hq with hq | hq | hq <;> rw [hq] <;> rfl
  · refine deriveMotion_of_class (c := .substituted) ?_ rfl
    rw [refClass_of_reference h, hq]
    rfl
  · refine deriveMotion_of_class (c := .high) ?_ rfl
    rw [refClass_of_reference h, hq]
    exact if_neg (by omega)
  · refine deriveMotion_of_class (c := .low) ?_ (by rcases hm with hm | hm <;> simp [motionAfter, hm])
    rw [refClass_of_reference h, hq]
    exact if_pos hv
  · refine deriveMotion_of_class (c := .low) ?_ (by simp [motionAfter, hm, hh])
    rw [refClass_of_reference h, hq]
    exact if_pos hv
  · have hdue : s.due .holdExpiry = true := by simp [hh, he]
    obtain ⟨hm, ht⟩ := takeMotion_motion s .stopped none
    refine gives_work (t := s.takeMotion .stopped none) ?_ (takeMotion_evolves s _ _).keeps ⟨?_, ?_, fun hne => ?_⟩
    · simp only [exec, execHoldExpiry, live_running hr, hdue, if_true]
    · rw [takeWork_sig, hm]
    · rw [takeWork_sig, ht]
    · exact (takeMotion_judged (Ne.symm hne) none).of_keeps (takeWork_evolves _).keeps (by decide)

end

section
/-! Discrete inputs and the speed input (01, R10 to R15, R23). -/

namespace Sys2Proof.Machine

theorem KeepsBut.drop {p : Part} {l : List Part} {s t : State} (h : KeepsBut (p :: l) s t) (hp : p.Same s t) :
    KeepsBut l s t := fun q hq => by
  by_cases e : q = p
  · exact e ▸ hp
  · exact h q (fun hm => (List.mem_cons.mp hm).elim e hq)

theorem mem_indices {n : Nat} {α : Type} {t : Table n α} {p : α → Bool} {i : Fin n} :
    i ∈ t.indices p ↔ p (t.get i) = true := by simp [Table.indices]

theorem indices_nodup {n : Nat} {α : Type} (t : Table n α) (p : α → Bool) : (t.indices p).Nodup :=
  (List.nodup_finRange n).filter _

/-! ## The speed input -/

/-- One update to every SPEED entry and to no other (R15). -/
theorem deliverSpeed_entries {s : State} (h : s.takesUpdates = true) (v : BitVec 16) :
    (∀ n, (s.profile.signals.get n).source = .speed → s.Updated (s.deliverSpeed v) n v) ∧
      ∀ n, (s.profile.signals.get n).source ≠ .speed → s.Unmoved (s.deliverSpeed v) n := by
  obtain ⟨hin, hout⟩ := forEach_deliver (indices_nodup s.profile.signals fun c => c.source = .speed) h v
  simp only [mem_indices, decide_eq_true_eq] at hin hout
  exact ⟨hin, hout⟩

theorem deliverSpeed_speed (s : State) (v : BitVec 16) :
    (s.deliverSpeed v).inp.timing = s.inp.timing ∧ (s.deliverSpeed v).inp.running = s.inp.running ∧
      (s.deliverSpeed v).inp.count = s.inp.count ∧ (s.deliverSpeed v).inp.edgeAt = s.inp.edgeAt :=
  (deliverSpeed_evolves s v).keeps .speed (by decide)

/-- The overflow gives 0 to every SPEED entry, and the timer waits for an edge with its count stopped (R14). -/
theorem speedOverflow_speed (s : State) :
    s.speedOverflow.inp.timing = false ∧ s.speedOverflow.inp.running = false ∧ s.speedOverflow.inp.count = 0 ∧
      s.speedOverflow.inp.edgeAt = s.inp.edgeAt := deliverSpeed_speed _ 0

theorem speedOverflow_entries {s : State} (h : s.takesUpdates = true) :
    (∀ n, (s.profile.signals.get n).source = .speed → s.Updated s.speedOverflow n 0) ∧
      ∀ n, (s.profile.signals.get n).source ≠ .speed → s.Unmoved s.speedOverflow n :=
  deliverSpeed_entries (s := s.setInp { s.inp with timing := false, running := false, count := 0 }) h 0

/-- Every edge starts a count and leaves the timer in TIMING (R13). -/
theorem takeEdge_speed (s : State) (units : Nat) :
    (s.takeEdge units).inp.timing = true ∧ (s.takeEdge units).inp.running = true ∧ (s.takeEdge units).inp.count = 0 ∧
      (s.takeEdge units).inp.edgeAt = min 100 (s.inp.edgeAt + units) := by
  unfold State.takeEdge
  dsimp only
  split
  · exact deliverSpeed_speed _ _
  · exact ⟨rfl, rfl, rfl, rfl⟩

/-- An edge in WAITING ends no period. -/
theorem takeEdge_waiting {s : State} (h : s.inp.timing = false) (units : Nat) :
    KeepsBut [.speed] s (s.takeEdge units) ∧ (s.takeEdge units).sig = s.sig := by
  unfold State.takeEdge
  simp only [h, Bool.false_eq_true, if_false]
  exact ⟨(setSpeed_evolves _ _ _ _ _).keeps, rfl⟩

/-- An edge in TIMING gives every SPEED entry the speed of the period that it ends (R13, R15). -/
theorem takeEdge_timing {s : State} (ht : s.takesUpdates = true) (h : s.inp.timing = true) (units : Nat) :
    (∀ n, (s.profile.signals.get n).source = .speed →
        s.Updated (s.takeEdge units) n (speedValue s.profile.k (periodOf s.inp.count units))) ∧
      ∀ n, (s.profile.signals.get n).source ≠ .speed → s.Unmoved (s.takeEdge units) n := by
  unfold State.takeEdge
  simp only [h, if_true]
  exact deliverSpeed_entries (s := s.setInp
    { s.inp with timing := true, running := true, count := 0, edgeAt := edgeAfter s.inp.edgeAt units }) ht _

/-- An edge that the running count has not passed 65 535 before is taken as it comes (R14). -/
theorem speedEdge_in_time {s : State} {units : Nat} (h : s.inp.running = true → s.inp.count + units ≤ 65535) :
    s.speedEdge units = s.takeEdge units := by
  unfold State.speedEdge
  rw [if_neg]
  simp only [InputUnit.overflowsBefore, Bool.and_eq_true, decide_eq_true_eq, not_and]
  exact fun hr => Nat.not_lt.mpr (h hr)

/-- An edge that comes later finds the overflow taken. -/
theorem speedEdge_late {s : State} {units : Nat} (hr : s.inp.running = true) (h : 65535 < s.inp.count + units) :
    s.speedEdge units = s.speedOverflow.takeEdge units := by
  unfold State.speedEdge
  rw [if_pos]
  simp [InputUnit.overflowsBefore, hr, Config.speedOverflowAt, h]

end Sys2Proof.Machine

open Sys2Proof Sys2Proof.Machine

/-- Settles O12: an edge in WAITING, in TIMING and after the overflow, and the overflow itself. -/
theorem speedInput : Obligations.SpeedInput := by
  intro s hr ht
  have hexec : ∀ units, exec (.speedRisingEdge units) s = .next (s.speedEdge units.toNat).takeWork := fun units => by
    simp only [exec, execSpeedRisingEdge, live_running hr, ht, if_true]
  refine ⟨fun units hw hc => ?_, fun units period hw hc hp => ?_, fun units hrun hc => ?_, fun hrun hc => ?_⟩
  · obtain ⟨hk, -⟩ := takeEdge_waiting hw units.toNat
    refine gives_work (hexec units) (speedEdge_in_time hc ▸ hk) ?_
    · rw [takeWork_inp, speedEdge_in_time hc]
      exact takeEdge_speed s _
  · obtain ⟨h1, h2, h3, h4⟩ := takeEdge_speed s units.toNat
    obtain ⟨hin, hout⟩ := takeEdge_timing ht hw units.toNat
    refine gives_work (hexec units) (speedEdge_evolves s _).keeps ?_
    rw [takeWork_inp, speedEdge_in_time hc]
    simp only [State.Updated, State.Unmoved, takeWork_sig]
    exact ⟨h1, h2, h3, h4, hp ▸ hin, hout⟩
  · obtain ⟨h1, h2, h3, h4⟩ := takeEdge_speed s.speedOverflow units.toNat
    obtain ⟨hw, -, -, he⟩ := speedOverflow_speed s
    obtain ⟨hin, hout⟩ := speedOverflow_entries ht
    obtain ⟨-, hsig⟩ := takeEdge_waiting hw units.toNat
    refine gives_work (hexec units) (speedEdge_evolves s _).keeps ?_
    rw [takeWork_inp, speedEdge_late hrun hc]
    simp only [State.Updated, State.Unmoved, takeWork_sig, hsig]
    exact ⟨h1, h2, h3, he ▸ h4, hin, hout⟩
  · have hdue : s.due .speedOverflow = true := by
      simp [ht, InputUnit.overflowsWithin, hrun, Config.speedOverflowAt, Config.speedUnitsPerMs, hc]
    obtain ⟨h1, h2, h3, -⟩ := speedOverflow_speed s
    obtain ⟨hin, hout⟩ := speedOverflow_entries ht
    refine gives_work (t := s.speedOverflow) ?_ (speedOverflow_evolves s).keeps ?_
    · simp only [exec, execSpeedOverflow, live_running hr, hdue, if_true]
    · simp only [State.Updated, State.Unmoved, takeWork_inp, takeWork_sig]
      exact ⟨h1, h2, h3, hin, hout⟩

end

section
/-! A filter that settles, and a pin that changes its level (01, R10 to R12, R23). -/

namespace Sys2Proof.Machine

/-- The filtered state that a settling takes. -/
def State.settled (s : State) (i : Fin 24) : Filtered :=
  if logicalActive (s.profile.inputs.get i) (s.inp.inputs.get i) then .active else .inactive

/-- A filter settled in a state (R10). -/
def Input.settledAs (x : Input) (now : Filtered) : Input := { x with filtered := now, stable := none, resettle := false }

/-- A pin with its other level, the filter's timer set (R10). -/
def Input.toggled (x : Input) (stable : Option Nat) : Input := { x with high := !x.high, stable := stable }

/-- One input replaced. -/
def State.setInput (s : State) (i : Fin 24) (x : Input) : State := s.setInp { s.inp with inputs := s.inp.inputs.set i x }

/-- The filter settled, nothing delivered yet. -/
def State.filterSettled (s : State) (i : Fin 24) : State := s.setInput i ((s.inp.inputs.get i).settledAs (s.settled i))

/-- Whether a settling delivers updates (R11, R23). -/
def State.settleDelivers (s : State) (i : Fin 24) : Bool :=
  if (s.inp.inputs.get i).resettle then (s.discreteEntries i).any (fun n => s.value n ≠ filteredValue (s.settled i))
  else decide ((s.inp.inputs.get i).filtered ≠ s.settled i)

/-- The filter settled and its updates delivered; the wake events are still to come. -/
def State.settleDelivered (s : State) (i : Fin 24) : State :=
  if s.settleDelivers i then (s.filterSettled i).deliverInput i (s.settled i) else s.filterSettled i

/-- A settling is its deliveries and then its wake events (log entry 43). -/
theorem settle_eq (s : State) (i : Fin 24) :
    s.settle i =
      let t := if decide ((s.inp.inputs.get i).filtered ≠ s.settled i) && s.settled i = .active &&
          (s.settleDelivered i).ignitionInput i then (s.settleDelivered i).wake { ignition := true }
        else s.settleDelivered i
      if decide ((s.inp.inputs.get i).filtered ≠ s.settled i) && (s.profile.inputs.get i).wake &&
          isWakeEdge (s.profile.inputs.get i) (s.inp.inputs.get i).filtered (s.settled i) then t.wakeEdge else t := rfl

theorem filteredValue_settled (s : State) (i : Fin 24) :
    filteredValue (s.settled i) = if (s.inp.inputs.get i).high = (s.profile.inputs.get i).activeLow then 0 else 1 := by
  unfold State.settled logicalActive filteredValue
  by_cases h : (s.inp.inputs.get i).high = (s.profile.inputs.get i).activeLow <;> simp [h]

theorem settled_eq (s : State) (i : Fin 24) :
    s.settled i = if (s.inp.inputs.get i).high = (s.profile.inputs.get i).activeLow then .inactive else .active := by
  unfold State.settled logicalActive
  by_cases h : (s.inp.inputs.get i).high = (s.profile.inputs.get i).activeLow <;> simp [h]

theorem setInput_keeps (s : State) (i : Fin 24) (x : Input) : KeepsBut [.inputs] s (s.setInput i x) :=
  ((setInp_alone s _).keeps.mono (by decide)).drop (p := .speed) ⟨rfl, rfl, rfl, rfl⟩

/-! ## Deliveries -/

/-- One update to every DISCRETE entry bound to an input and to no other (R11). -/
theorem deliverInput_entries {s : State} (h : s.takesUpdates = true) (i : Fin 24) (f : Filtered) :
    (∀ n, (s.profile.signals.get n).source = .discrete i → s.Updated (s.deliverInput i f) n (filteredValue f)) ∧
      ∀ n, (s.profile.signals.get n).source ≠ .discrete i → s.Unmoved (s.deliverInput i f) n := by
  obtain ⟨hin, hout⟩ := forEach_deliver (indices_nodup s.profile.signals fun c => c.source = .discrete i) h (filteredValue f)
  simp only [mem_indices, decide_eq_true_eq] at hin hout
  exact ⟨hin, hout⟩

/-- The device still takes updates after any number of them (R20, R22). -/
theorem forEach_deliver_takes (l : List (Fin 256)) (v : BitVec 16) {s : State} (h : s.takesUpdates = true) :
    (s.forEach l fun t n => t.deliver n v).takesUpdates = true := by
  induction l generalizing s with
  | nil => exact h
  | cons n l ih => exact ih (deliver_takes s n v h)

theorem settleDelivered_keeps (s : State) (i : Fin 24) : KeepsBut (.inputs :: Part.update) s (s.settleDelivered i) := by
  have h : KeepsBut (.inputs :: Part.update) s (s.filterSettled i) := (setInput_keeps s _ _).mono (by decide)
  unfold State.settleDelivered
  split
  · exact h.trans ((deliverInput_evolves _ _ _).keeps.mono (by decide))
  · exact h

theorem settleDelivered_inputs (s : State) (i : Fin 24) :
    (s.settleDelivered i).inp.inputs = s.inp.inputs.set i ((s.inp.inputs.get i).settledAs (s.settled i)) := by
  unfold State.settleDelivered
  split
  · exact (deliverInput_evolves _ _ _).keeps .inputs (by decide)
  · rfl

theorem settleDelivered_takes {s : State} (h : s.takesUpdates = true) (i : Fin 24) :
    (s.settleDelivered i).takesUpdates = true := by
  unfold State.settleDelivered
  split
  · exact forEach_deliver_takes _ _ (s := s.filterSettled i) h
  · exact h

/-- The updates that a settling delivers (R11, R23). -/
theorem settleDelivered_entries {s : State} (h : s.takesUpdates = true) (i : Fin 24) :
    (s.settleDelivers i = true → ∀ n, (s.profile.signals.get n).source = .discrete i →
        s.Updated (s.settleDelivered i) n (filteredValue (s.settled i))) ∧
      (∀ n, (s.profile.signals.get n).source ≠ .discrete i → s.Unmoved (s.settleDelivered i) n) ∧
      (s.settleDelivers i = false → ∀ n, s.Unmoved (s.settleDelivered i) n) := by
  obtain ⟨hin, hout⟩ := deliverInput_entries (s := s.filterSettled i) h i (s.settled i)
  unfold State.settleDelivered
  cases s.settleDelivers i with
  | true => exact ⟨fun _ => hin, hout, fun e => Bool.noConfusion e⟩
  | false => exact ⟨fun e => Bool.noConfusion e, fun _ _ => rfl, fun _ _ => rfl⟩

theorem setWakePending_keeps (s : State) (w : WakeSet) : KeepsBut [.wake] s (s.setMode { s.mode with wakePending := w }) := by
  have h := (setMode_alone s { s.mode with wakePending := w } rfl rfl).keeps
  exact (((h.mono (k := [.ignition, .cycle, .opMode, .wake]) (by decide)).drop ⟨rfl, rfl⟩).drop ⟨rfl, rfl, rfl⟩).drop rfl

/-- Outside PARKED the wake events of a settling change no more than the wake-pending set (R12, R184). -/
theorem settle_wakes_nothing {s : State} (h : s.takesUpdates = true) (i : Fin 24) :
    KeepsBut [.wake] (s.settleDelivered i) (s.settle i) := by
  have ha : (s.settleDelivered i).mode.mode ≠ .parked := by
    have := settleDelivered_takes h i
    simp only [State.takesUpdates, Bool.and_eq_true, decide_eq_true_eq] at this
    exact this.2
  have hw : KeepsBut [.wake] (s.settleDelivered i) (s.settleDelivered i).wakeEdge := by
    unfold State.wakeEdge
    split
    · exact setWakePending_keeps _ _
    · rw [wake_awake _ _ ha]
      exact .refl
  rw [settle_eq, wake_awake _ _ ha, ite_self]
  dsimp only
  split
  · exact hw
  · exact .refl

/-- A settling outside PARKED: what it changes, the filters that it leaves, and no wake resume. -/
theorem settle_of_takes {s : State} (h : s.takesUpdates = true) (i : Fin 24) :
    KeepsBut (.inputs :: Part.update) s (s.settle i) ∧ (s.settle i).sig.entries = (s.settleDelivered i).sig.entries ∧
      (s.settle i).inp.inputs = s.inp.inputs.set i ((s.inp.inputs.get i).settledAs (s.settled i)) := by
  have hw := settle_wakes_nothing h i
  exact ⟨(settleDelivered_keeps s i).trans (hw.mono (by decide)), hw .entries (by decide),
    (hw .inputs (by decide)).trans (settleDelivered_inputs s i)⟩

/-! ## Levels -/

/-- The level of a pin changed, the filter's timer set. -/
def State.levelChanged (s : State) (i : Fin 24) (stable : Option Nat) : State :=
  s.setInput i ((s.inp.inputs.get i).toggled stable)

theorem levelChanged_keeps (s : State) (i : Fin 24) (e : Option Nat) : KeepsBut [.inputs] s (s.levelChanged i e) :=
  setInput_keeps s _ _

/-- Outside a running filter a pin changes its level alone. -/
theorem changeLevel_idle {s : State} {i : Fin 24} (h : s.inForce = false ∨ s.mode.inReset = true) :
    s.changeLevel i = s.levelChanged i (s.inp.inputs.get i).stable := by
  unfold State.changeLevel
  rw [if_neg (by rcases h with h | h <;> simp [h])]
  rfl

/-- A running filter's stability timer restarts. -/
theorem changeLevel_restarts {s : State} {i : Fin 24} (hr : s.running) (hf : s.inForce = true)
    (hd : (s.profile.inputs.get i).debounce ≠ 0) : s.changeLevel i = s.levelChanged i (some 0) := by
  unfold State.changeLevel
  rw [if_pos (by rw [hf, hr]; rfl)]
  exact if_neg hd

/-- With a debounce time of 0 the filter settles at once. -/
theorem changeLevel_settles {s : State} {i : Fin 24} (hr : s.running) (hf : s.inForce = true)
    (hd : (s.profile.inputs.get i).debounce = 0) : s.changeLevel i = (s.levelChanged i (some 0)).settle i := by
  unfold State.changeLevel
  rw [if_pos (by rw [hf, hr]; rfl)]
  exact if_pos hd

/-- What a table holds after one row was replaced. -/
theorem get_of_eq_set {n : Nat} {α : Type} {t u : Table n α} {i : Fin n} {x : α} (h : u = t.set i x) :
    u.get i = x ∧ ∀ j, j ≠ i → u.get j = t.get j :=
  h ▸ ⟨Table.get_set_self .., fun _ hj => Table.get_set_ne t (Ne.symm hj) _⟩

end Sys2Proof.Machine

open Sys2Proof Sys2Proof.Machine

/-- Settles O11: the level of a pin, and the updates of a filter that settles. -/
theorem discreteInputs : Obligations.DiscreteInputs := by
  refine ⟨fun i s => ⟨fun h => ?_, fun hr hf hd => ?_, fun hr hf hm hd => ?_⟩, fun i s now v e hr ht hs he hv => ?_⟩
  · refine gives_work (t := s.levelChanged i (s.inp.inputs.get i).stable) ?_ (levelChanged_keeps s i _) ?_
    · rw [← changeLevel_idle h]
      rfl
    · rw [takeWork_inp]
      exact get_of_eq_set rfl
  · refine gives_work (t := s.levelChanged i (some 0)) ?_ (levelChanged_keeps s i _) ?_
    · rw [← changeLevel_restarts hr hf hd]
      rfl
    · rw [takeWork_inp]
      exact get_of_eq_set rfl
  · have ht : (s.levelChanged i (some 0)).takesUpdates = true := by
      show (s.inForce && decide (s.mode.mode ≠ .parked)) = true
      simp [hf, hm]
    obtain ⟨hk, -, hi⟩ := settle_of_takes ht i
    refine gives_work (t := (s.levelChanged i (some 0)).settle i) ?_
      (((levelChanged_keeps s i _).mono (by decide)).trans hk) ?_
    · rw [← changeLevel_settles hr hf hd]
      rfl
    · obtain ⟨hself, hothers⟩ := get_of_eq_set hi
      obtain ⟨hlevel, hrest⟩ : (s.levelChanged i (some 0)).inp.inputs.get i = (s.inp.inputs.get i).toggled (some 0) ∧
          ∀ j, j ≠ i → (s.levelChanged i (some 0)).inp.inputs.get j = s.inp.inputs.get j := get_of_eq_set rfl
      rw [takeWork_inp, hself, settled_eq, hlevel]
      refine ⟨?_, fun j hj => (hothers j hj).trans (hrest j hj)⟩
      cases hh : (s.inp.inputs.get i).high <;> cases ha : (s.profile.inputs.get i).activeLow <;>
        simp [Input.settledAs, Input.toggled, State.levelChanged, State.setInput, hh, ha]
  · have hdue : s.due (.debounceSettle i) = true := by
      simp only [State.takesUpdates, Bool.and_eq_true] at ht
      simp [ht.1, hs, he]
    obtain ⟨hk, hsig, hi⟩ := settle_of_takes ht i
    obtain ⟨hin, hout, hnone⟩ := settleDelivered_entries ht i
    have hnow : s.settled i = now ∧ filteredValue (s.settled i) = v := by
      rw [filteredValue_settled, settled_eq]
      split at hv <;> rename_i h <;> simp [h, hv]
    obtain ⟨rfl, rfl⟩ := hnow
    have hdel : s.settleDelivers i = true ↔ (if (s.inp.inputs.get i).resettle then
            ∃ n, (s.profile.signals.get n).source = .discrete i ∧ (s.sig.entries.get n).value ≠ filteredValue (s.settled i)
          else (s.inp.inputs.get i).filtered ≠ s.settled i) := by
      unfold State.settleDelivers State.discreteEntries State.value
      split <;> simp [mem_indices]
    obtain ⟨hself, hothers⟩ := get_of_eq_set hi
    refine gives_work (t := s.settle i) ?_ hk ?_
    · simp only [exec, execDebounceSettle, live_running hr, hdue, if_true]
    · simp only [takeWork_inp, State.Unmoved, State.Updated, takeWork_sig, hsig]
      refine ⟨hself, hothers, hout, fun h => hin (hdel.mpr h), fun h => hnone ?_⟩
      exact Bool.eq_false_iff.mpr fun e => h (hdel.mp e)

end

section
/-! The full resets, and what a command does while the reset cause lasts (11, R190). -/

namespace Sys2Proof.Machine

/-- A full reset leaves every block as its chapter gives it. -/
theorem fullReset_afterReset (s : State) (straps : BitVec 2) (causes : ResetCauses) (held : List FaultCode)
    (sram : List Host.Cell) : AfterReset straps s (s.fullReset straps causes held sram) where
  pending := rfl
  profile := ⟨rfl, rfl⟩
  entries := Table.get_const _
  motion := ⟨rfl, rfl⟩
  inputs := Table.get_map _ _
  lines l := by simp [State.fullReset, LineRx.state]
  owner := rfl
  slots := Table.get_const _
  doors d := by simp [State.fullReset]
  summary := ⟨rfl, rfl⟩
  warnings := Table.get_const _
  acknowledgement := ⟨rfl, rfl, rfl⟩
  lamps := Table.get_map _ _
  indication := ⟨rfl, rfl, rfl, rfl⟩
  gauges g := by simp [State.fullReset]
  chime := rfl
  window := ⟨rfl, rfl, rfl, rfl, rfl, rfl, rfl⟩
  commands := ⟨rfl, rfl, rfl, rfl⟩
  attention := ⟨rfl, rfl, by simp [State.atn, State.fullReset]⟩
  supervision := rfl
  faults := ⟨rfl, Table.get_const _, rfl, rfl, rfl, rfl, rfl⟩
  service := ⟨rfl, rfl, rfl, rfl, rfl, rfl, rfl, rfl⟩
  mode := ⟨rfl, rfl, rfl, rfl, rfl, rfl, rfl, rfl⟩
  controller := ⟨rfl, rfl, rfl, rfl⟩
  cutOff p hp := by simp [State.fullReset, Controller.cutOff, hp]
  cfg := rfl

/-- The state after reset is the one that a POWER-ON reset of it gives. -/
theorem reset_eq_fullReset : State.reset = State.reset.fullReset 0 { powerOn := true } [] [] := by
  have hi : State.reset.inp.inputs.map (fun x => ({ high := x.high } : Input)) = State.reset.inp.inputs :=
    Table.ext_get fun i => by simp [State.reset]
  have hl : State.reset.ind.lamps.map (fun l => ({ senseOpen := l.senseOpen } : Lamp)) = State.reset.ind.lamps :=
    Table.ext_get fun i => by simp [State.reset]
  unfold State.fullReset
  rw [hi, hl]
  rfl

/-- Before image initialisation has begun the window shows nothing that could be out of date. -/
theorem coherent_of_closed {s : State} (hw : s.path.windowOpen = false) (ha : s.path.awaited = none)
    (hq : s.path.queue = []) (hr : s.path.resync = []) (hf : s.path.inFlight = none) (hh : s.path.held = none) :
    s.Coherent where
  places o ho := by simp [hq, hr] at ho
  written e he := by simp [hf] at he
  waiting a w lanes he := by simp [hh] at he
  reading _ := ⟨hw, ha⟩
  latest h := by simp [hw, ha] at h

/-- While the reset cause lasts, only the resets, the end of the reset, pins and senses have an effect (log entry 4). -/
theorem exec_inReset {c : Instr} {s : State} (h : s.mode.inReset = true) (h1 : ∀ w, c ≠ .powerOnReset w)
    (h2 : ∀ w, c ≠ .supplyLowReset w) (h3 : ∀ w, c ≠ .pinReset w) (h4 : c ≠ .resetEnd)
    (h5 : ∀ i, c ≠ .logicalLevelChange i) (h6 : ∀ k b, c ≠ .openLoadSenseChange k b) : exec c s = .next s := by
  cases c
  case powerOnReset w => exact absurd rfl (h1 w)
  case supplyLowReset w => exact absurd rfl (h2 w)
  case pinReset w => exact absurd rfl (h3 w)
  case resetEnd => exact absurd rfl h4
  case logicalLevelChange i => exact absurd rfl (h5 i)
  case openLoadSenseChange k b => exact absurd rfl (h6 k b)
  all_goals exact congrArg Host.Outcome.next (live_inReset h _)

end Sys2Proof.Machine

open Sys2Proof Sys2Proof.Machine

/-- Settles O6: each full reset, and the commands that find the device in reset. -/
theorem fullResets : Obligations.FullResets := by
  refine ⟨fun straps s => ⟨?_, ?_, ?_⟩, fun c s h h1 h2 h3 h4 h5 h6 => exec_inReset h h1 h2 h3 h4 h5 h6⟩
  · exact ⟨_, rfl, fullReset_afterReset s straps _ _ _, rfl, rfl, rfl⟩
  · exact ⟨_, rfl, fullReset_afterReset s straps _ _ _, rfl, rfl, rfl⟩
  · exact ⟨_, rfl, fullReset_afterReset s straps _ _ _, rfl, rfl, rfl⟩

/-- Settles O3: the state after reset is a POWER-ON reset's. -/
theorem resetState : Obligations.ResetState := by
  obtain ⟨hs, hc⟩ := reset_memories_wf
  refine ⟨rfl, ?_, rfl, rfl, rfl, ?_, coherent_of_closed rfl rfl rfl rfl rfl rfl⟩
  · have := fullReset_afterReset State.reset 0 { powerOn := true } [] []
    rwa [← reset_eq_fullReset] at this
  · have := fullReset_inv State.reset 0 { powerOn := true } [] hs hc
    rwa [← show State.reset = State.reset.fullReset 0 { powerOn := true } [] State.reset.sram from reset_eq_fullReset] at this

end

section
/-! The passing of a millisecond on an empty queue, and when the time of each expiry has come (log entries 1 and 2). -/

namespace Sys2Proof.Machine

theorem step_empty {s : State} (h : s.pending = []) : step s = .next s.tick := by
  unfold step
  rw [h]

theorem setPending_keeps (s : State) (l : List Instr) : KeepsBut [.pending] s (s.setPending l) := by
  intro p hp
  cases p <;> (first
    | exact absurd (by decide) hp | rfl | exact ⟨rfl, rfl⟩ | exact ⟨rfl, rfl, rfl⟩ | exact ⟨rfl, rfl, rfl, rfl⟩
    | exact (fun _ => rfl) | exact ⟨rfl, rfl, rfl, rfl, rfl, rfl, rfl, rfl, rfl, rfl⟩)

/-- What is due does not depend on the commands that wait. -/
theorem due_setPending (s : State) (l : List Instr) (c : Instr) : (s.setPending l).due c = s.due c := by
  cases c <;> rfl

/-! ## What advances -/

/-- The parts that a millisecond advances. -/
def Part.advancing : List Part :=
  [.pending, .entries, .motion, .inputs, .speed, .lines, .doors, .warnings, .clock, .lamps, .lampCheck, .gauges, .chime,
    .supervision, .records, .service, .tester, .test, .cycle, .ignition]

/-- A millisecond leaves the chimed flags, the ack input's level and the void-ack count. -/
theorem tickWarnings_rest (s : State) :
    (∀ w, (s.tickWarnings.rows.get w).chimed = (s.warn.rows.get w).chimed) ∧ s.tickWarnings.ackLevel = s.warn.ackLevel ∧
      s.tickWarnings.voidAcks = s.warn.voidAcks := by
  unfold State.tickWarnings
  split <;> simp

/-- A millisecond advances the records' timers and leaves the rest of the fault memory. -/
theorem tickFaults_eq (s : State) : ∃ r, s.tickFaults = { s.fm with records := r } := by
  unfold State.tickFaults
  split
  · exact ⟨_, rfl⟩
  · exact ⟨_, rfl⟩

theorem advance_keeps (s : State) : KeepsBut Part.advancing s s.advance := by
  obtain ⟨hchimed, hack, hvoid⟩ := tickWarnings_rest s
  obtain ⟨r, hr⟩ := tickFaults_eq s
  have hfm : s.advance.fm = { s.fm with records := r } := (advance_fm s).trans hr
  intro p hp
  cases p <;> (first
    | exact absurd (by decide) hp | exact hchimed | exact hack | exact hvoid
    | rfl | exact ⟨rfl, rfl⟩ | exact ⟨rfl, rfl, rfl⟩ | exact ⟨rfl, rfl, rfl, rfl⟩
    | (simp only [Part.Same, hfm, and_self]))

/-- What one millisecond makes of a table of signals. -/
theorem tickSignals_get (s : State) (n : Fin 256) : s.tickSignals.entries.get n =
    if s.takesUpdates then (s.sig.entries.get n).tick (s.profile.signals.get n) else s.sig.entries.get n := by
  unfold State.tickSignals
  split <;> simp

theorem advance_millisecondLater (s : State) : MillisecondLater s s.advance where
  entries n := by
    show s.tickSignals.entries.get n = _
    rw [tickSignals_get]
    cases ht : s.takesUpdates <;> cases ha : sourceAges (s.profile.signals.get n).source <;> simp [Signal.tick, ha]
  motion := by
    show s.tickSignals.motion = _ ∧ s.tickSignals.hold = _
    unfold State.tickSignals
    split <;> exact ⟨rfl, rfl⟩
  inputs := Table.get_map _ _
  speed := ⟨rfl, rfl, rfl, rfl⟩
  lines := Table.get_map _ _
  doors := ⟨rfl, rfl, Table.get_map _ _⟩
  warnings := by
    rw [advance_warn]
    unfold State.tickWarnings
    split <;> simp
  lamps := ⟨rfl, Table.get_map _ _⟩
  blink := by
    show s.ind.blink.tick = _
    cases s.ind.blink <;> rfl
  gauges := Table.get_zip _ _ _
  chime := by
    show ({ s.ind.chime with phase := s.ind.chime.phase.tick, test := s.ind.chime.test.map ChimeTest.tick } : Chime) = _
    cases s.ind.chime.phase <;> rcases s.ind.chime.test with _ | ⟨_ | _ | _⟩ <;> rfl
  supervision := rfl
  records i := by
    rw [advance_fm]
    unfold State.tickFaults
    split
    · rfl
    · exact Table.get_map _ _ _
  service := rfl
  mode := rfl

/-- The commands that wait are no part of a millisecond. -/
theorem MillisecondLater.setPending {s t : State} (h : MillisecondLater s t) (l : List Instr) :
    MillisecondLater s (t.setPending l) :=
  ⟨h.entries, h.motion, h.inputs, h.speed, h.lines, h.doors, h.warnings, h.lamps, h.blink, h.gauges, h.chime, h.supervision,
    h.records, h.service, h.mode⟩

/-! ## When the time of each expiry has come -/

theorem blinkOver_iff (b : Blink) : b.over = true ↔ ∃ ms, (b = .onPhase ms ∨ b = .offPhase ms) ∧ Config.blinkMs ≤ ms := by
  cases b <;> simp [Blink.over]

theorem toneOver_iff (p : ChimePhase) : p.toneOver = true ↔ ∃ ms, (p = .singleTone ms ∨ p = .repeatTone ms) ∧ Config.toneMs ≤ ms := by
  cases p <;> simp [ChimePhase.toneOver]

theorem periodOver_iff (p : ChimePhase) : p.periodOver = true ↔ ∃ ms, p = .repeatSilence ms ∧ Config.repeatMs ≤ ms := by
  cases p <;> simp [ChimePhase.periodOver]

theorem chimeTestOver_iff (t : Option ChimeTest) : t.any ChimeTest.over = true ↔
    ∃ ms, t = some (.tone ms) ∧ Config.toneMs ≤ ms ∨ t = some (.repeated ms) ∧ 3000 ≤ ms ∨ t = some (.steady ms) ∧ 1000 ≤ ms := by
  rcases t with _ | ⟨_ | _ | _⟩ <;> simp [ChimeTest.over]

theorem homed_iff (g : GaugeState) : g.homed = true ↔ g = .ready ∨ g = .parked ∨ g = .test := by
  cases g <;> simp [GaugeState.homed]

/-- The homing time, rounded up, adds one less than the rate; with a rate of 0 both readings divide by 0. -/
theorem homingTime_eq (c : GaugeCfg) : homingTime c = stepsTime c := by
  unfold homingTime stepsTime
  rcases Nat.eq_zero_or_pos c.rate with h | h
  · rw [h, Nat.div_zero, Nat.div_zero]
  · rw [Nat.add_sub_assoc h]

theorem due_speedOverflow_iff (s : State) : s.due .speedOverflow = true ↔ s.takesUpdates = true ∧ s.inp.running = true ∧
    Config.speedOverflowAt ≤ s.inp.count + (Config.speedUnitsPerMs - s.inp.edgeAt) := by
  simp [InputUnit.overflowsWithin]

theorem dueWhen (s : State) : s.DueWhen where
  signals n := by simp [State.expiryTaken, State.quality, and_assoc]
  inputs i := by simp [reached_iff]
  speed := due_speedOverflow_iff s
  hold := by simp [reached_iff]
  gap l := by simp [passed_iff, State.line, and_assoc]
  silence l := by simp [reached_iff, State.line, silenceEnd]
  openTimeout d := by simp [ranPast_iff]
  closeTimeout d := by simp [ranPast_iff]
  disagreement d := by simp [ranPast_iff]
  onDelay w := by simp [ranFor_iff]
  offDelay w := by simp [ranFor_iff]
  blink := blinkOver_iff _
  openLoad k := by simp [reached_iff, Config.openLoadMs]
  clear k := by simp [reached_iff, Config.openLoadMs]
  lampCheck := by simp [reached_iff]
  homing g := by simp [reached_iff, homingTime_eq]
  arrival g := by simp [Gauge.arrived, homed_iff, and_assoc]
  tone := toneOver_iff _
  period := periodOver_iff _
  chimeTest := chimeTestOver_iff _
  grace := by simp [ranFor_iff, Config.graceMs]
  timeout := by simp [ranFor_iff, and_assoc]
  timeoutInLost := by simp [ranFor_iff, and_assoc]
  pulse := by simp [reached_iff, Config.pulseMs]
  confirm i := by
    rw [due_confirmExpiry]
    cases s.fm.records.get i <;> simp [reached_iff]
  quiet := by simp [passed_iff, Config.serviceGapMs]
  serviceGap := by simp [passed_iff, Config.serviceGapMs]
  turnaround := by simp [reached_iff, Config.turnaroundMs]
  tester := by simp [reached_iff, Config.graceMs]
  lampTest := by simp [reached_iff]
  ignitionOff := by simp [reached_iff]
  others c hc := Bool.eq_false_iff.mpr fun h => hc (mem_expiries_of_due h)

/-- An expiry acts exactly when its time has come. -/
theorem exec_expiry {c : Instr} (h : c ∈ expiries) (s : State) :
    ∃ f : State → State, exec c s = .next (s.live fun s => if s.due c then f s else s) := by
  cases c
  all_goals first
    | exact ⟨_, rfl⟩
    | (exfalso; simp [expiries, boundaryExpiries] at h)

/-- An expiry before its time changes nothing (log entry 2). -/
theorem exec_undue {c : Instr} (h : c ∈ expiries) {s : State} (hd : s.due c = false) : exec c s = .next s := by
  obtain ⟨f, hf⟩ := exec_expiry h s
  rw [hf]
  unfold State.live
  simp [hd]

end Sys2Proof.Machine

open Sys2Proof Sys2Proof.Machine

/-- Settles O2: the four steps on an empty queue, when each expiry is due, and the expiries that are not. -/
theorem emptyQueueLetsAMillisecondPass : Obligations.EmptyQueueLetsAMillisecondPass := by
  intro s
  refine ⟨fun hp hr => ?_, fun hp hr ⟨c, hd, hc⟩ => ?_, fun hp hr hd hn => ?_, fun hp hr hn => ?_, dueWhen s,
    fun c hc hd => exec_undue hc hd⟩
  · rw [step_empty hp]
    exact congrArg Host.Outcome.next (if_pos hr)
  · refine ⟨_, step_empty hp, ?_⟩
    rw [tick_due hr hd hc]
    exact ⟨setPending_keeps s _, fun c => mem_dueCommands⟩
  · refine ⟨_, step_empty hp, ?_⟩
    rw [tick_overflow hr hd hn]
    exact ⟨setPending_keeps s _, rfl⟩
  · refine ⟨_, step_empty hp, ?_⟩
    rw [tick_quiet hr hn]
    refine ⟨(advance_keeps s).trans ((setPending_keeps _ _).mono (by decide)),
      (advance_millisecondLater s).setPending _, fun c => ?_⟩
    rw [due_setPending]
    exact mem_dueCommands

end

section
/-! The grant of a captured write (06, R122). -/

namespace Sys2Proof.Machine

theorem get?_val {n : Nat} {α : Type} (t : Table n α) (i : Fin n) : t.get? i.val = some (t.get i) := by
  simp [Table.get?, Table.get, t.size]

theorem imageWord_signal (s : State) (n : Fin 256) : s.imageWord (offSignal n) = signalWord (s.sig.entries.get n) := by
  have hn : offSignal n < 0x0400 := by
    unfold offSignal
    omega
  unfold State.imageWord
  rw [if_pos hn, show offSignal n / 4 = n.val by unfold offSignal; omega, get?_val]
  rfl

theorem imageWord_gaugeTarget (s : State) (g : Fin 12) :
    s.imageWord (offGaugeTarget g) = BitVec.ofNat 32 (s.ind.gauges.get g).requested := by
  have hlo : 0x0620 ≤ offGaugeTarget g := Nat.le_add_right ..
  have hhi : offGaugeTarget g < 0x0680 := by
    unfold offGaugeTarget
    omega
  have hrow : (offGaugeTarget g - 0x0620) / 8 = g.val := by
    unfold offGaugeTarget
    omega
  have hword : (offGaugeTarget g - 0x0620) % 8 < 4 := by
    unfold offGaugeTarget
    omega
  unfold State.imageWord
  rw [if_neg (by omega), if_neg (by omega), if_neg (by omega), if_neg (by omega), if_neg (by omega), if_pos hhi, hrow, get?_val]
  simp [hword, gaugeTargetWord, field]

/-- What a superseded word leaves: its composed word in SRAM at its place (R122). -/
theorem supersede_stores {s : State} (h : Memory.wf Config.sramErased s.sram = true) (off : Nat) :
    StoresWord Config.sramErased s.sram (s.supersede off).sram (s.windowAddr off) (s.imageWord off) 0xF := by
  unfold State.supersede State.writeSram
  simp only [State.setSram_sram, State.setPath_sram]
  exact writeLanes_stores h _ _ _

/-- One entry of the signal table replaced. -/
def State.setEntry (s : State) (n : Fin 256) (e : Signal) : State :=
  s.setSig { s.sig with entries := s.sig.entries.set n e }

/-- A taken entry whose image is given at once: what its reports and its hand-over change besides. -/
theorem commitSignal_emits (s : State) (n : Fin 256) (e : Signal) (emit : State → State) :
    KeepsBut Part.readers (emit (s.setEntry n { e with sequence := (s.sig.entries.get n).sequence + 1 }))
      (s.commitSignal n e true emit) := by
  unfold State.commitSignal
  simp only [Bool.true_or, if_true]
  split
  · exact ((reportChange_evolves _ _ _).keeps.mono (by decide)).trans (handOn_evolves _ n).keeps
  · exact (reportChange_evolves _ _ _).keeps.mono (by decide)

theorem supersede_entries (off : Nat) (t : State) : (t.supersede off).sig.entries = t.sig.entries := rfl

/-! ## A captured signal (R5) -/

theorem captureSignal_host {s : State} {n : Fin 256} (h : (s.profile.signals.get n).source = .host) (word : Word) :
    s.captureSignal n word = s.commitSignal n ((s.sig.entries.get n).update (s.profile.signals.get n) (word.setWidth 16)) true
      (State.supersede (offSignal n)) := if_pos h

/-- The entry that a captured value leaves: an update, with one new sequence number (R2, R5, R6). -/
theorem captureSignal_entries {s : State} {n : Fin 256} (h : (s.profile.signals.get n).source = .host) (word : Word) :
    (s.captureSignal n word).sig.entries = s.sig.entries.set n
      { (s.sig.entries.get n).update (s.profile.signals.get n) (word.setWidth 16) with
        sequence := (s.sig.entries.get n).sequence + 1 } := by
  have := commitSignal_entries s n ((s.sig.entries.get n).update (s.profile.signals.get n) (word.setWidth 16)) true
    (State.supersede (offSignal n)) (supersede_entries _)
  rw [captureSignal_host h, this, Bool.true_or, if_pos rfl]

/-- The word that a captured value leaves in SRAM is the one that its entry composes. -/
theorem captureSignal_stores {s : State} {n : Fin 256} (h : (s.profile.signals.get n).source = .host) (word : Word)
    (hs : Memory.wf Config.sramErased s.sram = true) :
    StoresWord Config.sramErased s.sram (s.captureSignal n word).sram (s.windowAddr (offSignal n))
      (signalWord ((s.captureSignal n word).sig.entries.get n)) 0xF := by
  have hk := commitSignal_emits s n ((s.sig.entries.get n).update (s.profile.signals.get n) (word.setWidth 16))
    (State.supersede (offSignal n))
  rw [← captureSignal_host h word] at hk
  generalize hx : s.setEntry n _ = x at hk
  have hsram : (s.captureSignal n word).sram = (x.supersede (offSignal n)).sram := hk .sram (by decide)
  have hent : (s.captureSignal n word).sig.entries = x.sig.entries := hk .entries (by decide)
  have hst := supersede_stores (s := x) (by subst hx; exact hs) (offSignal n)
  rw [imageWord_signal, ← hent, ← hsram] at hst
  subst hx
  exact hst

/-! ## A captured gauge target (R108) -/

theorem aim_fields (x : Gauge) (t : Nat) : (x.aim t).1.target = t ∧ (x.aim t).1.requested = x.requested := by
  unfold Gauge.aim
  split <;> exact ⟨rfl, rfl⟩

/-- The one gauge that a new target changes. -/
theorem retarget_gauges (s : State) (g : Fin 12) (x : Gauge) :
    ∃ y, (s.retarget g x).ind.gauges = s.ind.gauges.set g y ∧ y.requested = x.requested ∧
      y.target = x.wanted (s.profile.gauges.get g) := by
  obtain ⟨ht, hr⟩ := aim_fields x (x.wanted (s.profile.gauges.get g))
  unfold State.retarget
  dsimp only
  split
  · exact ⟨_, rfl, hr, ht⟩
  · exact ⟨_, rfl, hr, ht⟩

/-- A new requested target: pursued at once in READY, recorded in every other state. -/
theorem setRequested_get (s : State) (g : Fin 12) (r : Nat) :
    ((s.setRequested g r).ind.gauges.get g).requested = r ∧
      ((s.ind.gauges.get g).state = .ready → ((s.setRequested g r).ind.gauges.get g).target = r) ∧
      ((s.ind.gauges.get g).state ≠ .ready →
        ((s.setRequested g r).ind.gauges.get g).target = (s.ind.gauges.get g).target) ∧
      ∀ j, j ≠ g → (s.setRequested g r).ind.gauges.get j = s.ind.gauges.get j := by
  unfold State.setRequested
  dsimp only
  split
  · next hr =>
    obtain ⟨y, hy, hreq, htar⟩ := retarget_gauges s g { s.ind.gauges.get g with requested := r }
    obtain ⟨hself, hothers⟩ := get_of_eq_set hy
    rw [hself]
    have hw : Gauge.wanted (s.profile.gauges.get g) { s.ind.gauges.get g with requested := r } = r := by
      simp [Gauge.wanted, hr]
    exact ⟨hreq, fun _ => htar.trans hw, fun hn => absurd hr hn, hothers⟩
  · next hr =>
    obtain ⟨hself, hothers⟩ : ((s.setGauge g { s.ind.gauges.get g with requested := r }).ind.gauges.get g) =
        { s.ind.gauges.get g with requested := r } ∧
          ∀ j, j ≠ g → (s.setGauge g { s.ind.gauges.get g with requested := r }).ind.gauges.get j = s.ind.gauges.get j :=
      get_of_eq_set rfl
    rw [hself]
    exact ⟨rfl, fun he => absurd he hr, fun _ => rfl, hothers⟩

theorem captureGauge_host {s : State} {g : Fin 12} (h : (s.profile.gauges.get g).mode = .host) (word : Word) :
    s.captureGauge g word = State.supersede (offGaugeTarget g)
      (s.setRequested g (min (word.setWidth 16).toNat (s.profile.gauges.get g).full)) := if_pos h

theorem captureGauge_keeps {s : State} {g : Fin 12} (h : (s.profile.gauges.get g).mode = .host) (word : Word) :
    KeepsBut (.sram :: .gauges :: Part.images) s (s.captureGauge g word) := by
  rw [captureGauge_host h]
  exact ((setRequested_evolves _ _ _).keeps.mono (by decide)).trans ((supersede_evolves _ _).keeps.mono (by decide))

/-- The word that a captured target leaves in SRAM is the requested target. -/
theorem captureGauge_stores {s : State} {g : Fin 12} (h : (s.profile.gauges.get g).mode = .host) (word : Word)
    (hs : Memory.wf Config.sramErased s.sram = true) :
    StoresWord Config.sramErased s.sram (s.captureGauge g word).sram (s.windowAddr (offGaugeTarget g))
      (BitVec.ofNat 32 ((s.captureGauge g word).ind.gauges.get g).requested) 0xF := by
  rw [captureGauge_host h]
  generalize hx : s.setRequested g _ = x
  have hk : KeepsBut (.gauges :: Part.images) s x := hx ▸ (setRequested_evolves _ _ _).keeps
  have hsram : x.sram = s.sram := hk .sram (by decide)
  have hstraps : x.path.straps = s.path.straps := hk .straps (by decide)
  have hst := supersede_stores (s := x) (hsram ▸ hs) (offGaugeTarget g)
  rw [imageWord_gaugeTarget, hsram] at hst
  unfold State.windowAddr at hst ⊢
  rw [hstraps] at hst
  exact hst

/-! ## The grant -/

/-- The access that the P-port holds, released. -/
def State.released (s : State) : State := s.setPath { s.path with held := none }

theorem released_keeps (s : State) : KeepsBut [.held] s s.released := (setHeld_evolves s none).keeps

theorem requeue_held (s : State) : s.requeue.path.held = s.path.held := rfl
theorem requeue_sig (s : State) : s.requeue.sig = s.sig := rfl
theorem requeue_ind (s : State) : s.requeue.ind = s.ind := rfl
theorem requeue_sram (s : State) : s.requeue.sram = s.sram := rfl

/-- A captured write granted under an open window outside PARKED reaches its owner. -/
theorem grantCaptured_open {s : State} (hg : s.hostGranted = true) (hw : s.path.windowOpen = true)
    (hm : s.mode.mode ≠ .parked) (capture : State → State) : s.grantCaptured capture = (capture s.released).requeue := by
  unfold State.grantCaptured
  rw [if_pos hg]
  exact if_neg (by simp [hw, hm])

/-- One granted under a closed window or in PARKED is dropped. -/
theorem grantCaptured_dropped {s : State} (hg : s.hostGranted = true)
    (h : s.path.windowOpen = false ∨ s.mode.mode = .parked) (capture : State → State) :
    s.grantCaptured capture = s.released := by
  unfold State.grantCaptured
  rw [if_pos hg]
  exact if_pos (by simpa using h)

theorem grantHeld_signal {s : State} {n : Fin 256} {word : Word} (h : s.path.held = some (.signal n word)) :
    s.grantHeld = s.grantCaptured (fun t => t.captureSignal n word) := by
  unfold State.grantHeld
  rw [h]

theorem grantHeld_gauge {s : State} {g : Fin 12} {word : Word} (h : s.path.held = some (.gauge g word)) :
    s.grantHeld = s.grantCaptured (fun t => t.captureGauge g word) := by
  unfold State.grantHeld
  rw [h]

theorem exec_capturedWriteGrant {s : State} (hr : s.running) {a : HeldAccess} (h : s.path.held = some a) :
    exec .capturedWriteGrant s = .next (if a.captured then s.grantHeld.takeWork else s) := by
  simp only [exec, execCapturedWriteGrant, live_running hr, h, Option.any_some]

end Sys2Proof.Machine

open Sys2Proof Sys2Proof.Machine

/-- Settles O37: a captured signal, a captured gauge target, one that is dropped, and an access that is no captured write. -/
theorem capturedWriteGrant : Obligations.CapturedWriteGrant := by
  intro s hr hg hs
  refine ⟨fun n word hh hw hm _ hsrc => ?_, fun g word hh hw hm hmode => ?_, fun hh hc => ?_, fun x hh => ?_⟩
  · have he : s.grantHeld = (s.released.captureSignal n word).requeue := by
      rw [grantHeld_signal hh, grantCaptured_open hg hw hm]
    have hheld : (s.released.captureSignal n word).path.held = none :=
      (captureSignal_evolves s.released n word).keeps .held (by decide)
    have hstore := captureSignal_stores (s := s.released) hsrc word hs
    obtain ⟨hself, hothers⟩ := get_of_eq_set (captureSignal_entries (s := s.released) hsrc word)
    refine gives_work (t := s.grantHeld) ?_ (grantHeld_evolves s).keeps ?_
    · rw [exec_capturedWriteGrant hr hh]
      rfl
    · simp only [State.Updated, State.Unmoved, takeWork_path, takeWork_sig, takeWork_sram, he, requeue_held, requeue_sig,
        requeue_sram]
      refine ⟨hheld, ?_, ?_, hothers, hstore⟩
      · rw [hself]
        exact update_fields _ _ _
      · rw [hself]
        rfl
  · have he : s.grantHeld = (s.released.captureGauge g word).requeue := by
      rw [grantHeld_gauge hh, grantCaptured_open hg hw hm]
    have hk := captureGauge_keeps (s := s.released) hmode word
    have hstore := captureGauge_stores (s := s.released) hmode word hs
    have hget := setRequested_get s.released g (min (word.setWidth 16).toNat (s.profile.gauges.get g).full)
    have hind : (s.released.captureGauge g word).ind =
        (s.released.setRequested g (min (word.setWidth 16).toNat (s.profile.gauges.get g).full)).ind := by
      rw [captureGauge_host (s := s.released) hmode]
      rfl
    refine gives_work (t := s.grantHeld) ?_ ?_ ?_
    · rw [exec_capturedWriteGrant hr hh]
      rfl
    · rw [he]
      exact ((released_keeps s).mono (by decide)).trans ((hk.mono (by decide)).trans ((requeue_evolves _).keeps.mono (by decide)))
    · simp only [takeWork_path, takeWork_ind, takeWork_sram, he, requeue_held, requeue_ind, requeue_sram]
      rw [hind] at hstore ⊢
      obtain ⟨hreq, hready, hrest, hothers⟩ := hget
      exact ⟨hk .held (by decide), hreq, hready, hrest, hothers, hstore⟩
  · have he : s.grantHeld = s.released := by
      rcases hh with ⟨n, word, hh⟩ | ⟨g, word, hh⟩
      · rw [grantHeld_signal hh, grantCaptured_dropped hg hc]
      · rw [grantHeld_gauge hh, grantCaptured_dropped hg hc]
    refine gives_work (t := s.released) ?_ (released_keeps s) ?_
    · rcases hh with ⟨n, word, hh⟩ | ⟨g, word, hh⟩ <;> rw [exec_capturedWriteGrant hr hh, ← he] <;> rfl
    · rw [takeWork_path]
      rfl
  · rw [exec_capturedWriteGrant hr hh]
    rfl

end

section
/-! No event withdraws an attention cause: what is pending before the ignition is judged, a mode is entered or a unit resumes is pending
after it (R132, R182, R185). -/

namespace Sys2Proof.Machine

/-- Every attention cause that is pending in `s` is pending in `t`. -/
structure Alerts (s t : State) : Prop where
  pending : ∀ c, s.causePending c → t.causePending c

namespace Alerts

theorem refl {s : State} : Alerts s s := ⟨fun _ => id⟩

/-- The attention set is the same. -/
theorem same {s t : State} (h : t.path.attnPending = s.path.attnPending) : Alerts s t :=
  ⟨fun _ hc => by
    unfold State.causePending
    rw [h]
    exact hc⟩

theorem trans {s t u : State} (h : Alerts s t) (g : Alerts t u) : Alerts s u := ⟨fun c hc => g.pending c (h.pending c hc)⟩

/-- An operation after one that leaves the attention set alone. -/
theorem after {s t u : State} (g : Alerts t u) (h : t.path.attnPending = s.path.attnPending) : Alerts s u := (same h).trans g

/-- An operation that sets no cause. -/
theorem of {l : List Part} {s t : State} (h : Evolves l s t) (hl : Part.attnPending ∉ l) : Alerts s t :=
  same (h.keeps .attnPending hl)

theorem ite {s t u : State} {c : Prop} [Decidable c] (h : Alerts s t) (g : Alerts s u) : Alerts s (if c then t else u) := by
  split <;> assumption

/-- An operation done on a condition. -/
theorem iteThen {s t u : State} {c : Prop} [Decidable c] (h : Alerts s t) (g : Alerts t u) : Alerts s (if c then u else t) :=
  ite (h.trans g) h

theorem forEach {α : Type} {f : State → α → State} (h : ∀ t a, Alerts t (f t a)) (xs : List α) (s : State) :
    Alerts s (s.forEach xs f) := by
  induction xs generalizing s with
  | nil => exact .refl
  | cons x xs ih => exact (h s x).trans (ih (f s x))

end Alerts

/-! ## The attention set (R125, R132) -/

theorem setCause_alerts (s : State) (c : Cause) : Alerts s (s.setCause c) :=
  ⟨fun d hd => by
    show (s.path.attnPending ||| c.mask).getLsbD d.bit = true
    rw [BitVec.getLsbD_or, hd, Bool.true_or]⟩

theorem setCause_pending (s : State) (c : Cause) : (s.setCause c).causePending c := by
  have hm : c.mask.getLsbD c.bit = true := by cases c <;> decide
  show (s.path.attnPending ||| c.mask).getLsbD c.bit = true
  rw [BitVec.getLsbD_or, hm, Bool.or_true]

theorem offer_attnPending (p : MemoryPath) (off : Nat) (w : Word) :
    (p.offer off w).attnPending = p.attnPending ∨ (p.offer off w).attnPending = p.attnPending ||| Cause.mask .updateOverflow := by
  unfold MemoryPath.offer
  split
  · exact .inl rfl
  · split
    · exact .inl rfl
    · split
      · exact .inl rfl
      · dsimp only
        split
        · exact .inr rfl
        · exact .inl rfl

theorem offer_alerts (s : State) (off : Nat) : Alerts s (s.offer off) := by
  rcases offer_attnPending s.path off (s.imageWord off) with h | h
  · exact .same h
  · exact ⟨fun c hc => by
      show (s.path.offer off (s.imageWord off)).attnPending.getLsbD c.bit = true
      rw [h]
      exact (setCause_alerts s .updateOverflow).pending c hc⟩

theorem offerChanged_alerts (old s : State) (offs : List Nat) : Alerts s (State.offerChanged old s offs) :=
  Alerts.forEach (f := fun t o => if old.imageWord o = s.imageWord o then t else t.offer o)
    (fun t o => .ite .refl (offer_alerts t o)) offs s

theorem offerStatus_alerts (old s : State) : Alerts s (State.offerStatus old s) := .ite .refl (offer_alerts s _)

/-! ## Gauges and the end of a test (R106, R177) -/

theorem setGauge_offer_alerts (s : State) (g : Fin 12) (x : Gauge) (off : Nat) : Alerts s ((s.setGauge g x).offer off) :=
  .after (offer_alerts (s.setGauge g x) off) rfl

theorem enterGauge_alerts (s : State) (g : Fin 12) (x : Gauge) : Alerts s (s.enterGauge g x) := setGauge_offer_alerts ..

theorem parkDecision_alerts (s : State) (g : Fin 12) : Alerts s (s.parkDecision g) := by
  unfold State.parkDecision
  exact .ite (enterGauge_alerts ..) .refl

theorem parkHostGauge_alerts (s : State) (g : Fin 12) : Alerts s (s.parkHostGauge g) := .ite (parkDecision_alerts ..) .refl

theorem startHoming_alerts (s : State) (g : Fin 12) : Alerts s (s.startHoming g) := by
  unfold State.startHoming
  exact .ite (.ite (.same rfl) (setGauge_offer_alerts ..)) .refl

theorem homeAll_alerts (s : State) : Alerts s s.homeAll := .forEach startHoming_alerts _ _

theorem unhome_alerts (s : State) (g : Fin 12) : Alerts s (s.unhome g) := by
  unfold State.unhome
  exact .ite .refl (setGauge_offer_alerts ..)

theorem leaveSweep_alerts (s : State) (g : Fin 12) : Alerts s (s.leaveSweep g) := by
  unfold State.leaveSweep
  exact .ite (enterGauge_alerts ..) .refl

theorem endTest_alerts (s : State) (o : TestOutcome) : Alerts s (s.endTest o) := by
  unfold State.endTest
  refine .ite .refl ?_
  dsimp only
  have status : ∀ x : ServiceUnit, Alerts s (s.offerStatus (s.setSvc x)) := fun x => .after (offerStatus_alerts s (s.setSvc x)) rfl
  split
  · exact status _
  · exact (status _).trans (.of (evalAllLamps_evolves _) (by decide))
  · exact (status _).trans (.forEach leaveSweep_alerts _ _)
  · exact (status _).trans (.of (endChimeTest_evolves _) (by decide))

/-! ## Warnings and the fault memory (R89, R156) -/

theorem commitWarnings_alerts (s : State) (rows : Table 96 Warning) : Alerts s (s.commitWarnings rows) := by
  unfold State.commitWarnings
  dsimp only
  refine .trans ?_ (.of (evalChime_evolves _) (by decide))
  refine .trans ?_ (.of (evalLampsNaming_evolves _ _) (by decide))
  refine .iteThen ?_ (endTest_alerts _ _)
  refine .iteThen ?_ (setCause_alerts _ _)
  exact .after (offerChanged_alerts _ _ _) rfl

theorem evalWarnings_alerts (s : State) (p : WarnCfg → Bool) : Alerts s (s.evalWarnings p) :=
  .ite (commitWarnings_alerts _ _) .refl

theorem resumeWarnings_alerts (s : State) : Alerts s s.resumeWarnings := .after (evalWarnings_alerts _ _) rfl

theorem parkWarnings_alerts (s : State) : Alerts s s.parkWarnings := by
  unfold State.parkWarnings
  exact (commitWarnings_alerts s _).trans (.same rfl)

theorem commitFaults_alerts (s : State) (fm : FaultMemory) (slots : List (Fin 32)) (b : Bool) :
    Alerts s (s.commitFaults fm slots b) := by
  unfold State.commitFaults
  dsimp only
  have h := fun c : Bool => Alerts.iteThen (c := c = true)
    (.after (s := s) (offerChanged_alerts s (s.setFm fm) (recordOffsets slots ++ [offCountB, offStatus])) rfl)
    (setCause_alerts _ .fault)
  exact .ite (h _) ((h _).trans (evalWarnings_alerts _ _))

theorem appear_alerts (s : State) (c : FaultCode) : Alerts s (s.appear c) := by
  unfold State.appear
  refine .ite .refl (.ite (commitFaults_alerts ..) ?_)
  dsimp only
  split
  · split
    · exact .same rfl
    · exact .ite (commitFaults_alerts ..) (.same rfl)
  · exact commitFaults_alerts ..

theorem disappear_alerts (s : State) (c : FaultCode) : Alerts s (s.disappear c) := by
  unfold State.disappear
  refine .ite ?_ .refl
  dsimp only
  split
  · exact .same rfl
  · split
    · exact .same rfl
    · split
      · exact commitFaults_alerts ..
      · exact commitFaults_alerts ..
      · exact .same rfl

theorem reportChange_alerts (s : State) (a b : Option FaultCode) : Alerts s (s.reportChange a b) := by
  unfold State.reportChange
  refine .ite .refl ?_
  cases a with
  | none =>
    cases b with
    | none => exact .refl
    | some c => exact appear_alerts s c
  | some d =>
    cases b with
    | none => exact disappear_alerts s d
    | some c => exact (disappear_alerts s d).trans (appear_alerts _ c)

theorem healingPass_alerts (s : State) : Alerts s s.healingPass := commitFaults_alerts ..

/-! ## Motion, doors, supervision and lines (R18, R64, R143, R48) -/

theorem judgeLevel_alerts (s : State) : Alerts s s.judgeLevel := by
  unfold State.judgeLevel
  exact .iteThen (.after (offerStatus_alerts s _) rfl) (endTest_alerts _ _)

theorem deriveMotion_alerts (s : State) : Alerts s s.deriveMotion := by
  unfold State.deriveMotion State.takeMotion
  refine .ite (.same rfl) ?_
  refine .trans ?_ (judgeLevel_alerts _)
  refine .trans ?_ (evalWarnings_alerts _ _)
  exact .after (offerStatus_alerts s _) rfl

theorem handDoors_alerts (old s : State) (ds : List (Fin 6)) (passed : Bool) {report : State → Fin 6 → State}
    (h : ∀ t d, Alerts t (report t d)) : Alerts s (State.handDoors old s ds passed report) := by
  unfold State.handDoors
  dsimp only
  refine .iteThen ?_ (.of (evalLampsNaming_evolves _ _) (by decide))
  refine .trans (t := State.forEach _ ds report) ?_ (.ite .refl (evalWarnings_alerts _ _))
  refine .trans ?_ (.forEach h _ _)
  refine .iteThen ?_ (setCause_alerts _ _)
  exact (offerChanged_alerts _ _ _).trans (offerStatus_alerts _ _)

theorem commitDoor_alerts (s : State) (d : Fin 6) (x : Door) : Alerts s (s.commitDoor d x) :=
  .after (handDoors_alerts s _ _ _ fun _ _ => reportChange_alerts ..) rfl

theorem resumeDoors_alerts (s : State) : Alerts s s.resumeDoors := by
  unfold State.resumeDoors
  refine .trans ?_ (.forEach (fun t d => .ite (commitDoor_alerts t d _) .refl) _ _)
  exact .after (handDoors_alerts s _ _ _ fun _ _ => (reportChange_alerts ..).trans (reportChange_alerts ..)) rfl

theorem commitSup_alerts (s : State) (u : Supervision) : Alerts s (s.commitSup u) := by
  unfold State.commitSup
  refine .ite (.same rfl) ?_
  dsimp only
  refine .trans ?_ (setCause_alerts _ _)
  refine .trans ?_ (offer_alerts _ _)
  refine .trans ?_ (reportChange_alerts _ _ _)
  refine .trans ?_ (.forEach parkHostGauge_alerts _ _)
  exact .after (.of (evalLampsNaming_evolves _ _) (by decide)) rfl

theorem resumeSup_alerts (s : State) : Alerts s s.resumeSup := commitSup_alerts ..

theorem resumeSignals_alerts (s : State) : Alerts s s.resumeSignals := by
  unfold State.resumeSignals
  refine .trans ?_ (deriveMotion_alerts _)
  refine .trans ?_ (.forEach (fun t n => reportChange_alerts t _ _) _ _)
  exact .after (offerChanged_alerts s _ _) rfl

theorem resumeLines_alerts (s : State) : Alerts s s.resumeLines := by
  unfold State.resumeLines
  refine .trans ?_ (.forEach (fun t l => reportChange_alerts t _ _) _ _)
  exact .after (offerChanged_alerts s _ _) rfl

/-! ## Modes (R180 to R185) -/

theorem enterRunIndication_alerts (s : State) : Alerts s s.enterRunIndication := by
  unfold State.enterRunIndication
  refine .trans ?_ (.of (evalChime_evolves _) (by decide))
  exact (Alerts.of (evalAllLamps_evolves s) (by decide)).trans (homeAll_alerts _)

theorem startCycle_alerts (s : State) : Alerts s s.startCycle := by
  unfold State.startCycle
  dsimp only
  refine .trans ?_ (homeAll_alerts _)
  exact Alerts.ite (.same rfl) (.after (.of (evalAllLamps_evolves _) (by decide)) rfl)

theorem enterParking_alerts (s : State) : Alerts s s.enterParking := by
  unfold State.enterParking State.parkIndication
  dsimp only
  refine .trans ?_ (.of (evalAllLamps_evolves _) (by decide))
  refine .trans ?_ (.forEach unhome_alerts _ _)
  refine .trans ?_ (.of (silenceChime_evolves _) (by decide))
  refine .trans ?_ (.of (setLampCheck_evolves _ _) (by decide))
  refine .trans ?_ (endTest_alerts _ _)
  refine .trans ?_ (parkWarnings_alerts _)
  refine .trans ?_ (.of (setCountersPending_evolves _) (by decide))
  refine Alerts.iteThen ?_ (healingPass_alerts _)
  exact .after (offerStatus_alerts s (s.setMode _)) rfl

theorem startOffTimer_alerts (s : State) : Alerts s s.startOffTimer := by
  unfold State.startOffTimer
  exact Alerts.ite (enterParking_alerts s) (.same rfl)

theorem judgeIgnition_alerts (s : State) : Alerts s s.judgeIgnition := by
  have judged : ∀ x : ModeUnit, Alerts s (s.setMode x) := fun _ => .same rfl
  unfold State.judgeIgnition
  dsimp only
  refine Alerts.ite ?_ (judged _)
  split
  · exact Alerts.ite (judged _) ((judged _).trans (startCycle_alerts _))
  · exact judged _
  · exact Alerts.ite (judged _) ((judged _).trans (startOffTimer_alerts _))

theorem judgeIgnitionAtRun_alerts (s : State) : Alerts s s.judgeIgnitionAtRun := by
  unfold State.judgeIgnitionAtRun
  exact .after (judgeIgnition_alerts (s.setMode _)) rfl

/-- A return to RUN sets the cause WAKE (R185). -/
theorem takeWakeCause_pending (s : State) : s.takeWakeCause.causePending .wake := setCause_pending _ _

theorem returnToRun_pending (s : State) : s.returnToRun.causePending .wake := by
  unfold State.returnToRun
  refine Alerts.pending ?_ _ (takeWakeCause_pending s)
  exact ((resumeWarnings_alerts _).trans (enterRunIndication_alerts _)).trans (judgeIgnitionAtRun_alerts _)

/-- The units that a profile in force makes resume: signals, filters, lines, doors (R23, R48, R68). -/
def State.resumeUnits (s : State) : State :=
  if s.inForce then ((s.resumeSignals.setInp s.resumeSignals.inp.resumed).resumeLines).resumeDoors else s

theorem wakeResume_eq (s : State) :
    s.wakeResume =
      (s.takeWakeCause.resumeUnits.resumeSup.resumeWarnings.enterRunIndication.judgeLevel).judgeIgnitionAtRun := by
  unfold State.wakeResume State.resumeUnits
  rfl

theorem resumeUnits_alerts (s : State) : Alerts s s.resumeUnits := by
  unfold State.resumeUnits
  refine Alerts.ite ?_ .refl
  refine .trans ?_ (resumeDoors_alerts _)
  exact (resumeSignals_alerts s).trans (.after (resumeLines_alerts _) rfl)

theorem wakeResume_pending (s : State) : s.wakeResume.causePending .wake := by
  rw [wakeResume_eq]
  refine Alerts.pending ?_ _ (takeWakeCause_pending s)
  refine .trans ?_ (judgeIgnitionAtRun_alerts _)
  refine .trans ?_ (judgeLevel_alerts _)
  refine .trans ?_ (enterRunIndication_alerts _)
  refine .trans ?_ (resumeWarnings_alerts _)
  exact (resumeUnits_alerts _).trans (resumeSup_alerts _)

end Sys2Proof.Machine
end

section
/-! The mode unit through an entry into PARKING, a drive-cycle start and the ignition judged anew (10, R180 to R182). -/

namespace Sys2Proof.Machine

theorem satInc_cycle (v : BitVec 24) : satInc v = if v.toNat = 16777215 then v else v + 1 := by
  unfold satInc
  by_cases h : v = BitVec.allOnes 24
  · subst h
    rfl
  · have : v.toNat ≠ 16777215 := fun e => h (BitVec.eq_of_toNat_eq (by rw [e]; rfl))
    rw [if_neg h, if_neg this]

/-! ## The mode unit -/

/-- The mode unit of an entry into PARKING (R182). -/
def ModeUnit.parking (u : ModeUnit) : ModeUnit :=
  { u with mode := .parking, offTimer := none, cycleOpen := false, wakePending := {} }

/-- The mode unit of a drive-cycle start (R181). -/
def ModeUnit.cycleStarted (u : ModeUnit) : ModeUnit := { u with cycleOpen := true, cycle := satInc u.cycle, time := 0 }

/-- The mode unit of a return to RUN (R185). -/
def ModeUnit.returned (u : ModeUnit) : ModeUnit := { u with mode := .run, wakeCause := u.wakePending, wakePending := {} }

/-- The parts that the mode unit holds. -/
def Part.modeUnit : List Part := [.opMode, .inReset, .cycle, .ignition, .wake, .causes]

/-- An operation that changes none of its parts leaves the mode unit as it was. -/
theorem mode_of_keeps {l : List Part} {s t : State} (h : KeepsBut l s t) (hl : ∀ p ∈ Part.modeUnit, p ∉ l) :
    t.mode = s.mode := by
  have hm := h .opMode (hl _ (by decide))
  have hr := h .inReset (hl _ (by decide))
  obtain ⟨hco, hcy, hti⟩ := h .cycle (hl _ (by decide))
  obtain ⟨hig, hof⟩ := h .ignition (hl _ (by decide))
  obtain ⟨hwp, hwc⟩ := h .wake (hl _ (by decide))
  have hca := h .causes (hl _ (by decide))
  simp only [Part.Same] at hm hr hca
  generalize t.mode = u at *
  generalize s.mode = v at *
  cases u
  cases v
  simp_all

theorem mode_of_evolves {l : List Part} {s t : State} (h : Evolves l s t) (hl : ∀ p ∈ Part.modeUnit, p ∉ l) :
    t.mode = s.mode := mode_of_keeps h.keeps hl

theorem enterParking_modeUnit (s : State) : s.enterParking.mode = s.mode.parking := by
  unfold State.enterParking State.parkIndication
  dsimp only
  rw [mode_of_evolves (evalAllLamps_evolves _) (by decide),
    mode_of_evolves (Evolves.forEach unhome_evolves _ _) (by decide), mode_of_evolves (silenceChime_evolves _) (by decide),
    mode_of_evolves (setLampCheck_evolves _ _) (by decide), mode_of_evolves (endTest_evolves _ _) (by decide),
    mode_of_evolves (parkWarnings_evolves _) (by decide), mode_of_evolves (setCountersPending_evolves _) (by decide)]
  have entered := mode_of_evolves (offerStatus_evolves s (s.setMode s.mode.parking)) (by decide)
  split
  · exact (mode_of_evolves (healingPass_evolves _) (by decide)).trans entered
  · exact entered

theorem startCycle_modeUnit (s : State) : s.startCycle.mode = s.mode.cycleStarted := by
  unfold State.startCycle
  dsimp only
  rw [mode_of_evolves (homeAll_evolves _) (by decide)]
  split
  · rfl
  · exact mode_of_evolves (evalAllLamps_evolves _) (by decide)

theorem takeWakeCause_modeUnit (s : State) : s.takeWakeCause.mode = s.mode.returned := by
  unfold State.takeWakeCause
  dsimp only
  rw [mode_of_evolves (setCause_evolves _ _) (by decide)]
  exact mode_of_evolves (offerStatus_evolves s (s.setMode s.mode.returned)) (by decide)

/-! ## The cases of the ignition judged (R180) -/

/-- The ignition taken as its signal stands, with an ignition-off timer. -/
def State.judgedAs (s : State) (offTimer : Option Nat) : State :=
  s.setMode { s.mode with ignition := s.ignitionNow, offTimer := offTimer }

section cases

variable {s : State}

theorem judgeIgnition_elsewhere (hm : s.mode.mode ≠ .run) : s.judgeIgnition = s.judgedAs s.mode.offTimer := by
  unfold State.judgeIgnition
  exact if_neg hm

theorem judgeIgnition_unknown (hm : s.mode.mode = .run) (hn : s.ignitionNow = .unknown) :
    s.judgeIgnition = s.judgedAs none := by
  unfold State.judgeIgnition
  dsimp only
  rw [if_pos hm]
  simp only [hn, State.judgedAs]
  rfl

theorem judgeIgnition_starts (hm : s.mode.mode = .run) (hn : s.ignitionNow = .on) (hc : s.mode.cycleOpen = false) :
    s.judgeIgnition = (s.judgedAs none).startCycle := by
  unfold State.judgeIgnition
  dsimp only
  rw [if_pos hm]
  simp only [hn, hc, State.judgedAs]
  rfl

theorem judgeIgnition_goesOn (hm : s.mode.mode = .run) (hn : s.ignitionNow = .on) (hc : s.mode.cycleOpen = true) :
    s.judgeIgnition = s.judgedAs none := by
  unfold State.judgeIgnition
  dsimp only
  rw [if_pos hm]
  simp only [hn, hc, State.judgedAs]
  rfl

theorem judgeIgnition_stays (hm : s.mode.mode = .run) (hn : s.ignitionNow = .off) (hw : s.mode.ignition = .off) :
    s.judgeIgnition = s.judgedAs s.mode.offTimer := by
  unfold State.judgeIgnition
  dsimp only
  rw [if_pos hm]
  simp only [hn, State.judgedAs]
  exact if_pos hw

theorem judgeIgnition_timed (hm : s.mode.mode = .run) (hn : s.ignitionNow = .off) (hw : s.mode.ignition ≠ .off)
    (hd : s.profile.ignitionOff ≠ 0) : s.judgeIgnition = s.judgedAs (some 0) := by
  unfold State.judgeIgnition
  dsimp only
  rw [if_pos hm]
  simp only [hn, State.judgedAs]
  rw [if_neg hw]
  exact startOffTimer_timed _ hd

theorem judgeIgnition_parks (hm : s.mode.mode = .run) (hn : s.ignitionNow = .off) (hw : s.mode.ignition ≠ .off)
    (hd : s.profile.ignitionOff = 0) : s.judgeIgnition = (s.judgedAs s.mode.offTimer).enterParking := by
  unfold State.judgeIgnition
  dsimp only
  rw [if_pos hm]
  simp only [hn, State.judgedAs]
  rw [if_neg hw]
  exact startOffTimer_parks _ hd

end cases

/-- The mode unit after the ignition was judged: its ignition and off timer, a drive cycle started, or PARKING entered. -/
theorem judgeIgnition_mode (s : State) :
    ∃ timer, s.judgeIgnition.mode = (s.judgedAs timer).mode ∨
      s.mode.mode = .run ∧ s.judgeIgnition.mode = (s.judgedAs timer).mode.cycleStarted ∨
      s.mode.mode = .run ∧ s.profile.ignitionOff = 0 ∧ s.judgeIgnition.mode = (s.judgedAs timer).mode.parking := by
  by_cases hm : s.mode.mode = .run
  · cases hn : s.ignitionNow with
    | on =>
      cases hc : s.mode.cycleOpen with
      | true => exact ⟨none, .inl (by rw [judgeIgnition_goesOn hm hn hc])⟩
      | false => exact ⟨none, .inr (.inl ⟨hm, by rw [judgeIgnition_starts hm hn hc, startCycle_modeUnit]⟩)⟩
    | unknown => exact ⟨none, .inl (by rw [judgeIgnition_unknown hm hn])⟩
    | off =>
      by_cases hw : s.mode.ignition = .off
      · exact ⟨_, .inl (by rw [judgeIgnition_stays hm hn hw])⟩
      · by_cases hd : s.profile.ignitionOff = 0
        · exact ⟨_, .inr (.inr ⟨hm, hd, by rw [judgeIgnition_parks hm hn hw hd, enterParking_modeUnit]⟩)⟩
        · exact ⟨_, .inl (by rw [judgeIgnition_timed hm hn hw hd])⟩
  · exact ⟨_, .inl (by rw [judgeIgnition_elsewhere hm])⟩

theorem judgeIgnition_ignition (s : State) : s.judgeIgnition.mode.ignition = s.ignitionNow := by
  obtain ⟨timer, h | ⟨-, h⟩ | ⟨-, -, h⟩⟩ := judgeIgnition_mode s <;> rw [h] <;> rfl

/-- The ignition judged in RUN with no wake kind pending: the wake cause stays, and the device is in RUN, or in PARKING at once (R180). -/
theorem judgeIgnition_wake {s : State} (hm : s.mode.mode = .run) (hw : s.mode.wakePending = {}) :
    s.judgeIgnition.mode.wakeCause = s.mode.wakeCause ∧ s.judgeIgnition.mode.wakePending = {} ∧
      (s.judgeIgnition.mode.mode = .run ∨ s.judgeIgnition.mode.mode = .parking ∧ s.profile.ignitionOff = 0) := by
  obtain ⟨timer, h | ⟨-, h⟩ | ⟨-, hd, h⟩⟩ := judgeIgnition_mode s <;> rw [h]
  · exact ⟨rfl, hw, .inl hm⟩
  · exact ⟨rfl, hw, .inl hm⟩
  · exact ⟨rfl, rfl, .inr ⟨rfl, hd⟩⟩

/-- What an entry into RUN leaves of the mode unit that it begins with, once the ignition was judged (R180, R185). -/
theorem judgeIgnitionAtRun_wake {s : State} {u : ModeUnit} (h : s.mode = u.returned) :
    s.judgeIgnitionAtRun.mode.wakeCause = u.wakePending ∧ s.judgeIgnitionAtRun.mode.wakePending = {} ∧
      (s.judgeIgnitionAtRun.mode.mode = .run ∨ s.judgeIgnitionAtRun.mode.mode = .parking ∧ s.profile.ignitionOff = 0) := by
  have hm : s.mode.mode = .run := h ▸ rfl
  have hw : s.mode.wakePending = {} := h ▸ rfl
  have hc : s.mode.wakeCause = u.wakePending := h ▸ rfl
  obtain ⟨hcause, hpending, hmode⟩ := judgeIgnition_wake (s := s.setMode { s.mode with ignition := .unknown }) hm hw
  exact ⟨hcause.trans hc, hpending, hmode⟩

end Sys2Proof.Machine
end

section
/-! A wake event in PARKED: the resumption of the signal table and of supervision, and the commands that wake the device (10, R184, R185). -/

namespace Sys2Proof.Machine

/-! ## What a wake resume leaves (R23, R146, R185) -/

/-- The signal table of a wake resume (R23). -/
def State.resumedEntries (s : State) : Table 256 Signal :=
  .ofFn fun n => (s.sig.entries.get n).resumed (s.profile.signals.get n)

theorem resumeSignals_entries (s : State) : s.resumeSignals.sig.entries = s.resumedEntries := by
  unfold State.resumeSignals
  dsimp only
  rw [(deriveMotion_evolves _).keeps .entries (by decide),
    (Evolves.forEach (fun t n => reportChange_evolves t _ _) _ _).keeps .entries (by decide),
    (offerChanged_evolves _ _ _).keeps .entries (by decide)]
  rfl

theorem resumeUnits_entries (s : State) :
    s.resumeUnits.sig.entries = if s.inForce then s.resumedEntries else s.sig.entries := by
  unfold State.resumeUnits
  split
  · rw [(resumeDoors_evolves _).keeps .entries (by decide), (resumeLines_evolves _).keeps .entries (by decide)]
    exact resumeSignals_entries s
  · rfl

theorem resumeUnits_evolves (s : State) :
    Evolves (.entries :: .inputs :: .speed :: .lines :: .shared :: .doors :: Part.motionChange ++ Part.faults) s s.resumeUnits := by
  unfold State.resumeUnits
  refine Evolves.ite ?_ .refl
  refine Evolves.trans ?_ ((resumeDoors_evolves _).mono (by decide))
  refine Evolves.trans ?_ ((resumeLines_evolves _).mono (by decide))
  exact ((resumeSignals_evolves _).mono (by decide)).trans ((setInp_alone _ _).mono (by decide))

/-- What follows the resumption of the units, up to the judging of the ignition. -/
theorem resumeRest_evolves (s : State) :
    Evolves (.supervision :: .ackLevel :: .level :: Part.testEnd ++ Part.faults) s
      s.resumeSup.resumeWarnings.enterRunIndication.judgeLevel := by
  refine Evolves.trans ?_ ((judgeLevel_evolves _).mono (by decide))
  refine Evolves.trans ?_ ((enterRunIndication_evolves _).mono (by decide))
  refine Evolves.trans ?_ ((resumeWarnings_evolves _).mono (by decide))
  exact (resumeSup_evolves _).mono (by decide)

theorem takeWakeCause_sig (s : State) : s.takeWakeCause.sig.entries = s.sig.entries ∧ s.takeWakeCause.profile = s.profile ∧
    s.takeWakeCause.inForce = s.inForce := by
  have k := (takeWakeCause_evolves s).keeps
  have hs : s.takeWakeCause.profStatus = s.profStatus := k .profStatus (by decide)
  refine ⟨k .entries (by decide), k .profile (by decide), ?_⟩
  unfold State.inForce
  rw [hs]

theorem wakeResume_entries (s : State) :
    s.wakeResume.sig.entries = if s.inForce then s.resumedEntries else s.sig.entries := by
  obtain ⟨he, hp, hf⟩ := takeWakeCause_sig s
  rw [wakeResume_eq, (judgeIgnitionAtRun_evolves _).keeps .entries (by decide),
    (resumeRest_evolves _).keeps .entries (by decide), resumeUnits_entries, hf, he]
  unfold State.resumedEntries
  rw [he, hp]

theorem wakeResume_sup (s : State) : s.wakeResume.sup.state = .starting ∧ s.wakeResume.sup.reference = none := by
  have h : s.wakeResume.sup = s.takeWakeCause.resumeUnits.resumeSup.sup := by
    rw [wakeResume_eq, (judgeIgnitionAtRun_evolves _).keeps .supervision (by decide),
      (judgeLevel_evolves _).keeps .supervision (by decide), (enterRunIndication_evolves _).keeps .supervision (by decide),
      (resumeWarnings_evolves _).keeps .supervision (by decide)]
  rw [h]
  unfold State.resumeSup
  rw [commitSup_sup]
  exact ⟨rfl, rfl⟩

theorem wakeResume_mode (s : State) :
    s.wakeResume.mode.wakeCause = s.mode.wakePending ∧ s.wakeResume.mode.wakePending = {} ∧
      (s.wakeResume.mode.mode = .run ∨ s.wakeResume.mode.mode = .parking ∧ s.profile.ignitionOff = 0) := by
  have hm := (mode_of_evolves (resumeRest_evolves s.takeWakeCause.resumeUnits) (by decide)).trans
    ((mode_of_evolves (resumeUnits_evolves s.takeWakeCause) (by decide)).trans (takeWakeCause_modeUnit s))
  have hp : s.takeWakeCause.resumeUnits.resumeSup.resumeWarnings.enterRunIndication.judgeLevel.profile = s.profile :=
    ((resumeRest_evolves _).keeps .profile (by decide)).trans
      (((resumeUnits_evolves _).keeps .profile (by decide)).trans (takeWakeCause_sig s).2.1)
  have h := judgeIgnitionAtRun_wake hm
  rw [hp] at h
  exact wakeResume_eq s ▸ h

/-! ## A wake event in PARKED (R184) -/

/-- The state `t` that a wake event of kind `k` leaves of a device in PARKED (R23, R146, R185). -/
structure Woken (s : State) (k : WakeSet) (t : State) : Prop where
  cause : t.mode.wakeCause = s.mode.wakePending.union k
  pending : t.mode.wakePending = {}
  alert : t.causePending .wake
  mode : t.mode.mode = .run ∨ t.mode.mode = .parking ∧ s.profile.ignitionOff = 0
  starting : t.sup.state = .starting ∧ t.sup.reference = none
  aged : s.inForce = true → ∀ n, sourceAges (s.profile.signals.get n).source = true →
    (t.sig.entries.get n).value = 0 ∧ (t.sig.entries.get n).quality = .never ∧ (t.sig.entries.get n).age = 0
  others : ∀ n, sourceAges (s.profile.signals.get n).source = false → s.Unmoved t n

theorem resumed_of_ages {c : SignalCfg} (h : sourceAges c.source = true) (e : Signal) :
    (e.resumed c).value = 0 ∧ (e.resumed c).quality = .never ∧ (e.resumed c).age = 0 := by
  unfold Signal.resumed
  rw [if_pos h]
  exact ⟨rfl, rfl, rfl⟩

theorem resumed_of_rests {c : SignalCfg} (h : sourceAges c.source = false) (e : Signal) : e.resumed c = e := by
  unfold Signal.resumed
  rw [h]
  rfl

theorem wake_parked {s : State} (hp : s.mode.mode = .parked) (k : WakeSet) :
    s.wake k = (s.setMode { s.mode with wakePending := s.mode.wakePending.union k }).wakeResume := if_pos hp

theorem wake_woken {s : State} (hp : s.mode.mode = .parked) (k : WakeSet) : Woken s k (s.wake k) := by
  rw [wake_parked hp]
  generalize hu : s.setMode { s.mode with wakePending := s.mode.wakePending.union k } = u
  obtain ⟨hcause, hpending, hmode⟩ := wakeResume_mode u
  have hentries := wakeResume_entries u
  have hwake : u.mode.wakePending = s.mode.wakePending.union k := hu ▸ rfl
  have hprofile : u.profile = s.profile := hu ▸ rfl
  have hforce : u.inForce = s.inForce := hu ▸ rfl
  have hold : u.sig.entries = s.sig.entries := hu ▸ rfl
  refine ⟨hcause.trans hwake, hpending, wakeResume_pending u, hprofile ▸ hmode, wakeResume_sup u, fun hf n hn => ?_,
    fun n hn => ?_⟩
  · rw [hentries, if_pos (hforce.trans hf), State.resumedEntries, Table.get_ofFn]
    exact resumed_of_ages (hprofile ▸ hn) _
  · rw [State.Unmoved, hentries, ← hold]
    split
    · rw [State.resumedEntries, Table.get_ofFn]
      exact resumed_of_rests (hprofile ▸ hn) _
    · rfl

/-- A wake event leaves the mark of the waking character alone (R178). -/
theorem wake_wakeChar (s : State) (k : WakeSet) : (s.wake k).svc.wakeChar = s.svc.wakeChar :=
  (wake_evolves s k).keeps .wakeChar (by decide)

/-! ## The commands that wake the device -/

theorem parked_takesNothing {s : State} (hp : s.mode.mode = .parked) : s.takesUpdates = false := by
  simp [State.takesUpdates, hp]

/-- In PARKED an update is not taken (R22). -/
theorem deliver_parked {s : State} (hp : s.mode.mode = .parked) (n : Fin 256) (v : BitVec 16) : s.deliver n v = s := by
  unfold State.deliver
  dsimp only
  rw [if_neg (by simp [parked_takesNothing hp])]

/-- In PARKED a settling takes the filter's state and delivers nothing (R10, R22). -/
theorem settleDelivered_parked {s : State} (hp : s.mode.mode = .parked) (i : Fin 24) :
    s.settleDelivered i = s.filterSettled i := by
  have rests : ∀ (l : List (Fin 256)) (v : BitVec 16) (t : State), t.mode.mode = .parked →
      (t.forEach l fun t n => t.deliver n v) = t := by
    intro l v t ht
    induction l with
    | nil => rfl
    | cons n l ih =>
      show ((t.deliver n v).forEach l fun t n => t.deliver n v) = t
      rw [deliver_parked ht]
      exact ih
  unfold State.settleDelivered State.deliverInput
  rw [rests _ _ (s.filterSettled i) hp, ite_self]

/-- A wake edge of an input that is not the ignition's, in PARKED (R12). -/
theorem settle_inputWake {s : State} {i : Fin 24} (hp : s.mode.mode = .parked) (hw : (s.profile.inputs.get i).wake = true)
    (hi : s.ignitionInput i = false)
    (he : isWakeEdge (s.profile.inputs.get i) (s.inp.inputs.get i).filtered (s.settled i) = true)
    (hc : (s.inp.inputs.get i).filtered ≠ s.settled i) : s.settle i = (s.filterSettled i).wake { input := true } := by
  have hi' : (s.filterSettled i).ignitionInput i = false := hi
  rw [settle_eq, settleDelivered_parked hp, hi', Bool.and_false]
  simp only [hw, he, hc, ne_eq, not_false_eq_true, decide_true, Bool.and_self, if_true]
  exact if_neg (fun e => Mode.noConfusion (hp.symm.trans e))

/-- An input of the ignition that becomes ACTIVE, in PARKED (R184). -/
theorem settle_ignitionWake {s : State} {i : Fin 24} (hp : s.mode.mode = .parked) (hw : (s.profile.inputs.get i).wake = false)
    (hi : s.ignitionInput i = true) (hn : s.settled i = .active) (hc : (s.inp.inputs.get i).filtered ≠ .active) :
    s.settle i = (s.filterSettled i).wake { ignition := true } := by
  have hi' : (s.filterSettled i).ignitionInput i = true := hi
  rw [settle_eq, settleDelivered_parked hp, hi', hn]
  simp [hw, hc]

theorem setWakeChar_keeps (s : State) (b : Bool) : KeepsBut [.wakeChar] s (s.setSvc { s.svc with wakeChar := b }) := by
  have h := (setSvc_alone s { s.svc with wakeChar := b }).keeps.mono (k := [.service, .tester, .level, .test, .wakeChar])
    (by decide)
  exact ((h.drop ⟨rfl, rfl, rfl, rfl, rfl, rfl, rfl, rfl, rfl, rfl⟩).drop ⟨rfl, rfl⟩ |>.drop ⟨rfl, rfl, rfl, rfl⟩).drop
    ⟨rfl, rfl, rfl, rfl⟩

/-- A wake event taken in PARKED after a change of a filter; `b` is the mark of the waking character that the event leaves. -/
theorem gives_woken {c : Instr} {s u : State} {k : WakeSet} {b : Bool} {P : State → Prop} (hp : u.mode.mode = .parked)
    (hu : KeepsBut [.inputs] s u)
    (he : exec c s = .next ((u.wake k).setSvc { (u.wake k).svc with wakeChar := b }).takeWork)
    (hP : ∀ t, Woken u k t → t.svc.wakeChar = b → P t) : Gives c s (.wakeChar :: Part.resumed ++ Part.work) P := by
  obtain ⟨hcause, hpending, halert, hmode, hstarting, haged, hothers⟩ := wake_woken hp k
  refine gives_work he ?_ (hP _ ⟨?_, ?_, ?_, ?_, ?_, ?_, ?_⟩ (by rw [takeWork_svc]; rfl))
  · exact (hu.mono (by decide)).trans
      (((wake_evolves u k).keeps.mono (by decide)).trans ((setWakeChar_keeps _ b).mono (by decide)))
  · simpa using hcause
  · simpa using hpending
  · simpa [State.causePending] using halert
  · simpa using hmode
  · simpa using hstarting
  · simpa using haged
  · simpa [State.Unmoved] using hothers

/-- A wake event that is not the service line's leaves the waking character's mark as it was. -/
theorem gives_wake {c : Instr} {s u : State} {k : WakeSet} {P : State → Prop} (hp : u.mode.mode = .parked)
    (hu : KeepsBut [.inputs] s u) (he : exec c s = .next (u.wake k).takeWork)
    (hP : ∀ t, Woken u k t → t.svc.wakeChar = u.svc.wakeChar → P t) :
    Gives c s (.wakeChar :: Part.resumed ++ Part.work) P :=
  gives_woken (b := (u.wake k).svc.wakeChar) hp hu he fun t h hc => hP t h (hc.trans (wake_wakeChar u k))

theorem isWakeEdge_rising {c : InputCfg} (h : c.edge ≠ .falling) : isWakeEdge c .inactive .active = true := by
  unfold isWakeEdge
  cases he : c.edge <;> simp_all

theorem isWakeEdge_falling {c : InputCfg} (h : c.edge ≠ .rising) : isWakeEdge c .active .inactive = true := by
  unfold isWakeEdge
  cases he : c.edge <;> simp_all

theorem settleDue_of {s : State} {i : Fin 24} {e : Nat} (hf : s.inForce = true) (hs : (s.inp.inputs.get i).stable = some e)
    (hd : (s.profile.inputs.get i).debounce ≤ e) : s.due (.debounceSettle i) = true := by simp [hf, hs, hd]

end Sys2Proof.Machine

open Sys2Proof Sys2Proof.Machine

/-- Settles O14: each of the four commands takes one wake event in PARKED. -/
theorem wakeEventsResume : Obligations.WakeEventsResume := by
  intro s hr hp c k hc
  rcases hc with ⟨rfl, rfl⟩ | ⟨rfl, rfl, hf, hw⟩ | ⟨i, rfl, rfl, hf, ⟨e, hs, hd⟩, hw, hi, hedge⟩ |
    ⟨i, rfl, rfl, hf, ⟨e, hs, hd⟩, hw, hi, hne, hhigh⟩
  · refine gives_woken (u := s) (k := { service := true }) (b := true) hp .refl ?_ fun t h hc => ?_
    · simp only [exec, execServiceStartEdge, live_running hr, State.serviceEdge, hp, if_true]
      rfl
    · exact ⟨h.cause, h.pending, h.alert, h.mode, h.starting.1, h.starting.2, hc.trans (Bool.or_true _).symm, h.aged, h.others⟩
  · have hl : s.lineTakes .front = false := by simp [State.lineTakes, State.linesRun, hp]
    refine gives_wake (u := s) (k := { front := true }) hp .refl ?_ fun t h hc => ?_
    · simp only [exec, execStartEdge, live_running hr, hl, hf, hw, Bool.false_eq_true, if_false]
      rfl
    · exact ⟨h.cause, h.pending, h.alert, h.mode, h.starting.1, h.starting.2, hc.trans (Bool.or_false _).symm, h.aged, h.others⟩
  · have hchange : isWakeEdge (s.profile.inputs.get i) (s.inp.inputs.get i).filtered (s.settled i) = true ∧
        (s.inp.inputs.get i).filtered ≠ s.settled i := by
      rw [settled_eq]
      rcases hedge with ⟨hwas, hhigh, he⟩ | ⟨hwas, hhigh, he⟩
      · rw [hwas, if_neg hhigh]
        exact ⟨isWakeEdge_rising he, by decide⟩
      · rw [hwas, if_pos hhigh]
        exact ⟨isWakeEdge_falling he, by decide⟩
    refine gives_wake (u := s.filterSettled i) (k := { input := true }) hp (setInput_keeps s _ _) ?_ fun t h hc => ?_
    · simp only [exec, execDebounceSettle, live_running hr, settleDue_of hf hs hd, if_true,
        settle_inputWake hp hw hi hchange.1 hchange.2]
    · exact ⟨h.cause, h.pending, h.alert, h.mode, h.starting.1, h.starting.2, hc.trans (Bool.or_false _).symm, h.aged, h.others⟩
  · have hnow : s.settled i = .active := by rw [settled_eq, if_neg hhigh]
    refine gives_wake (u := s.filterSettled i) (k := { ignition := true }) hp (setInput_keeps s _ _) ?_ fun t h hc => ?_
    · simp only [exec, execDebounceSettle, live_running hr, settleDue_of hf hs hd, if_true,
        settle_ignitionWake hp hw hi hnow hne]
    · exact ⟨h.cause, h.pending, h.alert, h.mode, h.starting.1, h.starting.2, hc.trans (Bool.or_false _).symm, h.aged, h.others⟩

end

section
/-! The ignition judged (10, R180 to R182): a drive-cycle start, the ignition-off timer, and the readers of a change up to it. -/

namespace Sys2Proof.Machine

/-! ## Telltales and homing at a drive-cycle start (R103, R105) -/

theorem redrive_commanded (sensing was is : Bool) (l : Lamp) : (l.redrive sensing was is).commanded = l.commanded := by
  unfold Lamp.redrive Lamp.stopTimers Lamp.startTimers
  repeat' split
  all_goals rfl

/-- An evaluation of every telltale takes what each is commanded (R98). -/
theorem evalAllLamps_commanded (s : State) (k : Fin 48) : (s.evalAllLamps.ind.lamps.get k).commanded = s.commanded k := by
  unfold State.evalAllLamps State.evalLamps State.withLamps
  simp only [State.setInd_ind, Table.get_ofFn, redrive_commanded, if_true]

/-- The lamp check turns every telltale on (R97). -/
theorem commanded_lampCheck {s : State} (hf : s.inForce = true) (hm : s.mode.mode = .run) (hc : s.ind.lampCheck.isSome = true)
    (k : Fin 48) : s.commanded k = .on := by
  have hs : s.profStatus = .inForce := by simpa [State.inForce] using hf
  unfold State.commanded State.allLampsOn
  simp [hs, hm, hc]

theorem gaugeActive_iff (c : GaugeCfg) : gaugeActive c = true ↔ c.mode ≠ .off := by
  unfold gaugeActive
  cases c.mode <;> simp

/-- The state of a drive-cycle start before its lamp check (R181). -/
def State.cycleCounted (s : State) : State := (s.setMode s.mode.cycleStarted).setCtrl { s.ctrl with countersPending := true }

/-- The lamp check of a drive-cycle start, unless the profile has none (R103). -/
def State.lampCheckBegun (s : State) : State :=
  if s.profile.lampCheck = 0 then s else (s.setInd { s.ind with lampCheck := some 0 }).evalAllLamps

theorem startCycle_eq (s : State) : s.startCycle = s.cycleCounted.lampCheckBegun.homeAll := rfl

theorem setCycle_keeps (s : State) (a : Bool) (b : BitVec 24) (c : BitVec 32) :
    KeepsBut [.cycle] s (s.setMode { s.mode with cycleOpen := a, cycle := b, time := c }) := by
  have h := (setMode_alone s { s.mode with cycleOpen := a, cycle := b, time := c } rfl rfl).keeps
  exact (((h.mono (k := [.opMode, .ignition, .wake, .cycle]) (by decide)).drop rfl).drop ⟨rfl, rfl⟩).drop ⟨rfl, rfl⟩

theorem cycleCounted_keeps (s : State) : KeepsBut [.cycle, .countersPending] s s.cycleCounted :=
  ((setCycle_keeps s _ _ _).mono (by decide)).trans ((setCountersPending_evolves _).keeps.mono (by decide))

theorem lampCheckBegun_evolves (s : State) : Evolves [.lampCheck, .lamps] s s.lampCheckBegun := by
  unfold State.lampCheckBegun
  refine Evolves.ite .refl ?_
  exact ((setLampCheck_evolves _ _).mono (by decide)).trans ((evalAllLamps_evolves _).mono (by decide))

theorem startCycle_keeps (s : State) : KeepsBut (Part.images ++ [.cycle, .countersPending, .lampCheck, .lamps, .gauges]) s
    s.startCycle := by
  rw [startCycle_eq]
  refine KeepsBut.trans ?_ ((homeAll_evolves _).keeps.mono (by decide))
  exact ((cycleCounted_keeps s).mono (by decide)).trans ((lampCheckBegun_evolves _).keeps.mono (by decide))

theorem lampCheckBegun_check {s : State} (h : s.profile.lampCheck ≠ 0) :
    s.lampCheckBegun.ind.lampCheck = some 0 ∧
      (s.inForce = true → s.mode.mode = .run → ∀ k, (s.lampCheckBegun.ind.lamps.get k).commanded = .on) := by
  unfold State.lampCheckBegun
  rw [if_neg h]
  refine ⟨(evalAllLamps_evolves _).keeps .lampCheck (by decide), fun hf hm k => ?_⟩
  rw [evalAllLamps_commanded]
  exact commanded_lampCheck (s := s.setInd { s.ind with lampCheck := some 0 }) hf hm rfl k

/-- A drive-cycle start as R181 gives it. -/
theorem startCycle_started (s : State) : CycleStarted s s.startCycle := by
  have hind : s.cycleCounted.ind = s.ind := rfl
  have hg : s.cycleCounted.lampCheckBegun.ind.gauges = s.ind.gauges := (lampCheckBegun_evolves _).keeps .gauges (by decide)
  have hp : s.cycleCounted.lampCheckBegun.profile = s.profile := (lampCheckBegun_evolves _).keeps .profile (by decide)
  have hhome := (homeAll_evolves s.cycleCounted.lampCheckBegun).keeps
  rw [← startCycle_eq] at hhome
  have hlamps : s.startCycle.ind.lamps = s.cycleCounted.lampCheckBegun.ind.lamps := (hhome .lamps (by decide)).1
  have hcheck : s.startCycle.ind.lampCheck = s.cycleCounted.lampCheckBegun.ind.lampCheck := hhome .lampCheck (by decide)
  have homed (g : Fin 12) : s.startCycle.ind.gauges.get g =
      if gaugeActive (s.profile.gauges.get g) = true ∧ (s.ind.gauges.get g).state ≠ .test then
        Gauge.homingBegun (s.ind.gauges.get g) else s.ind.gauges.get g := by
    rw [startCycle_eq, homeAll_get, hg, hp]
  refine ⟨?_, ?_, fun h => ?_, fun h => ?_, fun g ha ht => ?_, fun g h => ?_⟩
  · rw [startCycle_modeUnit]
    exact ⟨rfl, rfl, satInc_cycle _⟩
  · refine (hhome .countersPending (by decide)).trans ?_
    exact (lampCheckBegun_evolves _).keeps .countersPending (by decide)
  · rw [hcheck, hlamps]
    exact lampCheckBegun_check (s := s.cycleCounted) h
  · have hnone : s.cycleCounted.lampCheckBegun = s.cycleCounted := if_pos h
    rw [hcheck, hnone, hind]
  · rw [homed, if_pos ⟨(gaugeActive_iff _).mpr ha, ht⟩]
    exact ⟨rfl, rfl, rfl⟩
  · rw [homed, if_neg]
    rintro ⟨ha, ht⟩
    exact h.elim ((gaugeActive_iff _).mp ha) ht

/-! ## The ignition judged -/

theorem judgedAs_keeps (s : State) (timer : Option Nat) : KeepsBut [.ignition] s (s.judgedAs timer) := by
  have h := (setMode_alone s { s.mode with ignition := s.ignitionNow, offTimer := timer } rfl rfl).keeps
  exact (((h.mono (k := [.opMode, .cycle, .wake, .ignition]) (by decide)).drop rfl).drop ⟨rfl, rfl, rfl⟩).drop ⟨rfl, rfl⟩

/-- The ignition that a judging leaves is that of its signal. -/
theorem judgeIgnition_is (s : State) : s.judgeIgnition.IgnitionIs := by
  have k := (judgeIgnition_evolves s).keeps
  have hp : s.judgeIgnition.profile = s.profile := k .profile (by decide)
  have he : s.judgeIgnition.sig.entries = s.sig.entries := k .entries (by decide)
  constructor
  · rw [judgeIgnition_ignition, hp]
    unfold State.boundOn State.quality State.value
    rw [he]
    exact ignitionNow_on s
  · rw [judgeIgnition_ignition, hp]
    unfold State.quality State.value
    rw [he]
    exact ignitionNow_off s

theorem ignitionTaken (s : State) : IgnitionTaken s.mode.ignition s s.judgeIgnition := by
  have now {x : Ignition} (h : s.judgeIgnition.mode.ignition = x) : s.ignitionNow = x := (judgeIgnition_ignition s).symm.trans h
  refine ⟨judgeIgnition_is s, fun hm => ?_, fun hm hn hc => ?_, fun hm hn hc => ?_, fun hm hn => ?_, fun hm hn hw => ?_,
    fun hm hn hw hd => ?_, fun hm hn hw hd => ?_⟩
  · rw [judgeIgnition_elsewhere hm]
    exact ⟨judgedAs_keeps s _, rfl⟩
  · rw [judgeIgnition_starts hm (now hn) hc]
    obtain ⟨hcycle, hcounters, hcheck, hno, hhoming, hresting⟩ := startCycle_started (s.judgedAs none)
    refine ⟨?_, ⟨hcycle, hcounters, hcheck, hno, hhoming, hresting⟩, ?_⟩
    · exact ((judgedAs_keeps s none).mono (by decide)).trans ((startCycle_keeps _).mono (by decide))
    · rw [startCycle_modeUnit]
      rfl
  · rw [judgeIgnition_goesOn hm (now hn) hc]
    exact ⟨judgedAs_keeps s _, rfl⟩
  · rw [judgeIgnition_unknown hm (now hn)]
    exact ⟨judgedAs_keeps s _, rfl⟩
  · rw [judgeIgnition_stays hm (now hn) hw]
    exact ⟨judgedAs_keeps s _, rfl⟩
  · rw [judgeIgnition_timed hm (now hn) hw hd]
    exact ⟨judgedAs_keeps s _, rfl⟩
  · refine ⟨(judgeIgnition_evolves s).keeps, ?_⟩
    rw [judgeIgnition_parks hm (now hn) hw hd, enterParking_modeUnit]
    exact ⟨rfl, rfl⟩

/-- The ignition judged at an entry into RUN, whatever it was before (R180, R185). -/
theorem ignitionTaken_atRun (s : State) : IgnitionTaken .unknown s s.judgeIgnitionAtRun := by
  have hu : KeepsBut [.ignition] s (s.setMode { s.mode with ignition := .unknown }) := by
    have h := (setMode_alone s { s.mode with ignition := .unknown } rfl rfl).keeps
    exact (((h.mono (k := [.opMode, .cycle, .wake, .ignition]) (by decide)).drop rfl).drop ⟨rfl, rfl, rfl⟩).drop ⟨rfl, rfl⟩
  obtain ⟨judged, elsewhere, starts, goesOn, unknown, stays, timed, parks⟩ :=
    ignitionTaken (s.setMode { s.mode with ignition := .unknown })
  refine ⟨judged, fun hm => ?_, fun hm hn hc => ?_, fun hm hn hc => ?_, fun hm hn => ?_, fun hm hn hw => ?_,
    fun hm hn hw hd => ?_, fun hm hn hw hd => ?_⟩
  · exact (elsewhere hm).imp_left hu.trans
  · obtain ⟨k, ⟨hcycle, hcounters, hcheck, hno, hhoming, hresting⟩, hoff⟩ := starts hm hn hc
    exact ⟨(hu.mono (by decide)).trans k, ⟨hcycle, hcounters, hcheck, hno, hhoming, hresting⟩, hoff⟩
  · exact (goesOn hm hn hc).imp_left hu.trans
  · exact (unknown hm hn).imp_left hu.trans
  · exact (stays hm hn hw).imp_left hu.trans
  · exact (timed hm hn hw hd).imp_left hu.trans
  · exact (parks hm hn hw hd).imp_left (hu.mono (by decide)).trans

/-! ## A change of the ignition's signal (R7, R180) -/

/-- An update that changes the ignition's signal is handed to the ignition, which is judged with the mode as it was. -/
theorem deliver_judges {s : State} {n : Fin 256} {v : BitVec 16} (ht : s.takesUpdates = true) (hi : s.profile.ignition = some n)
    (hd : s.value n ≠ (s.deliver n v).value n ∨ s.quality n ≠ (s.deliver n v).quality n) :
    ∃ c : State, c.mode = s.mode ∧ s.deliver n v = c.judgeIgnition := by
  obtain ⟨t, hdel, hkeeps⟩ := deliver_handOn s n v ht hd
  obtain ⟨a, b, c, ha, hb, hc, hand⟩ := handOn_split t n
  have hb' : Evolves (.ackLevel :: Part.evaluation) a b := hb ▸ ackInput_evolves a n
  have hp : c.profile = s.profile := (hc.keeps .profile (by decide)).trans
    ((hb'.keeps .profile (by decide)).trans ((ha.keeps .profile (by decide)).trans (hkeeps .profile (by decide))))
  have hm : c.mode = s.mode := (mode_of_evolves hc (by decide)).trans
    ((mode_of_evolves hb' (by decide)).trans ((mode_of_evolves ha (by decide)).trans (mode_of_keeps hkeeps (by decide))))
  exact ⟨c, hm, hdel.trans (hand.trans (if_pos (hp ▸ hi)))⟩

end Sys2Proof.Machine
end

section
/-! The entry into PARKING (10, R182): what the fault memory, the warnings, the end of the test and the indication leave. -/

namespace Sys2Proof.Machine

/-- A reading of the state that no step of a repetition changes. -/
theorem forEach_same {α β : Type} {f : State → α → State} (p : State → β) (h : ∀ t a, p (f t a) = p t) (l : List α) (s : State) :
    p (s.forEach l f) = p s := by
  induction l generalizing s with
  | nil => rfl
  | cons a l ih => exact (ih (f s a)).trans (h s a)

/-! ## The chime with no candidate (R112) -/

/-- No warning is ACTIVE_UNACK. -/
def State.noUnack (s : State) : Prop := ∀ w, (s.warn.rows.get w).state ≠ .activeUnack

theorem State.noUnack.firstCandidate {s : State} (h : s.noUnack) : s.firstCandidate = none := by
  unfold State.firstCandidate
  rw [List.find?_eq_none]
  intro w _ hc
  unfold State.candidate at hc
  simp only [Bool.and_eq_true, decide_eq_true_eq] at hc
  exact h w hc.1

theorem warningState_of_keeps {l : List Part} {s t : State} (k : KeepsBut l s t) (hl : Part.warnings ∉ l) (w : Fin 96) :
    (t.warn.rows.get w).state = (s.warn.rows.get w).state := by
  have h := congrArg Warning.state (k .warnings hl w)
  exact h

theorem State.noUnack.of_keeps {l : List Part} {s t : State} (h : s.noUnack) (k : KeepsBut l s t) (hl : Part.warnings ∉ l) :
    t.noUnack := fun w => by
  rw [warningState_of_keeps k hl]
  exact h w

/-- With no candidate the arbiter falls silent and chimes no warning. -/
theorem evalChime_silent {s : State} (h : s.noUnack) : KeepsBut [.chime] s s.evalChime := by
  have hc := h.firstCandidate
  unfold State.evalChime
  rw [hc]
  dsimp only
  split
  · exact (setChime_evolves s _).keeps
  · split
    · exact .refl
    · exact (setChime_evolves s _).keeps

theorem endChimeTest_silent {s : State} (h : s.noUnack) : KeepsBut [.chime] s s.endChimeTest := by
  have hc : (s.setChime { selection := none, phase := .silent, test := none }).firstCandidate = none :=
    (h.of_keeps (setChime_evolves s { selection := none, phase := .silent, test := none }).keeps (by decide)).firstCandidate
  unfold State.endChimeTest
  dsimp only
  rw [hc]
  exact (setChime_evolves s _).keeps.trans (setChime_evolves _ _).keeps

/-! ## The end of a test and the gauges' requests (R108, R177) -/

/-- With no warning to chime, the end of a test leaves the warnings alone. -/
theorem endTest_silent {s : State} (h : s.noUnack) (o : TestOutcome) :
    KeepsBut (Part.images ++ [.test, .lamps, .gauges, .chime]) s (s.endTest o) := by
  unfold State.endTest
  split
  · exact .refl
  · dsimp only
    generalize hx : s.setSvc { s.svc with test := .none, testDuration := 0, testTimer := none, lastOutcome := o } = x
    have hk : KeepsBut [.test] s x := by
      have k := (setSvc_alone s { s.svc with test := .none, testDuration := 0, testTimer := none, lastOutcome := o }).keeps
      subst hx
      exact ((((k.mono (k := [.service, .wakeChar, .tester, .level, .test]) (by decide)).drop
        ⟨rfl, rfl, rfl, rfl, rfl, rfl, rfl, rfl, rfl, rfl⟩).drop rfl).drop ⟨rfl, rfl⟩).drop ⟨rfl, rfl, rfl, rfl⟩
    have hs : KeepsBut (Part.images ++ [.test, .lamps, .gauges, .chime]) s (s.offerStatus x) :=
      (hk.mono (by decide)).trans ((offerStatus_evolves s x).keeps.mono (by decide))
    split
    · exact hs
    · exact hs.trans ((evalAllLamps_evolves _).keeps.mono (by decide))
    · exact hs.trans ((Evolves.forEach leaveSweep_evolves _ _).keeps.mono (by decide))
    · exact hs.trans ((endChimeTest_silent (h.of_keeps hs (by decide))).mono (by decide))

theorem aim_requested (t : Nat) (x : Gauge) : (x.aim t).1.requested = x.requested := by
  unfold Gauge.aim
  split <;> rfl

/-- A gauge that enters a state is replaced by one with its requested target. -/
theorem enterGauge_eq (s : State) (g : Fin 12) (x : Gauge) :
    ∃ y : Gauge, y.requested = x.requested ∧ s.enterGauge g x = (s.setGauge g y).offer (offGaugeActual g) := by
  unfold State.enterGauge
  refine ⟨_, ?_, rfl⟩
  split
  · exact (aim_requested _ _).trans (aim_requested _ _)
  · exact aim_requested _ _

theorem enterGauge_requested (s : State) (g h : Fin 12) {x : Gauge} (hx : x.requested = (s.ind.gauges.get g).requested) :
    ((s.enterGauge g x).ind.gauges.get h).requested = (s.ind.gauges.get h).requested := by
  obtain ⟨y, hy, e⟩ := enterGauge_eq s g x
  rw [e]
  show ((s.ind.gauges.set g y).get h).requested = _
  rw [Table.get_set]
  split
  · next e => exact (hy.trans hx).trans (by rw [e])
  · rfl

theorem leaveSweep_requested (s : State) (g h : Fin 12) :
    ((s.leaveSweep g).ind.gauges.get h).requested = (s.ind.gauges.get h).requested := by
  unfold State.leaveSweep
  dsimp only
  split
  · exact enterGauge_requested s g h rfl
  · rfl

/-- The end of a test leaves every gauge's requested target (R108). -/
theorem endTest_requested (s : State) (o : TestOutcome) (h : Fin 12) :
    ((s.endTest o).ind.gauges.get h).requested = (s.ind.gauges.get h).requested := by
  unfold State.endTest
  split
  · rfl
  · dsimp only
    generalize hx : s.setSvc { s.svc with test := .none, testDuration := 0, testTimer := none, lastOutcome := o } = x
    have hs : (s.offerStatus x).ind.gauges = s.ind.gauges := by
      rw [(offerStatus_evolves s x).keeps .gauges (by decide), ← hx]
      rfl
    split
    · rw [hs]
    · rw [(evalAllLamps_evolves _).keeps .gauges (by decide), hs]
    · refine (forEach_same (fun t => (t.ind.gauges.get h).requested) (fun t g => leaveSweep_requested t g h) _ _).trans ?_
      show ((s.offerStatus x).ind.gauges.get h).requested = _
      rw [hs]
    · rw [(endChimeTest_evolves _).keeps .gauges (by decide), hs]

/-! ## Gauges UNHOMED (R115) -/

theorem unhome_get (s : State) (g h : Fin 12) :
    ((s.unhome g).ind.gauges.get h).requested = (s.ind.gauges.get h).requested ∧
      ((s.unhome g).ind.gauges.get h).state = if g = h then .unhomed else (s.ind.gauges.get h).state := by
  unfold State.unhome
  dsimp only
  split
  · next hu =>
    refine ⟨rfl, ?_⟩
    split
    · next e => rw [← e, hu]
    · rfl
  · show ((s.ind.gauges.set g _).get h).requested = _ ∧ ((s.ind.gauges.set g _).get h).state = _
    rw [Table.get_set]
    split
    · next e => exact ⟨by rw [← e], rfl⟩
    · exact ⟨rfl, rfl⟩

theorem forEach_unhome_get (l : List (Fin 12)) (s : State) (h : Fin 12) :
    ((s.forEach l State.unhome).ind.gauges.get h).requested = (s.ind.gauges.get h).requested ∧
      ((s.forEach l State.unhome).ind.gauges.get h).state = if h ∈ l then .unhomed else (s.ind.gauges.get h).state := by
  induction l generalizing s with
  | nil => exact ⟨rfl, rfl⟩
  | cons g l ih =>
    obtain ⟨hreq, hstate⟩ := ih (s.unhome g)
    obtain ⟨hreq', hstate'⟩ := unhome_get s g h
    refine ⟨hreq.trans hreq', hstate.trans ?_⟩
    rw [hstate']
    by_cases hl : h ∈ l
    · simp [hl]
    · by_cases hg : g = h
      · simp [hg]
      · simp [hl, hg, Ne.symm hg]

/-! ## Telltales in PARKING (R115, R117) -/

theorem commanded_parking {s : State} (hm : s.mode.mode = .parking) (hw : ∀ w, (s.warn.rows.get w).state = .inactive) (k : Fin 48) :
    s.commanded k = .off := by
  have hnone : (s.profile.lamps.get k).sources.any s.sourceActiveWarning = false := by
    rw [List.any_eq_false]
    intro x _
    unfold State.sourceActiveWarning
    cases x <;> simp [hw, WarnState.isActive]
  unfold State.commanded
  cases hs : s.profStatus <;> simp [hm, hnone]

/-- The indication that an entry into PARKING leaves, with every warning INACTIVE (R115). -/
theorem parkIndication_leaves {s : State} (hm : s.mode.mode = .parking) (hw : ∀ w, (s.warn.rows.get w).state = .inactive) :
    s.parkIndication.ind.lampCheck = none ∧
      s.parkIndication.ind.chime = { selection := none, phase := .silent, test := none } ∧
      (∀ g, (s.parkIndication.ind.gauges.get g).state = .unhomed ∧
        (s.parkIndication.ind.gauges.get g).requested = (s.ind.gauges.get g).requested) ∧
      ∀ k, (s.parkIndication.ind.lamps.get k).commanded = .off := by
  unfold State.parkIndication
  dsimp only
  generalize hq : (s.setInd { s.ind with lampCheck := none }).silenceChime = q
  have hu := (Evolves.forEach unhome_evolves (List.finRange 12) q).keeps
  have hgauges := forEach_unhome_get (List.finRange 12) q
  generalize q.forEach (List.finRange 12) State.unhome = u at *
  have hl := (evalAllLamps_evolves u).keeps
  refine ⟨?_, ?_, fun g => ?_, fun k => ?_⟩
  · rw [hl .lampCheck (by decide), hu .lampCheck (by decide), ← hq]
    rfl
  · rw [hl .chime (by decide), hu .chime (by decide), ← hq]
    rfl
  · obtain ⟨hreq, hstate⟩ := hgauges g
    rw [hl .gauges (by decide), hreq, hstate, ← hq]
    exact ⟨if_pos (List.mem_finRange g), rfl⟩
  · rw [evalAllLamps_commanded]
    refine commanded_parking ?_ (fun w => ?_) k
    · rw [hu .opMode (by decide), ← hq]
      exact hm
    · refine (warningState_of_keeps hu (by decide) w).trans ?_
      rw [← hq]
      exact hw w

end Sys2Proof.Machine
end

section
/-! The entry into PARKING whole, and the counters write that it asks for (10, R182, R188). -/

namespace Sys2Proof.Machine

/-! ## The warnings at the entry (R92) -/

/-- A table with no ACTIVE_UNACK warning and no activation: handed on it reaches images, telltales and the chime only. -/
theorem commitWarnings_silent {s : State} {rows : Table 96 Warning}
    (hn : ∀ w, (rows.get w).number = (s.warn.rows.get w).number) (hi : ∀ w, (rows.get w).state ≠ .activeUnack) :
    KeepsBut (Part.images ++ [.lamps, .chime]) (s.setWarn { s.warn with rows := rows }) (s.commitWarnings rows) := by
  have hactivated : ((List.finRange 96).filter (fun w => rows.get w ≠ s.warn.rows.get w)).filter
      (fun w => (rows.get w).number ≠ (s.warn.rows.get w).number) = [] := by
    rw [List.filter_eq_nil_iff]
    intro w _
    simp [hn w]
  have hq : (s.setWarn { s.warn with rows := rows }).noUnack := hi
  unfold State.commitWarnings
  dsimp only
  rw [hactivated]
  simp only [List.any_nil, Bool.false_eq_true, if_false]
  generalize s.setWarn { s.warn with rows := rows } = u at *
  generalize hv : State.evalLampsNaming _ _ = v
  have hk : KeepsBut (Part.images ++ [.lamps, .chime]) u v := by
    subst hv
    refine KeepsBut.trans ?_ ((evalLampsNaming_evolves _ _).keeps.mono (by decide))
    refine (Evolves.iteThen ?_ ((setCause_evolves _ _).mono (by decide))).keeps
    exact (offerChanged_evolves s u _).mono (by decide)
  exact hk.trans ((evalChime_silent (hq.of_keeps hk (by decide))).mono (by decide))

/-- Every warning at an entry into PARKING (R92). -/
def State.parkedRows (s : State) : Table 96 Warning := s.warn.rows.map Warning.parked

theorem parkedRows_get (s : State) (w : Fin 96) :
    s.parkedRows.get w = { number := (s.warn.rows.get w).number, time := (s.warn.rows.get w).time } := by
  rw [State.parkedRows, Table.get_map]
  rfl

theorem row_of_keeps {l : List Part} {s t : State} (k : KeepsBut l s t) (hw : Part.warnings ∉ l) (hc : Part.chimed ∉ l)
    (w : Fin 96) : t.warn.rows.get w = s.warn.rows.get w := by
  have h := k .warnings hw w
  have h' := k .chimed hc w
  generalize t.warn.rows.get w = x at *
  generalize s.warn.rows.get w = y at *
  cases x
  cases y
  simp_all

/-- The warning unit of an entry into PARKING, and what else its part of the entry reaches (R92). -/
theorem parkWarnings_leaves (s : State) :
    KeepsBut (.warnings :: .chimed :: .clock :: Part.images ++ [.lamps, .chime]) s s.parkWarnings ∧
      (∀ w, s.parkWarnings.warn.rows.get w = s.parkedRows.get w) ∧ s.parkWarnings.warn.clock = 0 := by
  have hk : KeepsBut (Part.images ++ [.lamps, .chime]) (s.setWarn { s.warn with rows := s.parkedRows })
      (s.commitWarnings s.parkedRows) :=
    commitWarnings_silent (fun w => by rw [parkedRows_get]) (fun w => by rw [parkedRows_get]; nofun)
  have hrows : KeepsBut [.warnings, .chimed] s (s.setWarn { s.warn with rows := s.parkedRows }) := fun p hp => by
    cases p <;> (first
      | exact absurd (by decide) hp | rfl | exact ⟨rfl, rfl⟩ | exact ⟨rfl, rfl, rfl⟩ | exact ⟨rfl, rfl, rfl, rfl⟩
      | exact (fun _ => rfl) | exact ⟨rfl, rfl, rfl, rfl, rfl, rfl, rfl, rfl, rfl, rfl⟩)
  have hclock : ∀ t : State, KeepsBut [.clock] t (t.setWarn { t.warn with clock := 0 }) := fun t p hp => by
    cases p <;> (first
      | exact absurd (by decide) hp | rfl | exact ⟨rfl, rfl⟩ | exact ⟨rfl, rfl, rfl⟩ | exact ⟨rfl, rfl, rfl, rfl⟩
      | exact (fun _ => rfl) | exact ⟨rfl, rfl, rfl, rfl, rfl, rfl, rfl, rfl, rfl, rfl⟩)
  refine ⟨?_, fun w => row_of_keeps hk (by decide) (by decide) w, rfl⟩
  exact ((hrows.mono (by decide)).trans (hk.mono (by decide))).trans ((hclock _).mono (by decide))

/-! ## The fault memory at the entry (R155) -/

/-- Outside RUN a change of the records reaches no warning (R71). -/
theorem healingPass_parking {s : State} (hm : s.mode.mode = .parking) :
    KeepsBut (Part.images ++ [.present, .records, .fullness, .writeQueue]) s s.healingPass := by
  have hsame : FaultMemory.SameClear s.fm (s.fm.healed s.profile.heal) := by
    unfold FaultMemory.healed
    exact .trans ⟨rfl, rfl, rfl, rfl, rfl⟩ (.queueAll _ _)
  unfold State.healingPass
  generalize s.fm.healed s.profile.heal = fm at *
  have hfm : KeepsBut [.present, .records, .fullness, .writeQueue] s (s.setFm fm) := by
    have k := hsame.keeps.mono (k := Part.evaluation ++ [.present, .records, .fullness, .writeQueue]) (by decide)
    exact ((((((((k.drop ⟨rfl, rfl, rfl⟩).drop rfl).drop fun _ => rfl).drop fun _ => rfl).drop ⟨rfl, rfl⟩).drop rfl).drop
      rfl).drop ⟨rfl, rfl, rfl, rfl⟩)
  have handed : ∀ (offs : List Nat) (c : Bool), KeepsBut (Part.images ++ [.present, .records, .fullness, .writeQueue]) s
      (if c = true then (State.offerChanged s (s.setFm fm) offs).setCause .fault
        else State.offerChanged s (s.setFm fm) offs) := fun offs c => by
    have h := (hfm.mono (k := Part.images ++ [.present, .records, .fullness, .writeQueue]) (by decide)).trans
      ((offerChanged_evolves s (s.setFm fm) offs).keeps.mono (by decide))
    split
    · exact h.trans ((setCause_evolves _ _).keeps.mono (by decide))
    · exact h
  have silent : ∀ {u : State} (p : WarnCfg → Bool),
      KeepsBut (Part.images ++ [.present, .records, .fullness, .writeQueue]) s u → u.evalWarnings p = u := fun {u} p hk => by
    have hu : u.mode.mode = .parking := (hk .opMode (by decide)).trans hm
    have hrest : u.warningsRun = false := by simp [State.warningsRun, hu]
    unfold State.evalWarnings
    rw [hrest]
    rfl
  unfold State.commitFaults
  dsimp only
  split
  · exact handed _ _
  · rw [silent _ (handed _ _)]
    exact handed _ _

/-! ## The entry (R182) -/

/-- The entry into PARKING up to the warnings: the mode, a healing pass, the counters write asked for. -/
def State.parkingBegun (s : State) : State :=
  let s2 := s.offerStatus (s.setMode s.mode.parking)
  let s3 := if s.mode.cycleOpen then s2.healingPass else s2
  s3.setCtrl { s3.ctrl with countersPending := true }

theorem enterParking_eq (s : State) :
    s.enterParking = (s.parkingBegun.parkWarnings.endTest .mode).parkIndication := rfl

/-- The parts that the entry changes before the warnings. -/
def Part.parkingBegun : List Part :=
  Part.images ++ [.present, .records, .fullness, .writeQueue, .opMode, .cycle, .ignition, .wake, .countersPending]

theorem parkingBegun_leaves (s : State) :
    KeepsBut Part.parkingBegun s s.parkingBegun ∧ s.parkingBegun.mode.mode = .parking ∧
      s.parkingBegun.ctrl.countersPending = true := by
  unfold State.parkingBegun
  dsimp only
  have hk : KeepsBut Part.parkingBegun s (s.offerStatus (s.setMode s.mode.parking)) :=
    ((setMode_alone s s.mode.parking rfl rfl).keeps.mono (by decide)).trans
      ((offerStatus_evolves s _).keeps.mono (by decide))
  have hm : (s.offerStatus (s.setMode s.mode.parking)).mode.mode = .parking :=
    (offerStatus_evolves s (s.setMode s.mode.parking)).keeps .opMode (by decide)
  generalize s.offerStatus (s.setMode s.mode.parking) = u at *
  split
  · have hh := healingPass_parking hm
    exact ⟨(hk.trans (hh.mono (by decide))).trans ((setCountersPending_evolves _).keeps.mono (by decide)),
      (hh .opMode (by decide)).trans hm, rfl⟩
  · exact ⟨hk.trans ((setCountersPending_evolves _).keeps.mono (by decide)), hm, rfl⟩

/-- What an entry into PARKING leaves of the state that it begins with (R92, R115, R177, R188). -/
structure ParkingEntered (s t : State) : Prop where
  rows : ∀ w, t.warn.rows.get w = { number := (s.warn.rows.get w).number, time := (s.warn.rows.get w).time }
  clock : t.warn.clock = 0
  lampCheck : t.ind.lampCheck = none
  chime : t.ind.chime = { selection := none, phase := .silent, test := none }
  gauges : ∀ g, (t.ind.gauges.get g).state = .unhomed ∧ (t.ind.gauges.get g).requested = (s.ind.gauges.get g).requested
  lamps : ∀ k, (t.ind.lamps.get k).commanded = .off
  test : t.svc.test = .none ∧ (s.svc.test ≠ .none → t.svc.lastOutcome = .mode)
  counters : t.ctrl.countersPending = true

theorem parkIndication_keeps (s : State) :
    KeepsBut (Part.images ++ [.lampCheck, .chime, .gauges, .lamps]) s s.parkIndication := by
  unfold State.parkIndication
  refine KeepsBut.trans ?_ ((evalAllLamps_evolves _).keeps.mono (by decide))
  refine KeepsBut.trans ?_ ((Evolves.forEach unhome_evolves _ _).keeps.mono (by decide))
  refine KeepsBut.trans ?_ ((silenceChime_evolves _).keeps.mono (by decide))
  exact (setLampCheck_evolves _ _).keeps.mono (by decide)

theorem enterParking_entered (s : State) : ParkingEntered s s.enterParking := by
  rw [enterParking_eq]
  obtain ⟨hb, hmode, hcounters⟩ := parkingBegun_leaves s
  generalize s.parkingBegun = b at *
  obtain ⟨hw, hrows, hclock⟩ := parkWarnings_leaves b
  have hrow (w : Fin 96) : b.parkWarnings.warn.rows.get w =
      { number := (s.warn.rows.get w).number, time := (s.warn.rows.get w).time } := by
    rw [hrows, parkedRows_get, row_of_keeps hb (by decide) (by decide)]
  generalize b.parkWarnings = p at *
  have hquiet : p.noUnack := fun w => by
    rw [hrow]
    nofun
  have he := endTest_silent hquiet .mode
  have hreq := endTest_requested p .mode
  have hended := endTest_ended p .mode
  have hnone := endTest_none p .mode
  generalize p.endTest .mode = e at *
  have hrow' (w : Fin 96) : e.warn.rows.get w =
      { number := (s.warn.rows.get w).number, time := (s.warn.rows.get w).time } :=
    (row_of_keeps he (by decide) (by decide) w).trans (hrow w)
  have hmode' : e.mode.mode = .parking := (he .opMode (by decide)).trans ((hw .opMode (by decide)).trans hmode)
  have hi := parkIndication_keeps e
  obtain ⟨hcheck, hchime, hgauges, hlamps⟩ := parkIndication_leaves hmode' fun w => by rw [hrow']
  have hold : b.ind.gauges = s.ind.gauges := hb .gauges (by decide)
  have hold' : p.ind.gauges = b.ind.gauges := hw .gauges (by decide)
  have htest : p.svc.test = s.svc.test := ((hw .test (by decide)).1).trans (hb .test (by decide)).1
  refine ⟨fun w => (row_of_keeps hi (by decide) (by decide) w).trans (hrow' w), ?_, hcheck, hchime,
    fun g => ⟨(hgauges g).1, ?_⟩, hlamps, ⟨(hi .test (by decide)).1.trans hnone, fun h => ?_⟩, ?_⟩
  · exact (hi .clock (by decide)).trans ((he .clock (by decide)).trans hclock)
  · rw [(hgauges g).2, hreq, hold', hold]
  · exact (hi .test (by decide)).2.2.2.trans (hended (htest ▸ h)).2.2
  · exact (hi .countersPending (by decide)).trans
      ((he .countersPending (by decide)).trans ((hw .countersPending (by decide)).trans hcounters))

/-! ## The counters write (R187, R188) -/

/-- A counters write that is asked for is begun, or waits. -/
theorem takeWork_counters {s : State} (h : s.ctrl.countersPending = true) :
    s.takeWork.ctrl.countersPending = true ∨ ∃ snapshot, s.takeWork.ctrl.operation = .countersWrite snapshot false := by
  have waits : s.nextWork.ctrl.countersPending = true → s.takeWork.ctrl.countersPending = true :=
    ((serveReader_evolves s.nextWork).keeps .countersPending (by decide)).trans
  by_cases hfree : s.ctrl.operation = .none ∧ s.fm.loaded = true
  · by_cases hs : ∃ p n, s.ctrl.store = .waiting p n
    · obtain ⟨p, n, hs⟩ := hs
      exact .inl (waits (by rw [nextWork_store hfree hs]; exact h))
    · have hn := nextWork_ranked hfree fun p n e => hs ⟨p, n, e⟩
      unfold State.rankedWork at hn
      cases hr : s.ctrl.restartWaiting with
      | true =>
        rw [hr, if_pos rfl] at hn
        exact .inl (waits (by rw [hn]; exact h))
      | false =>
        rw [hr, h] at hn
        have ho : s.nextWork.ctrl.operation = .countersWrite (countersPage s) false := by rw [hn]; rfl
        refine .inr ⟨countersPage s, ?_⟩
        unfold State.takeWork
        rw [serveReader_other fun p n k e => Operation.noConfusion (ho.symm.trans e)]
        exact ho
  · exact .inl (waits (by rw [nextWork_busy hfree]; exact h))

end Sys2Proof.Machine
end

section
/-! The end of a page write in PARKING: the next slot, PARKED, or back to RUN (10, R183 to R185; 11, R187). -/

namespace Sys2Proof.Machine

/-! ## The controller's work -/

/-- A controller at work takes nothing, unless its operation is a page read that the reader serves. -/
theorem takeWork_busy {s : State} (h : s.ctrl.operation ≠ .none) (hr : ∀ p n k, s.ctrl.operation ≠ .storeRead p n k) :
    s.takeWork = s := by
  unfold State.takeWork
  rw [nextWork_busy fun e => h e.1, serveReader_other hr]

/-- The free controller with neither a store, a RESTART nor a counters write waiting turns to the slots (R187). -/
theorem nextWork_slots {s : State} (ho : s.ctrl.operation = .none) (hl : s.fm.loaded = true)
    (hs : ∀ p n, s.ctrl.store ≠ .waiting p n) (hr : s.ctrl.restartWaiting = false) (hc : s.ctrl.countersPending = false) :
    s.nextWork = s.takeSlot := by
  rw [nextWork_ranked ⟨ho, hl⟩ hs]
  unfold State.rankedWork
  rw [hr, hc]
  rfl

/-- A controller with nothing to do stays free. -/
theorem takeWork_idle {s : State} (ho : s.ctrl.operation = .none) (hs : ∀ p n, s.ctrl.store ≠ .waiting p n)
    (hr : s.ctrl.restartWaiting = false) (hc : s.ctrl.countersPending = false) (hq : s.fm.writeQueue = []) :
    s.takeWork = s := by
  have hn : s.nextWork = s := by
    by_cases hl : s.fm.loaded = true
    · rw [nextWork_slots ho hl hs hr hc]
      unfold State.takeSlot
      rw [hq]
    · exact nextWork_busy fun e => hl e.2
  unfold State.takeWork
  rw [hn, serveReader_other fun p n k e => Operation.noConfusion (ho.symm.trans e)]

/-- The head of the write queue taken, its write begun (R159). -/
def State.slotTaken (s : State) (i : Fin 32) (rest : List (Fin 32)) : State :=
  (s.setFm { s.fm with writeQueue := rest }).setOperation (.slotWrite i (slotPage i (s.fm.records.get i)) false true)

theorem takeWork_slot {s : State} {i : Fin 32} {rest : List (Fin 32)} (ho : s.ctrl.operation = .none)
    (hl : s.fm.loaded = true) (hs : ∀ p n, s.ctrl.store ≠ .waiting p n) (hr : s.ctrl.restartWaiting = false)
    (hc : s.ctrl.countersPending = false) (hq : s.fm.writeQueue = i :: rest) : s.takeWork = s.slotTaken i rest := by
  have hn : s.nextWork = s.slotTaken i rest := by
    rw [nextWork_slots ho hl hs hr hc]
    unfold State.takeSlot
    rw [hq]
    rfl
  unfold State.takeWork
  rw [hn]
  exact serveReader_other fun p n k e => Operation.noConfusion e

/-! ## The flush completion (R183) -/

theorem checkFlush_waits {s : State} (h : s.flushDone = false) : s.checkFlush = s := by
  unfold State.checkFlush
  rw [h]
  rfl

/-- The wake kinds that a flush completion finds pending, an ignition that is ON among them (R183). -/
def State.flushWakes (s : State) : WakeSet :=
  if s.goodNonzero s.profile.ignition then s.mode.wakePending.union { ignition := true } else s.mode.wakePending

theorem checkFlush_done {s : State} (h : s.flushDone = true) :
    s.checkFlush =
      if s.flushWakes = {} then s.enterParked else (s.setMode { s.mode with wakePending := s.flushWakes }).returnToRun := by
  have hw : (if s.ignitionNow = .on then s.mode.wakePending.union { ignition := true } else s.mode.wakePending) =
      s.flushWakes := if_congr ((ignitionNow_on s).trans (boundOn_iff s _).symm) rfl rfl
  unfold State.checkFlush
  dsimp only
  rw [if_pos h, hw]

/-! ## The entry into PARKED (R184) -/

/-- The units as an entry into PARKED freezes or stops them, before the status image. -/
def State.unitsParked (s : State) : State :=
  let s1 := s.setMode { s.mode with mode := .parked, offTimer := none }
  let s2 := s1.setSig { s1.sig with hold := none }
  let s3 := s2.setInp { s2.inp with running := false }
  let s4 := s3.setRx
    { s3.rx with
      lines := s3.rx.lines.map LineRx.park
      owner := .none
      collision := false
      firstChar := false }
  let s5 := s4.setDoor s4.door.freeze
  let s6 := s5.setSup { s5.sup with timer := none }
  s6.setSvc s6.svc.park

theorem offerStatus_eq (old s : State) : ∃ p, s.setPath p = State.offerStatus old s := by
  unfold State.offerStatus
  split
  · exact ⟨s.path, rfl⟩
  · exact ⟨_, rfl⟩

/-- An entry into PARKED is its units and the memory path; a tester that was active sets TESTER (R178, R184). -/
theorem enterParked_eq (s : State) :
    ∃ p, s.enterParked = s.unitsParked.setPath p ∧ (s.svc.testerActive = true → s.enterParked.causePending .tester) := by
  obtain ⟨p, hp⟩ := offerStatus_eq s s.unitsParked
  have he : s.enterParked = if s.svc.testerActive then (s.offerStatus s.unitsParked).setCause .tester
      else s.offerStatus s.unitsParked := rfl
  rw [he, ← hp]
  cases s.svc.testerActive with
  | true => exact ⟨_, rfl, fun _ => setCause_pending _ _⟩
  | false => exact ⟨p, rfl, fun h => Bool.noConfusion h⟩

/-! ## The return to RUN (R185) -/

theorem returnToRun_mode (s : State) :
    s.returnToRun.mode.wakeCause = s.mode.wakePending ∧ s.returnToRun.mode.wakePending = {} ∧
      (s.returnToRun.mode.mode = .run ∨ s.returnToRun.mode.mode = .parking ∧ s.profile.ignitionOff = 0) := by
  have rest : Evolves (.ackLevel :: .gauges :: .lamps :: .chime :: .chimed :: Part.evaluation) s.takeWakeCause
      s.takeWakeCause.resumeWarnings.enterRunIndication :=
    ((resumeWarnings_evolves _).mono (by decide)).trans ((enterRunIndication_evolves _).mono (by decide))
  have hm := (mode_of_evolves rest (by decide)).trans (takeWakeCause_modeUnit s)
  have hp : s.takeWakeCause.resumeWarnings.enterRunIndication.profile = s.profile :=
    (rest.keeps .profile (by decide)).trans (takeWakeCause_sig s).2.1
  have h := judgeIgnitionAtRun_wake hm
  rw [hp] at h
  unfold State.returnToRun
  exact h

/-! ## A page write that ends in PARKING (R159, R188) -/

/-- The state after a page was written and verified: the page, and the controller free. -/
def State.pageWritten (s : State) (cfg : List Host.Cell) (torn : List Nat) (outstanding : List (Fin 32)) : State :=
  ((s.setCfg cfg).setCtrl { s.ctrl with operation := .none, torn := torn }).setFm { s.fm with outstanding := outstanding }

theorem pageWritten_keeps (s : State) (cfg : List Host.Cell) (torn : List Nat) (o : List (Fin 32)) :
    KeepsBut [.cfg, .torn, .clear, .operation] s (s.pageWritten cfg torn o) := fun p hp => by
  cases p <;> (first
    | exact absurd (by decide) hp | rfl | exact ⟨rfl, rfl⟩ | exact ⟨rfl, rfl, rfl⟩ | exact ⟨rfl, rfl, rfl, rfl⟩
    | exact (fun _ => rfl) | exact ⟨rfl, rfl, rfl, rfl, rfl, rfl, rfl, rfl, rfl, rfl⟩)

theorem countersWriteDone_stored (s : State) (snapshot : List Byte) (retried : Bool) :
    ∃ cfg torn o, s.countersWriteDone snapshot retried .stored = s.pageWritten cfg torn o :=
  ⟨_, _, s.fm.outstanding, if_pos rfl⟩

theorem slotWriteDone_stored {s : State} (h : s.fm.clearing = false) (i : Fin 32) (snapshot : List Byte)
    (retried counts : Bool) : ∃ cfg torn o, s.slotWriteDone i snapshot retried counts .stored = s.pageWritten cfg torn o := by
  have hw : s.slotWriteDone i snapshot retried counts .stored =
      (s.writePage (slotPageNo i) snapshot).slotWritten i counts := if_pos rfl
  rw [hw]
  unfold State.slotWritten State.endClear
  cases counts with
  | true => exact ⟨_, _, _, if_neg fun e => Bool.noConfusion (h.symm.trans e.1)⟩
  | false => exact ⟨_, _, s.fm.outstanding, if_neg fun e => Bool.noConfusion (h.symm.trans e.1)⟩

/-- Either page write of the park flush: the page is written, then the controller and the flush go on. -/
theorem exec_pageStored {c : Instr} {n : Fin 32} {snapshot : List Byte} {retried counts : Bool} {s : State} (hr : s.running)
    (hc : c = .countersWriteComplete .stored ∧ s.ctrl.operation = .countersWrite snapshot retried ∨
      c = .faultSlotWriteComplete .stored ∧ s.ctrl.operation = .slotWrite n snapshot retried counts ∧ s.fm.clearing = false) :
    ∃ cfg torn o, exec c s = .next (s.pageWritten cfg torn o).workAndFlush := by
  rcases hc with ⟨rfl, ho⟩ | ⟨rfl, ho, hf⟩
  · obtain ⟨cfg, torn, o, h⟩ := countersWriteDone_stored s snapshot retried
    refine ⟨cfg, torn, o, ?_⟩
    simp only [exec, execCountersWriteComplete, live_running hr, ho, h]
  · obtain ⟨cfg, torn, o, h⟩ := slotWriteDone_stored hf n snapshot retried counts
    refine ⟨cfg, torn, o, ?_⟩
    simp only [exec, execFaultSlotWriteComplete, live_running hr, ho, h]

end Sys2Proof.Machine
end

section
/-! What a device in PARKING does when a page write of the park flush ends (10, R183 to R185). -/

namespace Sys2Proof.Machine

/-- The park flush writes a page, and nothing but fault slots waits behind it. -/
structure Flushing (s : State) : Prop where
  mode : s.mode.mode = .parking
  loaded : s.fm.loaded = true
  counters : s.ctrl.countersPending = false
  restart : s.ctrl.restartWaiting = false
  store : ∀ p n, s.ctrl.store ≠ .waiting p n

namespace Flushing

variable {s : State} {cfg : List Host.Cell} {torn : List Nat} {o : List (Fin 32)}

/-- A slot that waits is taken next. -/
theorem takesSlot (h : Flushing s) {i : Fin 32} {rest : List (Fin 32)} (hq : s.fm.writeQueue = i :: rest) :
    (s.pageWritten cfg torn o).workAndFlush = (s.pageWritten cfg torn o).slotTaken i rest := by
  have ht : (s.pageWritten cfg torn o).takeWork = (s.pageWritten cfg torn o).slotTaken i rest :=
    takeWork_slot rfl h.loaded h.store h.restart h.counters hq
  have hf : ((s.pageWritten cfg torn o).slotTaken i rest).flushDone = false := Bool.and_false _
  unfold State.workAndFlush
  rw [ht, checkFlush_waits hf]
  exact takeWork_busy (fun e => Operation.noConfusion e) fun p n k e => Operation.noConfusion e

/-- With no slot waiting the controller stays free, and the flush is checked. -/
theorem checks (h : Flushing s) (hq : s.fm.writeQueue = []) :
    (s.pageWritten cfg torn o).workAndFlush = (s.pageWritten cfg torn o).checkFlush.takeWork := by
  have ht : (s.pageWritten cfg torn o).takeWork = s.pageWritten cfg torn o :=
    takeWork_idle rfl h.store h.restart h.counters hq
  unfold State.workAndFlush
  rw [ht]

theorem done (h : Flushing s) (hq : s.fm.writeQueue = []) (h2 : s.path.command ≠ some 2) (h3 : s.path.command ≠ some 3) :
    (s.pageWritten cfg torn o).flushDone = true := by
  have hb : flushBlocking s.path.command = false :=
    Bool.or_eq_false_iff.mpr ⟨decide_eq_false h2, decide_eq_false h3⟩
  show (decide (s.mode.mode = .parking) && decide (s.fm.writeQueue = []) && !s.ctrl.countersPending &&
    !flushBlocking s.path.command && true) = true
  simp [h.mode, hq, h.counters, hb]

/-- A profile store or a RESTART keeps the flush open. -/
theorem waits (h : Flushing s) (hq : s.fm.writeQueue = []) (hc : s.path.command = some 2 ∨ s.path.command = some 3) :
    (s.pageWritten cfg torn o).workAndFlush = s.pageWritten cfg torn o := by
  have hb : flushBlocking s.path.command = true := by simpa [flushBlocking] using hc
  have hf : (s.pageWritten cfg torn o).flushDone = false := by
    show (decide (s.mode.mode = .parking) && decide (s.fm.writeQueue = []) && !s.ctrl.countersPending &&
      !flushBlocking s.path.command && true) = false
    simp [hb]
  rw [h.checks hq, checkFlush_waits hf]
  exact takeWork_idle rfl h.store h.restart h.counters hq

/-- With no wake kind pending the device enters PARKED, and the controller stays free. -/
theorem parks (h : Flushing s) (hq : s.fm.writeQueue = []) (h2 : s.path.command ≠ some 2) (h3 : s.path.command ≠ some 3)
    (hw : s.flushWakes = {}) : (s.pageWritten cfg torn o).workAndFlush = (s.pageWritten cfg torn o).enterParked := by
  obtain ⟨p, he, -⟩ := enterParked_eq (s.pageWritten cfg torn o)
  have hd := (checkFlush_done (h.done (cfg := cfg) (torn := torn) (o := o) hq h2 h3)).trans (if_pos hw)
  rw [h.checks hq, hd, he]
  exact takeWork_idle rfl h.store h.restart h.counters hq

/-- With a wake kind pending the device returns to RUN. -/
theorem returns (h : Flushing s) (hq : s.fm.writeQueue = []) (h2 : s.path.command ≠ some 2) (h3 : s.path.command ≠ some 3)
    (hw : s.flushWakes ≠ {}) :
    (s.pageWritten cfg torn o).workAndFlush =
      ((s.pageWritten cfg torn o).setMode { s.mode with wakePending := s.flushWakes }).returnToRun.takeWork := by
  have hd := (checkFlush_done (h.done (cfg := cfg) (torn := torn) (o := o) hq h2 h3)).trans (if_neg hw)
  rw [h.checks hq, hd]
  rfl

end Flushing

theorem slotTaken_keeps (s : State) (i : Fin 32) (rest : List (Fin 32)) :
    KeepsBut [.writeQueue, .operation] s (s.slotTaken i rest) := fun p hp => by
  cases p <;> (first
    | exact absurd (by decide) hp | rfl | exact ⟨rfl, rfl⟩ | exact ⟨rfl, rfl, rfl⟩ | exact ⟨rfl, rfl, rfl, rfl⟩
    | exact (fun _ => rfl) | exact ⟨rfl, rfl, rfl, rfl, rfl, rfl, rfl, rfl, rfl, rfl⟩)

/-- Each row of the entry into PARKED as R46, R67, R146, R178 and R184 give it. -/
structure ParkedFrom (s t : State) : Prop where
  mode : t.mode = { s.mode with mode := .parked, offTimer := none }
  signals : t.sig.motion = s.sig.motion ∧ t.sig.hold = none
  inputs : t.inp.timing = s.inp.timing ∧ t.inp.running = false
  lines : ∀ l, t.rx.lines.get l = { s.rx.lines.get l with receive := .idle, gap := none, inChar := false, silence := none }
  owner : t.rx.owner = .none
  doors : ∀ d, t.door.doors.get d = { s.door.doors.get d with timer := none }
  sup : t.sup = { s.sup with timer := none }
  svc : t.svc.line = .idle ∧ t.svc.received = [] ∧ t.svc.response = [] ∧ t.svc.transmitting = false ∧
    t.svc.echoLosses = s.svc.echoLosses ∧ t.svc.testerActive = false ∧ t.svc.testerTimer = none ∧ t.svc.testTimer = none
  tester : s.svc.testerActive = true → t.causePending .tester

theorem enterParked_parked (s : State) : ParkedFrom s s.enterParked := by
  obtain ⟨p, he, ht⟩ := enterParked_eq s
  refine ⟨?_, ?_, ?_, fun l => ?_, ?_, fun d => ?_, ?_, ?_, ht⟩ <;> rw [he]
  · rfl
  · exact ⟨rfl, rfl⟩
  · exact ⟨rfl, rfl⟩
  · exact Table.get_map ..
  · rfl
  · exact Table.get_map ..
  · rfl
  · exact ⟨rfl, rfl, rfl, rfl, rfl, rfl, rfl, rfl⟩

/-- A return to RUN out of PARKING leaves supervision, lines, filters and the service line as they are: it is no wake resume (R185). -/
theorem returnToRun_units (s : State) :
    s.returnToRun.sup = s.sup ∧ s.returnToRun.rx.lines = s.rx.lines ∧ s.returnToRun.inp.running = s.inp.running ∧
      s.returnToRun.svc.line = s.svc.line := by
  have k := (returnToRun_evolves s).keeps
  exact ⟨k .supervision (by decide), k .lines (by decide), (k .speed (by decide)).2.1, (k .service (by decide)).1⟩

/-- A command that ends in a return to RUN with the wake kinds `w` pending. -/
theorem gives_return {c : Instr} {s u : State} {w : WakeSet} (hu : KeepsBut [.cfg, .torn, .clear, .operation] s u)
    (he : exec c s = .next (u.setMode { u.mode with wakePending := w }).returnToRun.takeWork) :
    Gives c s (.cfg :: .torn :: .clear :: Part.workFlushed) (fun t =>
      t.mode.wakeCause = w ∧ t.mode.wakePending = {} ∧ t.causePending .wake ∧
      (t.mode.mode = .run ∨ t.mode.mode = .parking ∧ s.profile.ignitionOff = 0) ∧
      t.sup = s.sup ∧ t.rx.lines = s.rx.lines ∧ t.inp.running = s.inp.running ∧ t.svc.line = s.svc.line) := by
  have hv : KeepsBut [.cfg, .torn, .clear, .operation, .wake] s (u.setMode { u.mode with wakePending := w }) :=
    (hu.mono (by decide)).trans ((setWakePending_keeps u w).mono (by decide))
  have hw : (u.setMode { u.mode with wakePending := w }).mode.wakePending = w := rfl
  generalize u.setMode { u.mode with wakePending := w } = v at *
  have hprofile : v.profile = s.profile := hv .profile (by decide)
  have hsup : v.sup = s.sup := hv .supervision (by decide)
  have hlines : v.rx.lines = s.rx.lines := hv .lines (by decide)
  have hrunning : v.inp.running = s.inp.running := (hv .speed (by decide)).2.1
  have hline : v.svc.line = s.svc.line := (hv .service (by decide)).1
  obtain ⟨hcause, hpending, hmode⟩ := returnToRun_mode v
  obtain ⟨hsup', hlines', hrunning', hline'⟩ := returnToRun_units v
  refine ⟨_, he, ?_, ?_⟩
  · refine (hv.mono (by decide)).trans (KeepsBut.trans ?_ ((takeWork_evolves _).keeps.mono (by decide)))
    exact (returnToRun_evolves v).keeps.mono (by decide)
  · simp only [State.causePending, takeWork_mode, takeWork_path, takeWork_sup, takeWork_rx, takeWork_inp, takeWork_svc]
    exact ⟨hcause.trans hw, hpending, returnToRun_pending v, hprofile ▸ hmode, hsup'.trans hsup, hlines'.trans hlines,
      hrunning'.trans hrunning, hline'.trans hline⟩

end Sys2Proof.Machine

open Sys2Proof Sys2Proof.Machine

/-- Settles O60: the entry from RUN, the end of the park flush by what waits, and the ignition judged. -/
theorem entryIntoParking : Obligations.EntryIntoParking := by
  refine ⟨fun e s hr hm ht hd => ?_, fun c n snapshot retried counts w s hr hm hl hc hcp hrw hst hw => ?_,
    fun s => ⟨ignitionTaken s, fun _ => ignitionTaken_atRun s, fun n v ht hi hd => ?_⟩⟩
  · obtain ⟨hrows, hclock, hcheck, hchime, hgauges, hlamps, htest, hcounters⟩ := enterParking_entered s
    have hmode := enterParking_modeUnit s
    have hdue : s.due .ignitionOffExpiry = true := by simp [hm, ht, hd]
    refine gives_work (t := s.enterParking) ?_ (enterParking_evolves s).keeps ?_
    · simp only [exec, execIgnitionOffExpiry, live_running hr, hdue, if_true]
    · simp only [takeWork_mode, takeWork_warn, takeWork_ind, takeWork_svc, hmode]
      exact ⟨rfl, rfl, rfl, rfl, rfl, rfl, hrows, hclock, hcheck, hchime, hgauges, hlamps, htest.1, htest.2,
        takeWork_counters hcounters⟩
  · have hf : Flushing s := ⟨hm, hl, hcp, hrw, hst⟩
    have hwakes : w = s.flushWakes := hw
    obtain ⟨cfg, torn, o, hexec⟩ := exec_pageStored hr hc
    have hk := pageWritten_keeps s cfg torn o
    refine ⟨fun i rest hq => ?_, fun hq h2 h3 hnone => ?_, fun hq h2 h3 hsome => ?_, fun hq hcmd => ?_⟩
    · refine ⟨_, hexec, ?_⟩
      rw [hf.takesSlot hq]
      exact ⟨(hk.mono (by decide)).trans ((slotTaken_keeps _ i rest).mono (by decide)), hm, rfl, rfl⟩
    · obtain ⟨hmode, hsig, hinp, hlines, howner, hdoors, hsup, hsvc, htester⟩ :=
        enterParked_parked (s.pageWritten cfg torn o)
      have hparked := (enterParked_evolves (s.pageWritten cfg torn o)).keeps
      refine ⟨_, hexec, ?_⟩
      obtain ⟨hline, hreceived, hresponse, hsends, hlosses, hactive, htimer, htest⟩ := hsvc
      rw [hf.parks hq h2 h3 (hwakes ▸ hnone)]
      exact ⟨(hk.mono (by decide)).trans (hparked.mono (by decide)), hmode, hparked .operation (by decide), hsig.1, hsig.2,
        hinp.1, hinp.2, hlines, howner, hdoors, hsup, hline, hreceived, hresponse, hsends, hlosses, hactive,
        htimer, htest, htester⟩
    · rw [hf.returns hq h2 h3 (hwakes ▸ hsome), ← hwakes] at hexec
      exact gives_return hk hexec
    · refine ⟨_, hexec, ?_⟩
      rw [hf.waits hq hcmd]
      exact ⟨hk, hm, rfl⟩
  · obtain ⟨c, hmode, hdel⟩ := deliver_judges ht hi hd
    obtain ⟨judged, -, starts, -, -, -, -, -⟩ := ignitionTaken c
    rw [hdel]
    refine ⟨judged, fun hm hon hopen => ?_⟩
    obtain ⟨-, ⟨hcycle, hcounters, -, -, -, -⟩, hoff⟩ := starts (hmode ▸ hm) hon (hmode ▸ hopen)
    rw [hmode] at hcycle
    exact ⟨hcycle.1, hcycle.2.1, hcycle.2.2, hoff, hcounters⟩

end

section
/-! The body lines: what an event of one line leaves of the lines, of the shared receiver and of the slots (02, R24 to R36). -/

namespace Sys2Proof.Machine

theorem lineToFin_injective {k l : Line} : k.toFin = l.toFin → k = l := by
  cases k <;> cases l <;> decide

/-! ## The receivers after one line was replaced and the shared receiver released (R34) -/

@[simp] theorem put_lines (u : LineUnit) (l : Line) (x : LineRx) : (u.put l x).lines = u.lines.set l.toFin x := rfl
@[simp] theorem put_owner (u : LineUnit) (l : Line) (x : LineRx) : (u.put l x).owner = u.owner := rfl
@[simp] theorem put_slots (u : LineUnit) (l : Line) (x : LineRx) : (u.put l x).slots = u.slots := rfl

@[simp] theorem release_lines (u : LineUnit) (l : Line) : (u.release l).lines = u.lines := by
  unfold LineUnit.release
  split <;> rfl

@[simp] theorem release_slots (u : LineUnit) (l : Line) : (u.release l).slots = u.slots := by
  unfold LineUnit.release
  split <;> rfl

/-- A release frees the receiver that the line holds; DRIVE holds none. -/
theorem release_owner (u : LineUnit) (l : Line) :
    (u.release l).owner = if u.owner = lineOwner l then .none else u.owner := by
  by_cases h : u.owner = lineOwner l
  · cases l with
    | drive => simp [LineUnit.release, h, lineOwner]
    | front => simp [LineUnit.release, h]
    | rear => simp [LineUnit.release, h]
  · simp [LineUnit.release, h]

theorem lineIs_of_lines {s t : State} {l : Line} {x : LineRx} (h : t.rx.lines = s.rx.lines.set l.toFin x) :
    s.LineIs t l x := by
  obtain ⟨hself, hothers⟩ := get_of_eq_set h
  exact ⟨hself, fun k hk => hothers k.toFin fun e => hk (lineToFin_injective e)⟩

/-- Line `l` replaced by `x`, and its hold given up. -/
theorem lineIs_released {s t : State} {l : Line} {x : LineRx} (h : t.rx = (s.rx.put l x).release l) :
    s.LineIs t l x ∧ s.Released t l :=
  ⟨lineIs_of_lines (by rw [h, release_lines, put_lines]), by
    unfold State.Released
    rw [h, release_owner, put_owner]⟩

/-! ## The frame of a line's event -/

/-- New receivers that keep the slots. -/
theorem setRx_keeps {s : State} {u : LineUnit} (h : u.slots = s.rx.slots) : KeepsBut [.lines, .shared] s (s.setRx u) :=
  ((setRx_alone s u).keeps.mono (k := [.slots, .lines, .shared]) (by decide)).drop h

/-- One line replaced and no more. -/
theorem setRx_put_keeps (s : State) (l : Line) (x : LineRx) : KeepsBut [.lines] s (s.setRx (s.rx.put l x)) :=
  ((setRx_keeps (u := s.rx.put l x) rfl).mono (k := [.shared, .lines]) (by decide)).drop ⟨rfl, rfl, rfl⟩

/-- A line that keeps its line state gives images and no report (R43, R44). -/
theorem commitLine_of_state {s : State} {u : LineUnit} {l : Line}
    (h : (u.lines.get l.toFin).state = (s.line l).state) (w : List Nat) :
    s.commitLine u l w = s.offerChanged (s.setRx u) (w ++ lineOffsets l.toFin) := by
  unfold State.commitLine
  rw [h]
  exact if_pos rfl

/-- The frame of a line's event that keeps the line state and the slots. -/
theorem commitLine_keeps {s : State} {u : LineUnit} {l : Line} (hslots : u.slots = s.rx.slots)
    (h : (u.lines.get l.toFin).state = (s.line l).state) (w : List Nat) :
    KeepsBut (.lines :: .shared :: Part.images) s (s.commitLine u l w) := by
  rw [commitLine_of_state h]
  exact ((setRx_keeps hslots).mono (by decide)).trans ((offerChanged_evolves s _ _).keeps.mono (by decide))

/-- The frame of a line's event that replaces one line and keeps its line state. -/
theorem commitLine_put_keeps {s : State} {l : Line} {x : LineRx} (h : x.state = (s.line l).state) (w : List Nat) :
    KeepsBut (.lines :: Part.images) s (s.commitLine (s.rx.put l x) l w) := by
  rw [commitLine_of_state (by rw [put_lines, Table.get_set_self, h])]
  exact ((setRx_put_keeps s l x).mono (by decide)).trans ((offerChanged_evolves s _ _).keeps.mono (by decide))

/-- A line replaced and its hold given up: frame, line and owner of the shared receiver. -/
theorem commitLine_release {s : State} {l : Line} {x : LineRx} (h : x.state = (s.line l).state) :
    KeepsBut (.lines :: .shared :: Part.images) s (s.commitLine ((s.rx.put l x).release l) l []) ∧
      s.LineIs (s.commitLine ((s.rx.put l x).release l) l []) l x ∧
      s.Released (s.commitLine ((s.rx.put l x).release l) l []) l :=
  ⟨commitLine_keeps (by simp) (by simp [h]) [], lineIs_released (commitLine_rx ..)⟩

/-! ## Start edges and false starts (R24, R31, R33 to R35) -/

theorem exec_startEdge {s : State} {l : Line} (hr : s.running) (ht : s.lineTakes l = true) :
    exec (.startEdge l) s = .next (s.startEdge l) := by
  simp only [exec, execStartEdge, live_running hr, ht, if_true]

/-- An edge on a received line begins a character. -/
theorem startEdge_received {s : State} {l : Line} (hr : s.rx.received l = true) (hc : (s.line l).inChar = false) :
    s.startEdge l = s.setRx (s.rx.put l { s.line l with inChar := true, gap := none }) := by
  unfold State.line at hc
  simp [State.startEdge, hr, hc, State.line]

/-- An edge on FRONT or REAR takes the free shared receiver. -/
theorem startEdge_takes {s : State} {l : Line} (hr : s.rx.received l = false) (ho : s.rx.owner = .none) :
    s.startEdge l = s.setRx { s.rx.put l { s.line l with inChar := true, gap := none } with
      owner := lineOwner l
      collision := false
      firstChar := true } := by
  simp [State.startEdge, hr, ho, State.line]

/-- A line after a collision loss (R35). -/
def LineRx.collided (x : LineRx) : LineRx :=
  ({ x with counts := { x.counts with collisions := satInc x.counts.collisions } } : LineRx).enter .hunt

/-- The first edge of a collision costs the line one loss. -/
theorem startEdge_collides {s : State} {l : Line} (hr : s.rx.received l = false) (ho : s.rx.owner ≠ .none)
    (hc : s.rx.collision = false) :
    s.startEdge l = s.commitLine { s.rx.put l (s.line l).collided with collision := true } l [] := by
  simp [State.startEdge, hr, ho, hc, State.line, LineRx.collided]

/-- A line inside no character any more after a false start (R24, R31). -/
def LineRx.restarted (x : LineRx) : LineRx :=
  { x with inChar := false, gap := if x.receive.inFrame then some 0 else x.gap }

theorem falseStart_eq (s : State) (l : Line) :
    s.falseStart l = s.setRx (if s.rx.firstChar then (s.rx.put l (s.line l).restarted).release l
      else s.rx.put l (s.line l).restarted) := rfl

/-- A false start: its line, and the hold that it gives up where it began it. -/
theorem falseStart_leaves (s : State) (l : Line) :
    KeepsBut [.lines, .shared] s (s.falseStart l) ∧ s.LineIs (s.falseStart l) l (s.line l).restarted ∧
      (s.rx.firstChar = true → s.Released (s.falseStart l) l) ∧
      (s.rx.firstChar = false → (s.falseStart l).rx.owner = s.rx.owner) := by
  rw [falseStart_eq]
  cases s.rx.firstChar with
  | true =>
    obtain ⟨hline, hrel⟩ := lineIs_released (s := s) (t := s.setRx ((s.rx.put l (s.line l).restarted).release l)) rfl
    exact ⟨setRx_keeps (by simp), hline, fun _ => hrel, fun h => Bool.noConfusion h⟩
  | false =>
    exact ⟨(setRx_put_keeps s l _).mono (by decide), lineIs_of_lines rfl, fun h => Bool.noConfusion h, fun _ => rfl⟩

end Sys2Proof.Machine

open Sys2Proof Sys2Proof.Machine

/-- Settles O15: an edge by what the line and the shared receiver are, then the start bit by its majority. -/
theorem startEdges : Obligations.StartEdges := by
  intro l s hr ht
  refine ⟨fun hrec hc => ?_, fun hrec ho => ?_, fun hrec ho hcol => ?_, fun x hrec hc => ⟨fun hx => ?_, fun hx => ?_⟩⟩
  · refine ⟨_, exec_startEdge hr ht, ?_⟩
    rw [startEdge_received hrec hc]
    exact ⟨setRx_put_keeps s l _, lineIs_of_lines rfl⟩
  · refine ⟨_, exec_startEdge hr ht, ?_⟩
    rw [startEdge_takes hrec ho]
    exact ⟨setRx_keeps rfl, lineIs_of_lines rfl, rfl, rfl, rfl⟩
  · refine ⟨_, exec_startEdge hr ht, ?_⟩
    rw [startEdge_collides hrec ho hcol]
    refine ⟨commitLine_keeps ?_ ?_ [], lineIs_of_lines (congrArg LineUnit.lines (commitLine_rx ..)), ?_⟩
    · rfl
    · rw [put_lines, Table.get_set_self]
      rfl
    · rw [commitLine_rx]
      exact ⟨rfl, rfl⟩
  · refine ⟨s.falseStart l, ?_, falseStart_leaves s l⟩
    unfold State.line at hc
    simp only [exec, execStartBitSample, live_running hr, ht, hrec, hc, hx, Bool.and_self, if_true]
  · simp [exec, execStartBitSample, live_running hr, hx]

end

section
/-! Characters of a received line: headers, skipped characters, the characters of a frame, and those that discard it (02, R24 to R34). -/

namespace Sys2Proof.Machine

/-- A line when its character is over. -/
def LineRx.ended (x : LineRx) : LineRx := { x with inChar := false }

/-- A line that takes a character into its frame: the check goes on and the gap timer restarts (R28, R31). -/
def LineRx.carried (x : LineRx) (b : Byte) : LineRx := { x.ended with xor := x.xor ^^^ b, gap := some 0 }

/-! ## What a character does, by what it is (R27 to R29) -/

theorem exec_characterComplete {s : State} {l : Line} {c : CharSamples} (h : s.receives l) (hf : c.falseStart = false) :
    exec (.characterComplete l c) s = .next (s.character l c).takeWork := by
  obtain ⟨hr, ht, hrec, hin⟩ := h
  unfold State.line at hin
  simp [exec, execCharacterComplete, live_running hr, ht, hrec, hin, hf]

/-- Outside a character a line takes none. -/
theorem exec_characterComplete_idle {s : State} {l : Line} (h : (s.line l).inChar = false) (c : CharSamples) :
    exec (.characterComplete l c) s = .next s := by
  unfold State.line at h
  simp [exec, execCharacterComplete, State.live, h]

theorem clean_iff (c : CharSamples) : c.clean = true ↔ c.noisy = false ∧ c.framing = false := by simp [CharSamples.clean]

theorem not_clean_of_bad {c : CharSamples} (h : c.framing = true ∨ c.noisy = true) : c.clean = false := by
  rcases h with h | h <;> simp [CharSamples.clean, h]

/-- The receivers after a header: DRIVE aside, the hold is no longer at its first character (R34). -/
def LineUnit.headed (u : LineUnit) (l : Line) (x : LineRx) : LineUnit :=
  if l = .drive then u.put l x else { u.put l x with firstChar := false }

theorem headed_keeps (u : LineUnit) (l : Line) (x : LineRx) :
    (u.headed l x).lines = u.lines.set l.toFin x ∧ (u.headed l x).owner = u.owner ∧ (u.headed l x).slots = u.slots := by
  unfold LineUnit.headed
  split <;> exact ⟨rfl, rfl, rfl⟩

section

variable {s : State} {l : Line} {c : CharSamples}

/-- A clean mark character starts a frame; one in progress is TRUNCATED. -/
theorem character_header (hc : c.clean = true) (hm : c.mark.majority = true) :
    s.character l c = s.commitLine (s.rx.headed l (LineRx.header c.byte
      (if (s.line l).receive.inFrame then (s.line l).ended.discard .truncated else (s.line l).ended))) l [] := by
  simp only [State.character, hc, hm, Bool.and_self, if_true]
  rfl

theorem character_hunts (hc : ¬ (c.clean = true ∧ c.mark.majority = true)) (hf : (s.line l).receive.inFrame = false) :
    s.character l c = s.commitLine ((s.rx.put l ((s.line l).ended.enter .hunt)).release l) l [] := by
  unfold State.line at hf
  simp only [State.character, Bool.and_eq_true, hc, hf, if_false, Bool.not_false, if_true]
  rfl

theorem character_framing (hf : (s.line l).receive.inFrame = true) (hc : c.framing = true) :
    s.character l c = s.commitLine ((s.rx.put l ((s.line l).ended.discard .framing)).release l) l [] := by
  unfold State.line at hf
  simp [State.character, not_clean_of_bad (.inl hc), hf, hc, State.line, LineRx.ended]

theorem character_noise (hf : (s.line l).receive.inFrame = true) (hc : c.framing = false) (hn : c.noisy = true) :
    s.character l c = s.commitLine ((s.rx.put l ((s.line l).ended.discard .noise)).release l) l [] := by
  unfold State.line at hf
  simp [State.character, not_clean_of_bad (.inr hn), hf, hc, hn, State.line, LineRx.ended]

theorem character_carries (hf : (s.line l).receive.inFrame = true) (hc : c.clean = true) (hm : c.mark.majority = false) :
    s.character l c = s.takeCharacter l (s.line l).ended c.byte := by
  obtain ⟨hn, hg⟩ := (clean_iff c).mp hc
  unfold State.line at hf
  simp [State.character, hc, hm, hf, hn, hg, State.line, LineRx.ended]

end

/-! ## A character that the frame takes (R28) -/

section

variable {s : State} {l : Line} {b : Byte}

theorem takeCharacter_long (hr : (s.line l).receive = .headerSeen) (hb : 12 < b.toNat) :
    s.takeCharacter l (s.line l).ended b =
      s.commitLine ((s.rx.put l (((s.line l).carried b).discard .long)).release l) l [] := by
  simp [State.takeCharacter, LineRx.ended, LineRx.carried, hr, hb]

/-- A line that has taken the length of its frame. -/
def LineRx.measured (x : LineRx) (b : Byte) : LineRx :=
  LineRx.enter (if b.toNat = 0 then .check else .data) { x.carried b with length := b.toNat }

theorem takeCharacter_length (hr : (s.line l).receive = .headerSeen) (hb : ¬ 12 < b.toNat) :
    s.takeCharacter l (s.line l).ended b = s.commitLine (s.rx.put l ((s.line l).measured b)) l [] := by
  simp [State.takeCharacter, LineRx.ended, LineRx.carried, LineRx.measured, hr, hb]

/-- A line that has taken a data character; the last one leads to CHECK. -/
def LineRx.filled (x : LineRx) (b : Byte) : LineRx :=
  if x.taken.length + 1 = x.length then LineRx.enter .check { x.carried b with taken := x.taken ++ [b] }
  else { x.carried b with taken := x.taken ++ [b] }

theorem takeCharacter_data (hr : (s.line l).receive = .data) :
    s.takeCharacter l (s.line l).ended b = s.commitLine (s.rx.put l ((s.line l).filled b)) l [] := by
  simp [State.takeCharacter, LineRx.ended, LineRx.filled, LineRx.carried, hr]

theorem takeCharacter_wrong (hr : (s.line l).receive = .check) (hx : (s.line l).xor ≠ b) :
    s.takeCharacter l (s.line l).ended b =
      s.commitLine ((s.rx.put l (((s.line l).carried b).discard .check)).release l) l [] := by
  have hne : ¬ (s.line l).xor ^^^ b = 0#8 := fun e => hx (BitVec.xor_eq_zero_iff.mp e)
  simp [State.takeCharacter, LineRx.ended, LineRx.carried, hr, hne]

theorem takeCharacter_checked (hr : (s.line l).receive = .check) (hx : (s.line l).xor = b) :
    s.takeCharacter l (s.line l).ended b = s.acceptFrame l { (s.line l).carried b with xor := 0 } := by
  simp [State.takeCharacter, LineRx.ended, LineRx.carried, hr, hx]

end

end Sys2Proof.Machine

end

section
/-! The characters of a frame and those that discard it, as the commands that the line takes (02, R27 to R34). -/

namespace Sys2Proof.Machine

section

variable {i : Instr} {s : State} {l : Line} {x : LineRx}

/-- A command that replaces one line, which keeps its line state. -/
theorem gives_put (hx : x.state = (s.line l).state) (he : exec i s = .next (s.commitLine (s.rx.put l x) l []).takeWork) :
    Gives i s (.lines :: Part.images ++ Part.work) (fun t => s.LineIs t l x) :=
  gives_work he (commitLine_put_keeps hx []) (lineIs_of_lines (by rw [takeWork_rx, commitLine_rx, put_lines]))

/-- A command that replaces one line, which keeps its line state and gives up its hold. -/
theorem gives_release (hx : x.state = (s.line l).state)
    (he : exec i s = .next (s.commitLine ((s.rx.put l x).release l) l []).takeWork) :
    Gives i s (.lines :: .shared :: Part.images ++ Part.work) (fun t => s.LineIs t l x ∧ s.Released t l) :=
  gives_work he (commitLine_release hx).1 (lineIs_released ((takeWork_rx _).trans (commitLine_rx ..)))

/-- A command that starts a frame on a line. -/
theorem gives_headed (hx : x.state = (s.line l).state)
    (he : exec i s = .next (s.commitLine (s.rx.headed l x) l []).takeWork) :
    Gives i s (.lines :: .shared :: Part.images ++ Part.work) (fun t => s.LineIs t l x ∧ t.rx.owner = s.rx.owner) := by
  obtain ⟨hlines, howner, hslots⟩ := headed_keeps s.rx l x
  refine gives_work he (commitLine_keeps hslots ?_ []) ⟨lineIs_of_lines ?_, ?_⟩
  · rw [hlines, Table.get_set_self, hx]
  · rw [takeWork_rx, commitLine_rx, hlines]
  · rw [takeWork_rx, commitLine_rx, howner]

end

theorem filled_eq {x : LineRx} (hr : x.receive = .data) (hh : x.hunting = false) (b : Byte) :
    x.filled b =
      { x with
        receive := if x.taken.length + 1 = x.length then .check else .data
        taken := x.taken ++ [b]
        xor := x.xor ^^^ b
        gap := some 0
        inChar := false } := by
  unfold LineRx.filled
  split <;> simp [LineRx.carried, LineRx.ended, LineRx.enter, hr, hh]

theorem filled_state (x : LineRx) (b : Byte) : (x.filled b).state = x.state := by
  unfold LineRx.filled
  split <;> rfl

theorem measured_eq (x : LineRx) (b : Byte) :
    x.measured b =
      { x with
        receive := if b = 0 then .check else .data
        hunting := false
        length := b.toNat
        xor := x.xor ^^^ b
        gap := some 0
        inChar := false } := by
  have hb : b.toNat = 0 ↔ b = 0 := ⟨fun h => BitVec.eq_of_toNat_eq h, fun h => h ▸ rfl⟩
  unfold LineRx.measured
  by_cases h : b = 0
  · rw [if_pos (hb.mpr h), if_pos h]
    rfl
  · rw [if_neg (hb.not.mpr h), if_neg h]
    rfl

end Sys2Proof.Machine

open Sys2Proof Sys2Proof.Machine

/-- Settles O16: outside a frame by the character's mark bit, in a frame by what the frame waits for. -/
theorem charactersOfAFrame : Obligations.CharactersOfAFrame := by
  refine ⟨fun l c s h hf hin => ⟨fun hc hm => ?_, fun hc => ?_⟩,
    fun l c s h hf hc hm => ⟨fun hr hb => ?_, fun hr hh => ?_⟩, fun l c s h => exec_characterComplete_idle h c⟩
  · refine gives_headed rfl ?_
    rw [exec_characterComplete h hf, character_header hc hm, if_neg (by simp [hin])]
    rfl
  · refine gives_release rfl ?_
    rw [exec_characterComplete h hf, character_hunts hc hin]
    rfl
  · rw [← measured_eq]
    refine gives_put rfl ?_
    rw [exec_characterComplete h hf, character_carries (by rw [hr]; rfl) hc hm, takeCharacter_length hr (by omega)]
  · rw [← filled_eq hr hh]
    refine gives_put (filled_state _ _) ?_
    rw [exec_characterComplete h hf, character_carries (by rw [hr]; rfl) hc hm, takeCharacter_data hr]

/-- Settles O17: a new header over the frame, then each discard that leaves HUNT. -/
theorem characterDiscardsAFrame : Obligations.CharacterDiscardsAFrame := by
  intro l c s h hf hin
  refine ⟨fun hc hm => ?_, fun hc => ?_, fun hc hn => ?_, fun hc hm hr hb => ?_, fun hc hm hr hx => ?_⟩
  · refine gives_headed rfl ?_
    rw [exec_characterComplete h hf, character_header hc hm, if_pos hin]
    rfl
  · refine gives_release rfl ?_
    rw [exec_characterComplete h hf, character_framing hin hc]
    rfl
  · refine gives_release rfl ?_
    rw [exec_characterComplete h hf, character_noise hin hc hn]
    rfl
  · refine gives_release rfl ?_
    rw [exec_characterComplete h hf, character_carries hin hc hm, takeCharacter_long hr hb]
    rfl
  · refine gives_release rfl ?_
    rw [exec_characterComplete h hf, character_carries hin hc hm, takeCharacter_wrong hr hx]
    rfl

end

section
/-! A frame whose check is correct: ignored, discarded by its length, or accepted and delivered (02, R37, R39, R41). -/

namespace Sys2Proof.Machine

/-! ## Deliveries with a value of their own (R39) -/

/-- Every entry of a list that has a value takes it as an update. -/
def State.deliverEach (s : State) (l : List (Fin 256)) (v : Fin 256 → Option (BitVec 16)) : State :=
  s.forEach l fun t n => (v n).elim t (t.deliver n)

/-- A delivery where there is a value: the device still takes updates, and profile and every other entry are as they were. -/
theorem elim_deliver {s : State} (h : s.takesUpdates = true) (m : Fin 256) (v : Option (BitVec 16)) :
    (v.elim s (s.deliver m)).takesUpdates = true ∧ (v.elim s (s.deliver m)).profile = s.profile ∧
      (∀ n, n ≠ m → s.Unmoved (v.elim s (s.deliver m)) n) ∧ (∀ x, v = some x → s.Updated (v.elim s (s.deliver m)) m x) ∧
      (v = none → s.Unmoved (v.elim s (s.deliver m)) m) := by
  cases v with
  | none => exact ⟨h, rfl, fun _ _ => rfl, fun _ e => (nomatch e), fun _ => rfl⟩
  | some x =>
    exact ⟨deliver_takes s m x h, (deliver_evolves s m x).keeps .profile (by decide), fun _ hn => deliver_unmoved h hn x,
      fun y e => Option.some.inj e ▸ deliver_updated h m x, fun e => (nomatch e)⟩

/-- An update between two states with the entry as in other two, under the same profile. -/
theorem Updated.of_entries {s s' t t' : State} {n : Fin 256} {v : BitVec 16} (h : s'.Updated t' n v)
    (hp : s'.profile = s.profile) (hs : s.Unmoved s' n) (ht : t'.Unmoved t n) : s.Updated t n v := by
  unfold State.Updated State.Unmoved at *
  rw [hp, hs, ← ht] at h
  exact h

/-- Each entry of a list takes the value that it has; every other entry is as it was. -/
theorem deliverEach_entries {l : List (Fin 256)} (hl : l.Nodup) {s : State} (h : s.takesUpdates = true)
    (v : Fin 256 → Option (BitVec 16)) :
    (∀ n ∈ l, ∀ x, v n = some x → s.Updated (s.deliverEach l v) n x) ∧
      (∀ n, n ∉ l ∨ v n = none → s.Unmoved (s.deliverEach l v) n) := by
  induction l generalizing s with
  | nil => exact ⟨fun n hn => absurd hn List.not_mem_nil, fun n _ => rfl⟩
  | cons m l ih =>
    obtain ⟨hm, hl⟩ := List.nodup_cons.mp hl
    obtain ⟨htakes, hprof, hothers, hsome, hnone⟩ := elim_deliver h m (v m)
    obtain ⟨hin, hout⟩ := ih hl htakes
    refine ⟨fun n hn x hx => ?_, fun n hn => ?_⟩
    · by_cases e : n = m
      · subst e
        exact Updated.of_entries (hsome x hx) rfl rfl (hout n (.inl hm))
      · exact Updated.of_entries (hin n ((List.mem_cons.mp hn).resolve_left e) x hx) hprof (hothers n e) rfl
    · by_cases e : n = m
      · subst e
        exact (hout n (.inl hm)).trans (hnone (hn.resolve_left fun hc => hc List.mem_cons_self))
      · exact (hout n (hn.imp_left fun hc hl => hc (List.mem_cons_of_mem _ hl))).trans (hothers n e)

/-! ## The LINE signals of a slot (R38, R39) -/

/-- The value that a signal has in a slot's last data, if it is a LINE signal of the slot. -/
def State.slotValue (s : State) (i : Fin 64) (n : Fin 256) : Option (BitVec 16) :=
  match (s.profile.signals.get n).source with
  | .line slot start length signed =>
    if slot = i then some (lineField (s.rx.slots.get i).data start length signed) else none
  | .none => none
  | .discrete _ => none
  | .speed => none
  | .host => none

theorem deliverSlot_eq (s : State) (i : Fin 64) : s.deliverSlot i = s.deliverEach (List.finRange 256) (s.slotValue i) := by
  unfold State.deliverSlot State.deliverEach
  congr 1
  funext t n
  unfold State.slotValue
  cases (s.profile.signals.get n).source with
  | line slot start length signed => by_cases hi : slot = i <;> simp [hi]
  | none => rfl
  | discrete _ => rfl
  | speed => rfl
  | host => rfl

theorem slotValue_line {s : State} {i : Fin 64} {n : Fin 256} {start length : Nat} {signed : Bool}
    (h : (s.profile.signals.get n).source = .line i start length signed) :
    s.slotValue i n = some (lineField (s.rx.slots.get i).data start length signed) := by
  simp [State.slotValue, h]

theorem slotValue_none {s : State} {i : Fin 64} {n : Fin 256}
    (h : ∀ start length signed, (s.profile.signals.get n).source ≠ .line i start length signed) : s.slotValue i n = none := by
  unfold State.slotValue
  cases hs : (s.profile.signals.get n).source with
  | line slot start length signed =>
    have hne : slot ≠ i := fun e => h start length signed (e ▸ hs)
    exact if_neg hne
  | none => rfl
  | discrete _ => rfl
  | speed => rfl
  | host => rfl

/-- The updates of a slot's LINE signals, each with its own field. -/
theorem deliverSlot_entries {s : State} (h : s.takesUpdates = true) (i : Fin 64) :
    (∀ n start length signed, (s.profile.signals.get n).source = .line i start length signed →
        s.Updated (s.deliverSlot i) n (lineField (s.rx.slots.get i).data start length signed)) ∧
      ∀ n, (∀ start length signed, (s.profile.signals.get n).source ≠ .line i start length signed) →
        s.Unmoved (s.deliverSlot i) n := by
  obtain ⟨hin, hout⟩ := deliverEach_entries (List.nodup_finRange 256) h (s.slotValue i)
  rw [deliverSlot_eq]
  exact ⟨fun n start length signed hs => hin n (List.mem_finRange n) _ (slotValue_line hs),
    fun n hs => hout n (.inr (slotValue_none hs))⟩

/-! ## The frame (R37, R41) -/

/-- The receivers of a state whose lines, shared receiver and slots are as they were. -/
theorem rx_of_keeps {l : List Part} {s t : State} (k : KeepsBut l s t) (hl : ∀ p ∈ [Part.lines, .shared, .slots], p ∉ l) :
    t.rx = s.rx := by
  have hlines : t.rx.lines = s.rx.lines := k .lines (hl _ (by decide))
  obtain ⟨howner, hcollision, hfirst⟩ := k .shared (hl _ (by decide))
  have hslots : t.rx.slots = s.rx.slots := k .slots (hl _ (by decide))
  cases ht : t.rx
  cases hs : s.rx
  simp only [ht, hs] at hlines howner hcollision hfirst hslots
  subst hlines howner hcollision hfirst hslots
  rfl

/-- A line with a correct check, its frame not judged yet. -/
def LineRx.checked (x : LineRx) (b : Byte) : LineRx := { x.carried b with xor := 0 }

/-- A line after an IGNORED frame (R37). -/
def LineRx.ignore (x : LineRx) : LineRx :=
  ({ x with gap := none, counts := { x.counts with ignored := satInc x.counts.ignored } } : LineRx).enter .idle

/-- The receivers after an accepted frame: the line, its hold given up, the slot's data and arrival. -/
def State.acceptedRx (s : State) (l : Line) (x : LineRx) (i : Fin 64) : LineUnit :=
  { (s.rx.put l (x.accept (s.profile.lines.get l.toFin))).release l with
    slots := s.rx.slots.modify i (Slot.accept x.taken) }

section

variable {s : State} {l : Line} {x : LineRx}

theorem acceptFrame_ignored (h : s.slotFor l x.node x.kind = none) :
    s.acceptFrame l x = s.commitLine ((s.rx.put l x.ignore).release l) l [] := by
  unfold State.acceptFrame
  rw [h]
  rfl

theorem acceptFrame_length {i : Fin 64} {k : SlotCfg} (h : s.slotFor l x.node x.kind = some i)
    (hk : s.profile.slots.get i = some k) (hl : k.length ≠ x.length) :
    s.acceptFrame l x = s.commitLine ((s.rx.put l (x.discard .length)).release l) l [] := by
  simp [State.acceptFrame, h, hk, hl]

theorem acceptFrame_accepted {i : Fin 64} {k : SlotCfg} (h : s.slotFor l x.node x.kind = some i)
    (hk : s.profile.slots.get i = some k) (hl : k.length = x.length) :
    s.acceptFrame l x = (s.commitLine (s.acceptedRx l x i) l [offArrival i, offEver i]).deliverSlot i := by
  simp [State.acceptFrame, h, hk, hl, State.acceptedRx]

/-- What an accepted frame leaves of the receivers. -/
theorem acceptedRx_rx {t : State} {i : Fin 64} (h : t.rx = s.acceptedRx l x i) :
    s.LineIs t l (x.accept (s.profile.lines.get l.toFin)) ∧ s.Released t l ∧
      t.rx.slots.get i = { data := packData x.taken, arrivals := satInc (s.rx.slots.get i).arrivals, ever := true } ∧
      ∀ j, j ≠ i → t.rx.slots.get j = s.rx.slots.get j := by
  refine ⟨lineIs_of_lines ?_, ?_, ?_, fun j hj => ?_⟩
  · rw [h]
    exact release_lines ..
  · unfold State.Released
    rw [h]
    exact release_owner ..
  · rw [h]
    exact Table.get_modify_self ..
  · rw [h]
    exact Table.get_modify_ne _ (Ne.symm hj) _

/-- The entries after an accepted frame: its commit hands no signal on, the delivery does. -/
theorem accepted_entries (h : s.takesUpdates = true) (i : Fin 64) {t : State}
    (ht : t = s.commitLine (s.acceptedRx l x i) l [offArrival i, offEver i]) :
    (∀ n start length signed, (s.profile.signals.get n).source = .line i start length signed →
        s.Updated (t.deliverSlot i) n (lineField (packData x.taken) start length signed)) ∧
      ∀ n, (∀ start length signed, (s.profile.signals.get n).source ≠ .line i start length signed) →
        s.Unmoved (t.deliverSlot i) n := by
  have k : KeepsBut Part.lineEvent s t := ht ▸ (commitLine_evolves ..).keeps
  have hp : t.profile = s.profile := k .profile (by decide)
  have he : ∀ n, s.Unmoved t n := fun n => congrArg (fun e => e.get n) (k .entries (by decide) : t.sig.entries = _)
  have htakes : t.takesUpdates = true := by
    have hs : t.profStatus = s.profStatus := k .profStatus (by decide)
    have hm : t.mode.mode = s.mode.mode := k .opMode (by decide)
    unfold State.takesUpdates State.inForce at h ⊢
    rw [hs, hm]
    exact h
  have hdata : (t.rx.slots.get i).data = packData x.taken := by
    rw [(acceptedRx_rx (t := t) (ht ▸ commitLine_rx ..)).2.2.1]
  obtain ⟨hin, hout⟩ := deliverSlot_entries htakes i
  rw [hp, hdata] at hin
  rw [hp] at hout
  exact ⟨fun n start length signed hs => Updated.of_entries (hin n start length signed hs) hp (he n) rfl,
    fun n hn => (hout n hn).trans (he n)⟩

end

end Sys2Proof.Machine

open Sys2Proof Sys2Proof.Machine

/-- Settles O18: the frame judged by the slot of its key. -/
theorem checkedFrame : Obligations.CheckedFrame := by
  intro l c s h hf hc hm hr hx
  have hexec : exec (.characterComplete l c) s = .next (s.acceptFrame l ((s.line l).checked c.byte)).takeWork := by
    rw [exec_characterComplete h hf, character_carries (by rw [hr]; rfl) hc hm, takeCharacter_checked hr hx]
    rfl
  refine ⟨fun hslot => ?_, fun i k hslot hk => ⟨fun hl => ?_, fun hl => ?_⟩⟩
  · refine gives_release rfl ?_
    rw [hexec, acceptFrame_ignored (x := (s.line l).checked c.byte) hslot]
    rfl
  · refine gives_release rfl ?_
    rw [hexec, acceptFrame_length (x := (s.line l).checked c.byte) hslot hk hl]
    rfl
  · have htakes : s.takesUpdates = true := by
      obtain ⟨-, ht, -, -⟩ := h
      simp only [State.lineTakes, Bool.and_eq_true] at ht
      exact ht.1
    have hacc := acceptFrame_accepted (x := (s.line l).checked c.byte) hslot hk hl
    have hrx : (s.acceptFrame l ((s.line l).checked c.byte)).rx = s.acceptedRx l ((s.line l).checked c.byte) i := by
      rw [hacc, rx_of_keeps (deliverSlot_evolves _ i).keeps (by decide), commitLine_rx]
    obtain ⟨hin, hout⟩ := accepted_entries (l := l) (x := (s.line l).checked c.byte) htakes i rfl
    rw [← hacc] at hin hout
    refine gives_work hexec (acceptFrame_evolves ..).keeps ?_
    obtain ⟨hline, hreleased, hslotIs, hslots⟩ := acceptedRx_rx ((takeWork_rx _).trans hrx)
    simp only [State.Updated, State.Unmoved, takeWork_sig]
    exact ⟨hline, hreleased, hslotIs, hslots, hin, hout⟩

end

section
/-! The field of a LINE signal: its bits in the frame's data, its number, and the extent that a profile may give it (02, R38). -/

namespace Sys2Proof.Machine

/-- A frame's data as one number, byte 0 lowest. -/
def bytesNat (bytes : List Byte) : Nat := bytes.foldr (fun b acc => b.toNat + 256 * acc) 0

theorem packData_eq (bytes : List Byte) : packData bytes = BitVec.ofNat 96 (bytesNat bytes) := rfl

/-- Bit `k` of byte `b` is bit `8 b + k` of the number. -/
theorem testBit_bytesNat (bytes : List Byte) (b : Nat) {k : Nat} (hk : k < 8) :
    (bytesNat bytes).testBit (8 * b + k) = (bytes.getD b 0).getLsbD k := by
  induction bytes generalizing b with
  | nil => simp [bytesNat]
  | cons x xs ih =>
    have hcons : bytesNat (x :: xs) = 2 ^ 8 * bytesNat xs + x.toNat := Nat.add_comm ..
    rw [hcons, Nat.testBit_two_pow_mul_add _ x.isLt]
    cases b with
    | zero => simp [hk, BitVec.getLsbD]
    | succ b =>
      rw [if_neg (by omega), show 8 * (b + 1) + k - 8 = 8 * b + k by omega, ih]
      rfl

/-- The raw field as a bit vector of its own length. -/
theorem extractLsb'_toNat (data : BitVec 96) (start length : Nat) :
    (data.extractLsb' start length).toNat = data.toNat / 2 ^ start % 2 ^ length := by
  rw [BitVec.extractLsb'_toNat, Nat.shiftRight_eq_div_pow]

/-- A number below 32 768 is the same number as a signed 16-bit one. -/
theorem toInt_ofNat_of_lt {n : Nat} (h : n < 32768) : (BitVec.ofNat 16 n).toInt = n := by
  rw [BitVec.toInt_eq_toNat_of_lt] <;> simp only [BitVec.toNat_ofNat] <;> omega

theorem lineField_unsigned (data : BitVec 96) (start length : Nat) :
    (lineField data start length false).toInt = (min (data.extractLsb' start length).toNat 32767 : Nat) := by
  rw [extractLsb'_toNat]
  exact toInt_ofNat_of_lt (by omega)

/-- A signed field is the two's complement number of its bits. -/
theorem lineField_signed (data : BitVec 96) (start : Nat) {length : Nat} (h1 : 1 ≤ length) (h2 : length ≤ 16) :
    (lineField data start length true).toInt = (data.extractLsb' start length).toInt := by
  obtain ⟨m, rfl⟩ : ∃ m, length = m + 1 := ⟨length - 1, by omega⟩
  have hraw := extractLsb'_toNat data start (m + 1)
  have hlt := (data.extractLsb' start (m + 1)).isLt
  have hpow : 2 ^ m ≤ 2 ^ 15 := Nat.pow_le_pow_right (by decide) (by omega)
  have hsucc : 2 ^ (m + 1) = 2 * 2 ^ m := by rw [Nat.pow_succ, Nat.mul_comm]
  unfold lineField
  rw [BitVec.toInt_eq_toNat_cond (data.extractLsb' start (m + 1)), ← hraw]
  generalize (data.extractLsb' start (m + 1)).toNat = raw at hlt
  simp only [if_true, Nat.add_sub_cancel, Nat.zero_lt_succ, true_and]
  by_cases hneg : 2 ^ m ≤ raw
  · have hcast : ((2 ^ (m + 1) : Nat) : Int) = 2 ^ (m + 1) := by norm_cast
    rw [if_pos hneg, if_neg (by omega), BitVec.toInt_ofInt, ← hcast]
    exact Int.bmod_eq_of_le (by omega) (by omega)
  · rw [if_neg hneg, if_pos (by omega)]
    exact toInt_ofNat_of_lt (by omega)

/-- A LINE signal's field beyond bit 95 fails the check of its entry (R189). -/
theorem signalOk_extent {rd : Nat → Byte} {n : Nat} (hk : rd (atSignal n) = 3)
    (h : 96 < (rd (atSignal n + 3)).toNat + (rd (atSignal n + 4)).toNat) : signalOk rd n = false := by
  have h3 : (rd (atSignal n)).toNat = 3 := by rw [hk]; rfl
  have hext : ¬ (rd (atSignal n + 3)).toNat + (rd (atSignal n + 4)).toNat ≤ 96 := by omega
  simp [signalOk, h3, hext]

/-- A profile is valid only if every signal entry passes its check (R189). -/
theorem signalOk_of_validProfile {rd : Nat → Byte} (h : validProfile rd = true) {n : Nat} (hn : n < 256) :
    signalOk rd n = true := by
  simp only [validProfile, Bool.and_eq_true] at h
  obtain ⟨⟨⟨⟨⟨⟨-, hsignals⟩, -⟩, -⟩, -⟩, -⟩, -⟩ := h
  exact List.all_eq_true.mp hsignals n (List.mem_range.mpr hn)

end Sys2Proof.Machine

open Sys2Proof Sys2Proof.Machine

/-- Settles O19: the bits of the data, the two readings of a field, and the extent that the validation refuses. -/
theorem lineSignalField : Obligations.LineSignalField := by
  refine ⟨fun bytes b k _ hb hk => ?_, fun data start length h1 h2 _ => ⟨lineField_unsigned .., lineField_signed data start h1 h2⟩,
    fun rd n hn hkind hext => ?_⟩
  · rw [packData_eq, BitVec.getLsbD_ofNat, testBit_bytesNat bytes b hk, decide_eq_true (by omega), Bool.true_and]
  · refine Bool.eq_false_iff.mpr fun hv => ?_
    have := signalOk_of_validProfile hv hn
    rw [signalOk_extent hkind hext] at this
    exact Bool.noConfusion this

end

section
/-! Breaks, gap and silence expiries, and a line that becomes BROKEN and returns, with the reports that they give (02, R31, R32, R40,
R42, R43; 08, R148). -/

namespace Sys2Proof.Machine

/-! ## The present set after a report (R148) -/

@[simp] theorem queueFor_present (fm : FaultMemory) (i : Fin 32) (k : FaultKind) : (fm.queueFor i k).present = fm.present := by
  unfold FaultMemory.queueFor
  split
  · rfl
  · exact (queue_keeps fm i).1

/-- The present set after an appearance: a code that stands in it, or finds no room, adds nothing. -/
theorem appear_present (s : State) (c : FaultCode) :
    (s.appear c).fm.present =
      if c ∈ s.fm.present ∨ Config.presentMax ≤ s.fm.present.length then s.fm.present else s.fm.present ++ [c] := by
  unfold State.appear
  by_cases hc : s.fm.present.contains c = true
  · rw [if_pos hc, if_pos (.inl (by simpa using hc))]
  · rw [if_neg hc]
    by_cases hl : Config.presentMax ≤ s.fm.present.length
    · rw [if_pos hl, if_pos (.inr hl), commitFaults_fm]
    · rw [if_neg hl, if_neg (not_or.mpr ⟨by simpa using hc, hl⟩)]
      dsimp only
      split
      · split
        · rfl
        · split
          · rw [commitFaults_fm, queueFor_present]
            rfl
          · rfl
      · rw [commitFaults_fm, create_present]

/-- A code appears in a present set that has room for it. -/
theorem mem_appear {s : State} {c : FaultCode} (h : s.fm.present.length < Config.presentMax) :
    c ∈ (s.appear c).fm.present := by
  rw [appear_present]
  split
  · next hc => exact hc.resolve_right (by omega)
  · simp

/-- An appearance adds no code but its own. -/
theorem not_mem_appear {s : State} {c d : FaultCode} (hd : d ≠ c) (h : d ∉ s.fm.present) : d ∉ (s.appear c).fm.present := by
  rw [appear_present]
  split
  · exact h
  · simp [h, hd]

/-- A disappearance takes the code out of the present set and leaves every other. -/
theorem disappear_present (s : State) (c : FaultCode) :
    (s.disappear c).fm.present = s.fm.present.filter (fun x => x ≠ c) := by
  unfold State.disappear
  split
  · dsimp only
    split
    · rfl
    · split
      · rfl
      · split
        · rw [commitFaults_fm]
          rfl
        · rw [commitFaults_fm, queueFor_present]
          rfl
        · rfl
  · next hc =>
    refine (List.filter_eq_self.mpr fun x hx => ?_).symm
    exact decide_eq_true fun e => hc (by simpa [e] using hx)

/-- A change of codes reports the new one. -/
theorem reportChange_reported {s : State} {old : Option FaultCode} {c : FaultCode} (h : old ≠ some c) :
    Reported s (s.reportChange old (some c)) c := by
  intro hl
  unfold State.reportChange
  rw [if_neg h]
  cases old with
  | none => exact mem_appear hl
  | some d =>
    refine mem_appear (Nat.lt_of_le_of_lt ?_ hl)
    rw [disappear_present]
    exact List.length_filter_le ..

/-- A change of codes withdraws the old one. -/
theorem reportChange_withdrawn {s : State} {c : FaultCode} {new : Option FaultCode} (h : new ≠ some c) :
    c ∉ (s.reportChange (some c) new).fm.present := by
  have hgone : c ∉ (s.disappear c).fm.present := by simp [disappear_present]
  unfold State.reportChange
  rw [if_neg (Ne.symm h)]
  cases new with
  | none => exact hgone
  | some d => exact not_mem_appear (fun e => h (e ▸ rfl)) hgone

/-! ## The reports of a line (R43) -/

section

variable {s : State} {l : Line} {x : LineRx}

/-- The frame of a line's event that replaces one line, its reports included. -/
theorem commitLine_put_frame (s : State) (l : Line) (x : LineRx) :
    KeepsBut (.lines :: Part.faults) s (s.commitLine (s.rx.put l x) l []) := by
  have hrx := commitLine_rx s (s.rx.put l x) l []
  refine ((((commitLine_evolves s (s.rx.put l x) l []).keeps.mono
    (k := .slots :: .shared :: .lines :: Part.faults) (by decide)).drop ?_).drop ?_)
  · exact (congrArg LineUnit.slots hrx :)
  · exact ⟨(congrArg LineUnit.owner hrx :), (congrArg LineUnit.collision hrx :), (congrArg LineUnit.firstChar hrx :)⟩

/-- The present set when a line's images have been offered and its reports are due. -/
theorem offerChanged_present (old s : State) (offs : List Nat) : (State.offerChanged old s offs).fm.present = s.fm.present :=
  (offerChanged_evolves old s offs).keeps .present (by decide)

theorem commitLine_put_eq (s : State) (l : Line) (x : LineRx) :
    s.commitLine (s.rx.put l x) l [] =
      (s.offerChanged (s.setRx (s.rx.put l x)) (lineOffsets l.toFin)).reportChange (lineCode l.toFin (s.line l).state)
        (lineCode l.toFin x.state) := by
  unfold State.commitLine
  rw [put_lines, Table.get_set_self]
  rfl

/-- A line that comes to a reported state reports it. -/
theorem commitLine_reports {c : FaultCode} (hnew : lineCode l.toFin x.state = some c)
    (hold : lineCode l.toFin (s.line l).state ≠ some c) : Reported s (s.commitLine (s.rx.put l x) l []) c := by
  intro hl
  rw [commitLine_put_eq, hnew]
  refine reportChange_reported hold ?_
  rw [offerChanged_present]
  exact hl

/-- A line that leaves a reported state withdraws the report. -/
theorem commitLine_withdraws {c : FaultCode} (hold : lineCode l.toFin (s.line l).state = some c)
    (hnew : lineCode l.toFin x.state ≠ some c) : c ∉ (s.commitLine (s.rx.put l x) l []).fm.present := by
  rw [commitLine_put_eq, hold]
  exact reportChange_withdrawn hnew

/-- The controller's work changes no more of the fault memory than its write queue. -/
@[simp] theorem takeWork_present (s : State) : s.takeWork.fm.present = s.fm.present := by
  obtain ⟨q, c, h⟩ := takeWork_eq s
  rw [h]
  rfl

/-- A command that replaces one line, with its reports and the controller's work after it. -/
theorem gives_line {i : Instr} {P : State → Prop} (he : exec i s = .next (s.commitLine (s.rx.put l x) l []).takeWork)
    (hP : s.LineIs (s.commitLine (s.rx.put l x) l []).takeWork l x → P (s.commitLine (s.rx.put l x) l []).takeWork) :
    Gives i s (.lines :: Part.faults ++ Part.work) P :=
  gives_work he (commitLine_put_frame s l x) (hP (lineIs_of_lines (by rw [takeWork_rx, commitLine_rx, put_lines])))

end

/-- Only SILENT is reported as LINE_SILENT. -/
theorem lineCode_silent_iff (l : Fin 3) (x : LineState) :
    lineCode l x = some { kind := .lineSilent, subject := BitVec.ofNat 8 l.val } ↔ x = .silent := by
  cases x <;> simp [lineCode]

/-- Only BROKEN is reported as LINE_BREAK. -/
theorem lineCode_broken_iff (l : Fin 3) (x : LineState) :
    lineCode l x = some { kind := .lineBreak, subject := BitVec.ofNat 8 l.val } ↔ x = .broken := by
  cases x <;> simp [lineCode]

theorem state_broken_iff (x : LineRx) : x.state = .broken ↔ x.broken = true := by
  unfold LineRx.state
  split_ifs with hb <;> simp [hb]

theorem state_silent_iff (x : LineRx) : x.state = .silent ↔ x.broken = false ∧ x.silentMark = true := by
  unfold LineRx.state
  split_ifs <;> simp [*]

/-! ## The commands (R31, R32, R40, R42) -/

theorem exec_breakEvent {s : State} {l : Line} (hr : s.running) (ht : s.lineTakes l = true) :
    exec (.breakEvent l) s = .next (s.takeBreak l) := by
  simp only [exec, execBreakEvent, live_running hr, ht, if_true]

/-- A line whose break has been counted (R26). -/
def LineRx.broke (x : LineRx) : LineRx :=
  { x with inChar := false, counts := { x.counts with breaks := satInc x.counts.breaks } }

theorem takeBreak_eq (s : State) (l : Line) :
    s.takeBreak l = s.commitLine ((s.rx.put l (if (s.line l).receive.inFrame then (s.line l).broke.discard .brk
      else (s.line l).broke.enter .hunt)).release l) l [] := rfl

theorem exec_gapExpiry {s : State} {l : Line} {e : Nat} (hr : s.running) (hl : s.linesRun = true)
    (hf : (s.line l).receive.inFrame = true) (hg : (s.line l).gap = some e) (he : (s.profile.lines.get l.toFin).gap < e) :
    exec (.gapExpiry l) s = .next (s.takeGap l) := by
  unfold State.line at hf hg
  have hdue : s.due (.gapExpiry l) = true := by simp [hl, hf, hg, passed, he]
  simp only [exec, execGapExpiry, live_running hr, hdue, if_true]

theorem exec_silenceExpiry {s : State} {l : Line} {e : Nat} (hr : s.running) (hl : s.linesRun = true)
    (hs : (s.line l).silence = some e) (he : silenceEnd (s.profile.lines.get l.toFin) ≤ e) :
    exec (.silenceExpiry l) s = .next (s.takeSilence l).takeWork := by
  unfold State.line at hs
  have hdue : s.due (.silenceExpiry l) = true := by simp [hl, hs, reached, he]
  simp only [exec, execSilenceExpiry, live_running hr, hdue, if_true]

section

variable {s : State} {l : Line}

theorem exec_brokenEvent (hr : s.running) (hl : s.linesRun = true) (hb : (s.line l).broken = false) :
    exec (.brokenEvent l) s = .next (s.setBroken l true).takeWork := by
  unfold State.line at hb
  simp [exec, execBrokenEvent, live_running hr, hl, hb]

theorem exec_returnEvent (hr : s.running) (hl : s.linesRun = true) (hb : (s.line l).broken = true) :
    exec (.returnEvent l) s = .next (s.setBroken l false).takeWork := by
  unfold State.line at hb
  simp [exec, execReturnEvent, live_running hr, hl, hb]

/-- A BROKEN line takes nothing (log entry 3). -/
theorem lineTakes_broken (hb : (s.line l).broken = true) : s.lineTakes l = false := by
  unfold State.line at hb
  simp [State.lineTakes, hb]

/-- An edge that no line takes is at most a wake event, and there is none outside PARKED (R47, R184). -/
theorem startEdge_untaken (hr : s.running) (hl : s.linesRun = true) (ht : s.lineTakes l = false) :
    Gives (.startEdge l) s Part.work (fun _ => True) := by
  have hm : s.mode.mode ≠ .parked := by
    simp only [State.linesRun, Bool.and_eq_true, decide_eq_true_eq] at hl
    exact hl.2
  refine ⟨_, rfl, ?_, trivial⟩
  rw [live_running hr, ht, wake_awake _ _ hm]
  simp only [Bool.false_eq_true, if_false]
  split
  · exact (takeWork_evolves s).keeps
  · exact .refl

end

end Sys2Proof.Machine

open Sys2Proof Sys2Proof.Machine

/-- Settles O20: the break in and outside a frame, then the two expiries that have come. -/
theorem breaksGapsAndSilence : Obligations.BreaksGapsAndSilence := by
  refine ⟨fun l s hr ht => ⟨fun hf => ?_, fun hf => ?_⟩,
    fun l e s hr hl => ⟨fun hf hg he => ⟨_, exec_gapExpiry hr hl hf hg he, commitLine_release rfl⟩, fun hs he => ?_⟩⟩
  · refine ⟨_, exec_breakEvent hr ht, ?_⟩
    rw [takeBreak_eq, if_pos hf]
    exact commitLine_release rfl
  · refine ⟨_, exec_breakEvent hr ht, ?_⟩
    rw [takeBreak_eq, if_neg (by simp [hf])]
    exact commitLine_release rfl
  · refine gives_line (exec_silenceExpiry hr hl hs he) fun hline => ⟨hline, ?_, fun hb hm => ?_⟩
    · rw [hline.1]
      rfl
    · unfold Reported
      rw [takeWork_present]
      refine commitLine_reports ((lineCode_silent_iff _ _).mpr ((state_silent_iff _).mpr ⟨hb, rfl⟩)) fun h => ?_
      rw [lineCode_silent_iff, state_silent_iff, hm] at h
      exact Bool.noConfusion h.2

/-- Settles O21: the line BROKEN, its return, and what a BROKEN line does not take. -/
theorem brokenAndReturn : Obligations.BrokenAndReturn := by
  intro l s hr hl
  refine ⟨fun hb => ?_, fun hb => ?_⟩
  · refine gives_line (exec_brokenEvent hr hl hb) fun hline => ⟨hline, ?_, ?_⟩
    · rw [hline.1]
      rfl
    · unfold Reported
      rw [takeWork_present]
      refine commitLine_reports ((lineCode_broken_iff _ _).mpr rfl) fun h => ?_
      rw [lineCode_broken_iff, state_broken_iff, hb] at h
      exact Bool.noConfusion h
  · have ht := lineTakes_broken hb
    refine ⟨gives_line (exec_returnEvent hr hl hb) fun hline => ⟨hline, ?_, ?_⟩, startEdge_untaken hr hl ht,
      fun c => ?_, fun x => ?_, ?_⟩
    · rw [hline.1]
      rfl
    · rw [takeWork_present]
      refine commitLine_withdraws ((lineCode_broken_iff _ _).mpr ((state_broken_iff _).mpr hb)) fun h => ?_
      rw [lineCode_broken_iff, state_broken_iff] at h
      exact Bool.noConfusion h
    · simp [exec, execCharacterComplete, live_running hr, ht]
    · simp [exec, execStartBitSample, live_running hr, ht]
    · simp [exec, execBreakEvent, live_running hr, ht]

end

section
/-! A command written to the command cell: taken with its word on the way to SRAM, then DONE or IN_PROGRESS (06, R129, R130). -/

namespace Sys2Proof.Machine

/-! ## The command taken -/

/-- A command taken while none is busy: its word forwarded, its code the busy one; it has not begun yet (R130). -/
def State.commandTaken (s : State) (upper : BitVec 24) (code : Byte) : State :=
  let t := s.forwardWord offCommand (commandWord upper code)
  t.setPath { t.path with command := some code }

theorem commandWord_code (upper : BitVec 24) (code : Byte) : (commandWord upper code).setWidth 8 = code :=
  BitVec.setWidth_append_eq_right

/-- The device runs, its P-port takes the next access, and no command is busy. -/
abbrev State.commandIdle (s : State) : Prop := s.running ∧ s.portFree = true ∧ s.path.command = none

/-- A full write to the command cell takes the command that its code names. -/
theorem live_command {s : State} (h : s.commandIdle) (upper : BitVec 24) (code : Byte) :
    (s.live fun t => t.hostWriteAt offCommand (commandWord upper code) 0xF) =
      (s.commandTaken upper code).beginCommand code := by
  obtain ⟨hr, hp, hc⟩ := h
  have hcode := commandWord_code upper code
  rw [live_running hr]
  unfold State.hostWriteAt
  rw [if_pos hp]
  show s.writeCommand (commandWord upper code) = _
  unfold State.writeCommand
  rw [hc]
  simp only [hcode]
  rfl

theorem commandTaken_eq (s : State) (upper : BitVec 24) (code : Byte) :
    ∃ m p, s.commandTaken upper code = (s.setSram m).setPath p := by
  unfold State.commandTaken State.forwardWord State.forward
  split
  · exact ⟨_, _, rfl⟩
  · exact ⟨s.sram, _, rfl⟩

theorem commandTaken_keeps (s : State) (upper : BitVec 24) (code : Byte) :
    KeepsBut [.command, .sram, .held] s (s.commandTaken upper code) :=
  ((forwardWord_evolves s _ _).keeps.mono (by decide)).trans ((setCommand_evolves _ _).keeps.mono (by decide))

theorem commandTaken_forwards {s : State} (hs : Memory.wf Config.sramErased s.sram = true) (upper : BitVec 24) (code : Byte) :
    Forwards s s (s.commandTaken upper code) (s.windowAddr 0x0690) (upper ++ code) 0xF :=
  forwardWrite_forwards hs (s.windowAddr 0x0690) (commandWord upper code) 0xF

/-- A forwarded write stays as it was taken while SRAM and the P-port do. -/
theorem Forwards.of_keeps {g s t u : State} {a : Nat} {w : Word} {lanes : BitVec 4} {l : List Part}
    (h : Forwards g s t a w lanes) (k : KeepsBut l t u) (hl : ∀ p ∈ [Part.sram, .held], p ∉ l) : Forwards g s u a w lanes := by
  have hsram : u.sram = t.sram := k .sram (hl _ (by decide))
  have hheld : u.path.held = t.path.held := k .held (hl _ (by decide))
  unfold Forwards at *
  rw [hsram, hheld]
  exact h

@[simp] theorem commandTaken_mode (s : State) (upper : BitVec 24) (code : Byte) : (s.commandTaken upper code).mode = s.mode := by
  obtain ⟨m, p, h⟩ := commandTaken_eq s upper code
  rw [h]
  rfl

@[simp] theorem commandTaken_fm (s : State) (upper : BitVec 24) (code : Byte) : (s.commandTaken upper code).fm = s.fm := by
  obtain ⟨m, p, h⟩ := commandTaken_eq s upper code
  rw [h]
  rfl

@[simp] theorem commandTaken_svc (s : State) (upper : BitVec 24) (code : Byte) : (s.commandTaken upper code).svc = s.svc := by
  obtain ⟨m, p, h⟩ := commandTaken_eq s upper code
  rw [h]
  rfl

@[simp] theorem commandTaken_rx (s : State) (upper : BitVec 24) (code : Byte) : (s.commandTaken upper code).rx = s.rx := by
  obtain ⟨m, p, h⟩ := commandTaken_eq s upper code
  rw [h]
  rfl

theorem commandTaken_ignition (s : State) (upper : BitVec 24) (code : Byte) :
    (s.commandTaken upper code).goodNonzero (s.commandTaken upper code).profile.ignition = s.goodNonzero s.profile.ignition := by
  obtain ⟨m, p, h⟩ := commandTaken_eq s upper code
  rw [h]
  rfl

/-! ## A command that ends, and one that goes on (R130) -/

theorem finishCommand_path (s : State) (v : ResultValue) (r : Reason) :
    (s.finishCommand v r).path.command = none ∧
      (s.finishCommand v r).path.result = { value := v, code := s.path.command.getD 0, reason := r } ∧
      (s.finishCommand v r).causePending .command := by
  obtain ⟨-, -, -, -, -, -, hcommand, hresult, -⟩ := offer_keeps
    { s.path with command := none, result := { value := v, code := s.path.command.getD 0, reason := r } } offResult
    (State.imageWord (s.setPath
      { s.path with command := none, result := { value := v, code := s.path.command.getD 0, reason := r } }) offResult)
  exact ⟨hcommand, hresult, setCause_pending _ _⟩

theorem inProgress_path (s : State) :
    s.inProgress.path.command = s.path.command ∧
      s.inProgress.path.result = { value := .inProgress, code := s.path.command.getD 0, reason := .none } := by
  obtain ⟨-, -, -, -, -, -, hcommand, hresult, -⟩ := offer_keeps
    { s.path with result := { value := .inProgress, code := s.path.command.getD 0 } } offResult
    (State.imageWord (s.setPath { s.path with result := { value := .inProgress, code := s.path.command.getD 0 } }) offResult)
  exact ⟨hcommand, hresult⟩

/-- Command and result as `t` leaves them, and the command's word on its way to SRAM. -/
structure CommandStands (s t : State) (upper : BitVec 24) (code : Byte) (busy : Option Byte) (v : ResultValue) : Prop where
  command : t.path.command = busy
  result : t.path.result = { value := v, code := code, reason := .none }
  word : Forwards s s t (s.windowAddr 0x0690) (upper ++ code) 0xF

/-- What the command's own work leaves of it. -/
theorem CommandStands.of_keeps {s t u : State} {upper : BitVec 24} {code : Byte} {busy : Option Byte} {v : ResultValue}
    {l : List Part} (h : CommandStands s t upper code busy v) (k : KeepsBut l t u)
    (hl : ∀ p ∈ [Part.command, .result, .sram, .held], p ∉ l) : CommandStands s u upper code busy v :=
  ⟨(k .command (hl _ (by decide)) : u.path.command = _).trans h.command,
    (k .result (hl _ (by decide)) : u.path.result = _).trans h.result,
    h.word.of_keeps k fun p hp => hl p ((show [Part.sram, .held] ⊆ [Part.command, .result, .sram, .held] by decide) hp)⟩

section

variable {s : State} {upper : BitVec 24} {code : Byte}

/-- A command that is DONE: its work, from `commandTaken` to `u`, leaves command, SRAM and P-port alone. -/
theorem complete_stands (hs : Memory.wf Config.sramErased s.sram = true) {u : State} {l : List Part}
    (k : KeepsBut l (s.commandTaken upper code) u) (hl : ∀ p ∈ [Part.command, .sram, .held], p ∉ l) :
    CommandStands s u.complete upper code none .done ∧ u.complete.causePending .command := by
  obtain ⟨hcommand, hresult, hcause⟩ := finishCommand_path u .done .none
  have hbusy : u.path.command = some code := (k .command (hl _ (by decide)) : u.path.command = _)
  rw [hbusy] at hresult
  have hword := (commandTaken_forwards hs upper code).of_keeps k fun p hp => hl p (List.mem_cons_of_mem _ hp)
  exact ⟨⟨hcommand, hresult, hword.of_keeps (complete_evolves u).keeps (by decide)⟩, hcause⟩

/-- A command that goes on. -/
theorem inProgress_stands (hs : Memory.wf Config.sramErased s.sram = true) :
    CommandStands s (s.commandTaken upper code).inProgress upper code (some code) .inProgress := by
  obtain ⟨hcommand, hresult⟩ := inProgress_path (s.commandTaken upper code)
  exact ⟨hcommand, hresult, (commandTaken_forwards hs upper code).of_keeps (inProgress_evolves _).keeps (by decide)⟩

/-- The frame of a command that is DONE: that of its work, the command's own parts and the word's. -/
theorem complete_keeps {u : State} {l L : List Part} (k : KeepsBut l (s.commandTaken upper code) u)
    (hL : ∀ p ∈ .command :: .result :: .sram :: .held :: Part.images ++ l, p ∈ L) : KeepsBut L s u.complete := by
  have hown : ∀ p ∈ .command :: .result :: .sram :: .held :: Part.images, p ∈ L := fun p hp => hL p (List.mem_append_left _ hp)
  have htaken := (commandTaken_keeps s upper code).mono (k := .command :: .result :: .sram :: .held :: Part.images) (by decide)
  have hdone := (complete_evolves u).keeps.mono (k := .command :: .result :: .sram :: .held :: Part.images) (by decide)
  exact ((htaken.mono hown).trans (k.mono fun p hp => hL p (List.mem_append_right _ hp))).trans (hdone.mono hown)

/-- The frame of a command that goes on: that of its work, the command's own parts and the word's. -/
theorem inProgress_keeps {u : State} {l L : List Part} (k : KeepsBut l (s.commandTaken upper code).inProgress u)
    (hL : ∀ p ∈ .command :: .result :: .sram :: .held :: Part.images ++ l, p ∈ L) : KeepsBut L s u := by
  have hown : ∀ p ∈ .command :: .result :: .sram :: .held :: Part.images, p ∈ L := fun p hp => hL p (List.mem_append_left _ hp)
  have htaken := (commandTaken_keeps s upper code).mono (k := .command :: .result :: .sram :: .held :: Part.images) (by decide)
  have hresult := (inProgress_evolves (s.commandTaken upper code)).keeps.mono
    (k := .command :: .result :: .sram :: .held :: Part.images) (by decide)
  exact ((htaken.trans hresult).mono hown).trans (k.mono fun p hp => hL p (List.mem_append_right _ hp))

/-- A command that goes on has replaced the memory path and SRAM alone. -/
theorem inProgress_eq (s : State) (upper : BitVec 24) (code : Byte) :
    ∃ m p, (s.commandTaken upper code).inProgress = (s.setSram m).setPath p := by
  obtain ⟨m, p, h⟩ := commandTaken_eq s upper code
  rw [h]
  exact ⟨m, _, rfl⟩

end

/-! ## The commands that complete at once (R45, R180, R190) -/

theorem commandsShut_eq_false {s : State} (h : s.mode.mode = .run ∨ s.mode.mode = .parking) : s.commandsShut = false := by
  rcases h with h | h <;> simp [State.commandsShut, h]

/-- The reset cause set emptied, the status cell's image offered. -/
def State.causesCleared (s : State) : State := s.offerStatus (s.setMode { s.mode with causes := {} })

theorem causesCleared_keeps (s : State) : KeepsBut (.causes :: Part.images) s s.causesCleared :=
  ((clearCauses_evolves s).keeps.mono (by decide)).trans ((offerStatus_evolves s _).keeps.mono (by decide))

theorem causesCleared_causes (s : State) : s.causesCleared.mode.causes = {} :=
  (offerStatus_evolves s (s.setMode { s.mode with causes := {} })).keeps .causes (by decide)

theorem exec_clearCauses {s : State} (h : s.commandIdle) (hm : s.mode.mode = .run ∨ s.mode.mode = .parking)
    (upper : BitVec 24) : exec (.clearCauses upper) s = .next (s.commandTaken upper 4).causesCleared.complete := by
  refine congrArg Host.Outcome.next ((live_command h upper 4).trans (?_ : State.beginClearCauses _ = _))
  unfold State.beginClearCauses
  rw [commandsShut_eq_false (by simpa using hm)]
  rfl

theorem exec_clearStats {s : State} (h : s.commandIdle) (hm : s.mode.mode = .run ∨ s.mode.mode = .parking)
    (upper : BitVec 24) : exec (.clearStats upper) s = .next (s.commandTaken upper 5).clearStats.complete := by
  refine congrArg Host.Outcome.next ((live_command h upper 5).trans (?_ : State.beginClearStats _ = _))
  unfold State.beginClearStats
  rw [commandsShut_eq_false (by simpa using hm)]
  rfl

/-- Every count and every arrival count is 0, and the rest of the lines and slots is as it was (R45). -/
theorem clearStats_rx (s : State) :
    (∀ l, s.clearStats.rx.lines.get l = { s.rx.lines.get l with counts := {} }) ∧
      ∀ i, s.clearStats.rx.slots.get i = { s.rx.slots.get i with arrivals := 0 } := by
  unfold State.clearStats
  rw [rx_of_keeps (offerChanged_evolves s _ _).keeps (by decide)]
  exact ⟨fun l => Table.get_map .., fun i => Table.get_map ..⟩

theorem exec_parkNow {s : State} (h : s.commandIdle) (hm : s.mode.mode = .run)
    (hi : s.goodNonzero s.profile.ignition = false) (upper : BitVec 24) :
    exec (.parkNow upper) s = .next (s.commandTaken upper 6).enterParking.complete.takeWork := by
  refine congrArg Host.Outcome.next ((live_command h upper 6).trans (?_ : State.beginPark _ = _))
  exact if_pos ⟨by rw [commandTaken_mode, hm], by rw [commandTaken_ignition, hi]⟩

/-! ## The commands that go on (R160, R192, R193) -/

theorem exec_clearFaultsCommand {s : State} (h : s.commandIdle) (hm : s.mode.mode = .run ∨ s.mode.mode = .parking)
    (hl : s.svc.level = true) (hc : s.fm.clearing = false) (upper : BitVec 24) :
    exec (.clearFaultsCommand upper) s =
      .next ((s.commandTaken upper 1).inProgress.takeClear .command).takeWork := by
  refine congrArg Host.Outcome.next ((live_command h upper 1).trans (?_ : State.beginClearFaults _ = _))
  unfold State.beginClearFaults
  rw [commandsShut_eq_false (by simpa using hm), commandTaken_svc, hl, commandTaken_fm, hc]
  rfl

/-- A clear is judged by the fault memory, the profile and the live state, whatever the memory path and SRAM hold. -/
theorem ClearTaken.of_path {s t : State} {m : List Host.Cell} {p : MemoryPath} (h : ClearTaken ((s.setSram m).setPath p) t) :
    ClearTaken s t :=
  ⟨h.clearing, h.outstanding, h.present, h.pending, h.confirmed, h.overflow, h.full⟩

/-- The controller's work after a clear takes a slot of the write queue at most. -/
theorem ClearTaken.takeWork {s t : State} (h : ClearTaken s t) : ClearTaken s t.takeWork := by
  obtain ⟨q, c, e⟩ := takeWork_eq t
  rw [e]
  exact ⟨h.clearing, h.outstanding, h.present, h.pending, h.confirmed, h.overflow, h.full⟩

theorem takeWork_requester (s : State) : s.takeWork.fm.requester = s.fm.requester := by
  obtain ⟨q, c, e⟩ := takeWork_eq s
  rw [e]
  rfl

/-- A free controller with no store waiting reads for a RESTART that waits (R187). -/
theorem takeWork_restart {s : State} (h : s.ctrl.operation = .none) (hl : s.fm.loaded = true) (hs : s.ctrl.store = .none)
    (hw : s.ctrl.restartWaiting = true) :
    s.takeWork = s.setCtrl { s.ctrl with operation := .restartRead, restartWaiting := false } := by
  have hnext : s.nextWork = s.setCtrl { s.ctrl with operation := .restartRead, restartWaiting := false } := by
    rw [nextWork_ranked ⟨h, hl⟩ (by simp [hs])]
    exact if_pos hw
  unfold State.takeWork
  rw [hnext]
  exact serveReader_other (by simp)

/-- A command that waits for a RESTART's read. -/
def State.restartAsked (s : State) : State := s.setCtrl { s.ctrl with restartWaiting := true }

theorem exec_restart {s : State} (h : s.commandIdle) (hm : s.mode.mode = .run) (upper : BitVec 24) :
    exec (.restart upper) s = .next (s.commandTaken upper 3).inProgress.restartAsked.takeWork := by
  refine congrArg Host.Outcome.next ((live_command h upper 3).trans (?_ : State.beginReload _ = _))
  exact if_pos (by rw [commandTaken_mode, hm])

/-- The validation of the staging image begun (R192). -/
def State.storeBegun (s : State) : State := s.setCtrl { s.ctrl with store := .validating }

theorem exec_profileStore {s : State} (h : s.commandIdle) (hm : s.mode.mode = .run) (upper : BitVec 24) :
    exec (.profileStore upper) s = .next (s.commandTaken upper 2).inProgress.storeBegun := by
  refine congrArg Host.Outcome.next ((live_command h upper 2).trans (?_ : State.beginStore _ = _))
  exact if_pos (by rw [commandTaken_mode, hm])

/-- The controller and the fault memory that a RESTART asks for its read. -/
theorem restartAsked_blocks (s : State) (upper : BitVec 24) (code : Byte) :
    (s.commandTaken upper code).inProgress.restartAsked.ctrl = { s.ctrl with restartWaiting := true } ∧
      (s.commandTaken upper code).inProgress.restartAsked.fm = s.fm := by
  obtain ⟨m, p, h⟩ := inProgress_eq s upper code
  rw [h]
  exact ⟨rfl, rfl⟩

end Sys2Proof.Machine

open Sys2Proof Sys2Proof.Machine

/-- Settles O42: the three commands that are DONE when taken, then the three that go on. -/
theorem commandsTaken : Obligations.CommandsTaken := by
  refine ⟨fun upper s hr hp hc hs => ⟨fun hm => ?_, fun hm => ?_, fun hm hi => ?_⟩,
    fun upper s hr hp hc hs => ⟨fun hm hl hf => ?_, fun hm => ?_, fun hm => ?_⟩⟩
  · have hwork := causesCleared_keeps (s.commandTaken upper 4)
    obtain ⟨stands, cause⟩ := complete_stands hs hwork (by decide)
    refine ⟨_, exec_clearCauses ⟨hr, hp, hc⟩ hm upper, complete_keeps hwork (by decide), ?_, stands.command, stands.result,
      cause, stands.word⟩
    exact ((complete_evolves _).keeps .causes (by decide)).trans (causesCleared_causes _)
  · have hwork := (clearStats_evolves (s.commandTaken upper 5)).keeps
    obtain ⟨stands, cause⟩ := complete_stands hs hwork (by decide)
    obtain ⟨hlines, hslots⟩ := clearStats_rx (s.commandTaken upper 5)
    rw [← rx_of_keeps (complete_evolves _).keeps (by decide), commandTaken_rx] at hlines hslots
    exact ⟨_, exec_clearStats ⟨hr, hp, hc⟩ hm upper, complete_keeps hwork (by decide), hlines, hslots, stands.command,
      stands.result, cause, stands.word⟩
  · have hwork := (enterParking_evolves (s.commandTaken upper 6)).keeps
    obtain ⟨stands, cause⟩ := complete_stands hs hwork (by decide)
    have stands := stands.of_keeps (takeWork_evolves _).keeps (by decide)
    refine gives_work (exec_parkNow ⟨hr, hp, hc⟩ hm hi upper) (complete_keeps hwork (by decide))
      ⟨?_, stands.command, stands.result, ?_, stands.word⟩
    · rw [takeWork_mode]
      exact ((complete_evolves _).keeps .opMode (by decide)).trans (enterParking_mode _)
    · unfold State.causePending
      rw [takeWork_path]
      exact cause
  · obtain ⟨m, p, he⟩ := inProgress_eq s upper 1
    obtain ⟨taken, requester⟩ := takeClear_taken (s.commandTaken upper 1).inProgress .command
    have hwork := ((takeClear_evolves (s.commandTaken upper 1).inProgress .command).keeps.mono
      (k := .operation :: .clear :: Part.faults ++ Part.work) (by decide)).trans ((takeWork_evolves _).keeps.mono (by decide))
    have stands := (inProgress_stands (upper := upper) (code := 1) hs).of_keeps hwork (by decide)
    refine ⟨_, exec_clearFaultsCommand ⟨hr, hp, hc⟩ hm hl hf upper, inProgress_keeps hwork (by decide), stands.command,
      stands.result, ?_, (takeWork_requester _).trans requester, stands.word⟩
    rw [he] at taken ⊢
    exact taken.of_path.takeWork
  · have hwork := (setStore_evolves (s.commandTaken upper 2).inProgress .validating).keeps
    have stands := (inProgress_stands (upper := upper) (code := 2) hs).of_keeps hwork (by decide)
    exact ⟨_, exec_profileStore ⟨hr, hp, hc⟩ hm upper, inProgress_keeps hwork (by decide), stands.command, stands.result, rfl,
      stands.word⟩
  · have hwork := ((setRestartWaiting_evolves (s.commandTaken upper 3).inProgress).keeps.mono (k := Part.work)
      (by decide)).trans (takeWork_evolves (s.commandTaken upper 3).inProgress.restartAsked).keeps
    have stands := (inProgress_stands (upper := upper) (code := 3) hs).of_keeps hwork (by decide)
    obtain ⟨hctrl, hfm⟩ := restartAsked_blocks s upper 3
    refine ⟨_, exec_restart ⟨hr, hp, hc⟩ hm upper, inProgress_keeps hwork (by decide), stands.command, stands.result,
      fun hop hload hst => ?_, fun hop hread => ?_, stands.word⟩
    · rw [takeWork_restart (by rw [hctrl, hop]) (by rw [hfm, hload]) (by rw [hctrl, hst]) (by rw [hctrl])]
      exact ⟨rfl, rfl⟩
    · rw [takeWork_busy (by rw [hctrl]; exact hop) (by rw [hctrl]; exact hread), hctrl]
      exact ⟨rfl, rfl⟩

end

section
/-! Every command keeps the invariant, chapter by chapter, and so does every step. -/

namespace Sys2Proof.Machine

/-- A command completes, and from a state of the invariant it leaves one. -/
def KeepsInv (c : Instr) : Prop := ∀ s : State, s.Inv → ∃ t, exec c s = .next t ∧ t.Inv

namespace KeepsInv

variable {c : Instr} {f : State → State}

/-- An event that acts once the reset cause no longer lasts. -/
theorem of_live (e : ∀ s, exec c s = .next (s.live f)) (h : ∀ s, s.Inv → (f s).Inv) : KeepsInv c := fun s i => by
  refine ⟨_, e s, ?_⟩
  unfold State.live
  split
  · exact i
  · exact h s i

/-- An event that acts on a condition, an expiry that is due above all (log entry 2). -/
theorem of_when {p : State → Prop} [∀ s, Decidable (p s)] (e : ∀ s, exec c s = .next (s.live fun s => if p s then f s else s))
    (h : ∀ s, p s → s.Inv → (f s).Inv) : KeepsInv c := of_live e fun s i => by
  split
  · next hp => exact h s hp i
  · exact i

end KeepsInv

theorem takeWork_inv {s : State} (i : s.Inv) : s.takeWork.Inv := (takeWork_evolves s).inv i

theorem workAndFlush_inv {s : State} (i : s.Inv) : s.workAndFlush.Inv := (workAndFlush_evolves s).inv i

/-- A host write of a named word. -/
theorem hostWrite_keepsInv {c : Instr} {off : Nat} {w : Word} {lanes : BitVec 4}
    (e : ∀ s, exec c s = .next (s.live fun t => t.hostWriteAt off w lanes)) : KeepsInv c :=
  .of_live e fun s => (hostWriteAt_evolves s off w lanes).inv

/-- A named request of the service line. -/
theorem request_keepsInv {c : Instr} {r : Request} {g : Target} {b : Byte} {ps : List Byte}
    (e : ∀ s, exec c s = .next (s.live fun t => t.requestFrame r g b ps)) : KeepsInv c :=
  .of_live e fun s => (requestFrame_evolves s r g b ps).inv

/-! ## Resets and the START sequence (11) -/

theorem powerOnReset_keepsInv (straps : BitVec 2) : KeepsInv (.powerOnReset straps) := fun s i =>
  ⟨_, rfl, fullReset_inv s straps _ _ rfl i.cfg⟩

theorem supplyLowReset_keepsInv (straps : BitVec 2) : KeepsInv (.supplyLowReset straps) := fun s i =>
  ⟨_, rfl, fullReset_inv s straps _ _ i.sram i.cfg⟩

theorem pinReset_keepsInv (straps : BitVec 2) : KeepsInv (.pinReset straps) := fun s i =>
  ⟨_, rfl, fullReset_inv s straps _ _ i.sram i.cfg⟩

theorem endReset_inv {s : State} (i : s.Inv) : s.endReset.Inv := by
  unfold State.endReset
  split
  · exact ⟨i.path, i.warnings, i.doors, i.faults, i.sram, i.cfg⟩
  · exact i

theorem faultSlotsRead_keepsInv (answered : BitVec 32) : KeepsInv (.faultSlotsRead answered) :=
  .of_when (fun _ => rfl) fun s _ i => takeWork_inv ((takeForce_evolves _).inv ((loadSlots_evolves s answered).inv i))

/-! ## Body lines and doors (02, 03) -/

theorem wake_inv {s : State} (i : s.Inv) (k : WakeSet) : (s.wake k).Inv := (wake_evolves s k).inv i

theorem startEdge_keepsInv (l : Line) : KeepsInv (.startEdge l) := .of_live (fun _ => rfl) fun s i => by
  split
  · exact (startEdge_evolves s l).inv i
  split
  · exact takeWork_inv (wake_inv i _)
  · exact i

theorem characterComplete_keepsInv (l : Line) (x : CharSamples) : KeepsInv (.characterComplete l x) :=
  .of_when (fun _ => rfl) fun s _ i => takeWork_inv (by
    split
    · exact (falseStart_evolves s l).inv i
    · exact (character_evolves s l x).inv i)

theorem failDoor_inv {s : State} (i : s.Inv) (d : Fin 6) (x : DoorCause) : (s.failDoor d x).Inv :=
  takeWork_inv ((commitDoor_evolves s d _).inv i)

/-! ## Warnings (04) -/

/-- A warning whose off-delay timer runs is not present (R80). -/
theorem Warning.Inv.absent_of_offDelay {w : Warning} (h : w.Inv) {e : Nat} (ht : w.timer = some (.offDelay, e)) :
    w.present = false := by
  unfold Warning.Inv at h
  cases hs : w.state with
  | inactive => simp [hs, ht] at h
  | pending => simp [hs, ht, Warning.delaying] at h
  | activeUnack =>
    obtain ⟨-, idle, -⟩ := hs ▸ h
    exact Bool.eq_false_iff.2 fun hp => by simpa [ht] using idle hp
  | activeAck =>
    obtain ⟨-, idle, -⟩ := hs ▸ h
    exact Bool.eq_false_iff.2 fun hp => by simpa [ht] using idle hp

theorem offDelayExpiry_keepsInv (w : Fin 96) : KeepsInv (.offDelayExpiry w) :=
  .of_when (fun _ => rfl) fun s hd => (commitWarning_evolves s w _ fun i => by
    rw [due_offDelayExpiry, Bool.and_eq_true] at hd
    obtain ⟨e, ht, -⟩ := ranFor_iff.1 hd.2
    exact .offExpire _ (i.absent_of_offDelay ht)).inv

/-! ## Indication (05) -/

theorem setLamp_inv {s : State} (i : s.Inv) (k : Fin 48) (l : Lamp) : (s.setLamp k l).Inv :=
  ⟨i.path, i.warnings, i.doors, i.faults, i.sram, i.cfg⟩

theorem setChime_inv {s : State} (i : s.Inv) (c : Chime) : (s.setChime c).Inv := (setChime_evolves s c).inv i

theorem senseChange_inv {s : State} (i : s.Inv) (k : Fin 48) (b : Bool) : (s.senseChange k b).Inv := by
  unfold State.senseChange
  dsimp only
  split
  · exact i
  split <;> exact setLamp_inv i _ _

theorem openLoadExpiry_inv {s : State} (i : s.Inv) (k : Fin 48) : (s.openLoadExpiry k).Inv := by
  unfold State.openLoadExpiry
  dsimp only
  split
  · exact setLamp_inv i _ _
  · exact (appear_evolves _ _).inv (setLamp_inv i _ _)

theorem clearExpiry_inv {s : State} (i : s.Inv) (k : Fin 48) : (s.clearExpiry k).Inv := by
  unfold State.clearExpiry
  dsimp only
  split
  · exact (disappear_evolves _ _).inv (setLamp_inv i _ _)
  · exact setLamp_inv i _ _

theorem endBlinkPhase_inv {s : State} (i : s.Inv) : s.endBlinkPhase.Inv := by
  unfold State.endBlinkPhase
  split
  · exact i
  all_goals exact (withLamps_evolves _ _ _).inv i

theorem endTone_inv {s : State} (i : s.Inv) : s.endTone.Inv := by
  unfold State.endTone
  split
  case h_1 => exact (evalChime_evolves _).inv (setChime_inv i _)
  case h_2 => exact setChime_inv i _
  all_goals exact i

theorem endRepeatPeriod_inv {s : State} (i : s.Inv) : s.endRepeatPeriod.Inv := by
  unfold State.endRepeatPeriod
  split
  case h_1 => exact setChime_inv i _
  all_goals exact i

theorem endChimePhase_inv {s : State} (i : s.Inv) : s.endChimePhase.Inv := by
  unfold State.endChimePhase
  split
  case h_1 => exact i
  case h_4 => exact (endTest_evolves s _).inv i
  all_goals exact setChime_inv i _

theorem lampCheckExpiry_keepsInv : KeepsInv .lampCheckExpiry :=
  .of_when (fun _ => rfl) fun _ _ i => (evalAllLamps_evolves _).inv ((setLampCheck_evolves _ none).inv i)

theorem arrival_keepsInv (g : Fin 12) : KeepsInv (.arrival g) :=
  .of_when (fun _ => rfl) fun s _ i => (sweepCompletion_evolves _).inv ((takeArrival_evolves s g).inv i)

/-! ## The image window and host supervision (06, 07) -/

theorem capturedWriteGrant_keepsInv : KeepsInv .capturedWriteGrant :=
  .of_when (fun _ => rfl) fun s _ i => takeWork_inv ((grantHeld_evolves s).inv i)

theorem imageWriteComplete_keepsInv : KeepsInv .imageWriteComplete :=
  .of_when (fun _ => rfl) fun s _ i => workAndFlush_inv ((grantForwarded_evolves _).inv ((imageWritten_evolves s).inv i))

theorem enterLost_inv {s : State} (i : s.Inv) : s.enterLost.Inv := takeWork_inv ((commitSup_evolves s _).inv i)

theorem setSup_inv {s : State} (i : s.Inv) (u : Supervision) : (s.setSup u).Inv := (setSup_alone s u).inv i

/-! ## Fault memory and configuration memory (08, 11) -/

theorem faultSlotWriteComplete_keepsInv (o : PageOutcome) : KeepsInv (.faultSlotWriteComplete o) :=
  .of_live (fun _ => rfl) fun s i => by
    split
    case h_1 => exact workAndFlush_inv ((slotWriteDone_evolves s _ _ _ _ _).inv i)
    all_goals exact i

theorem countersWriteComplete_keepsInv (o : PageOutcome) : KeepsInv (.countersWriteComplete o) :=
  .of_live (fun _ => rfl) fun s i => by
    split
    case h_1 => exact workAndFlush_inv ((countersWriteDone_evolves s _ _ _).inv i)
    all_goals exact i

theorem profilePageWriteComplete_keepsInv (o : PageOutcome) : KeepsInv (.profilePageWriteComplete o) :=
  .of_live (fun _ => rfl) fun s i => by
    split
    case h_1 => exact workAndFlush_inv ((storeWriteDone_evolves s _ _ _ _ _ _).inv i)
    case h_2 => exact workAndFlush_inv ((abortStore_evolves _).inv ((writePage_evolves s _ _).inv i))
    all_goals exact i

/-! ## Every command -/

/-- The invariant is kept by the command, whichever row of the table it is: each arm cites what its chapter's operation can do. -/
theorem exec_keepsInv (c : Instr) : KeepsInv c := by
  cases c with
  | powerOnReset straps => exact powerOnReset_keepsInv straps
  | supplyLowReset straps => exact supplyLowReset_keepsInv straps
  | pinReset straps => exact pinReset_keepsInv straps
  | resetEnd => exact fun s i => ⟨_, rfl, endReset_inv i⟩
  | profileReadComplete a => exact .of_when (fun _ => rfl) fun s _ => (profileRead_evolves s a).inv
  | countersBlockRead a => exact .of_when (fun _ => rfl) fun s _ => (countersRead_evolves s a).inv
  | faultSlotsRead a => exact faultSlotsRead_keepsInv a
  | stalenessExpiry n => exact .of_when (fun _ => rfl) fun s _ i => takeWork_inv ((takeExpiry_evolves s n).inv i)
  | logicalLevelChange k => exact fun s i => ⟨_, rfl, takeWork_inv ((changeLevel_evolves s k).inv i)⟩
  | debounceSettle k => exact .of_when (fun _ => rfl) fun s _ i => takeWork_inv ((settle_evolves s k).inv i)
  | speedRisingEdge u => exact .of_when (fun _ => rfl) fun s _ i => takeWork_inv ((speedEdge_evolves s _).inv i)
  | speedOverflow => exact .of_when (fun _ => rfl) fun s _ i => takeWork_inv ((speedOverflow_evolves s).inv i)
  | holdExpiry => exact .of_when (fun _ => rfl) fun s _ i => takeWork_inv ((takeMotion_evolves s _ _).inv i)
  | startEdge l => exact startEdge_keepsInv l
  | startBitSample l x => exact .of_when (fun _ => rfl) fun s _ => (falseStart_evolves s l).inv
  | characterComplete l x => exact characterComplete_keepsInv l x
  | breakEvent l => exact .of_when (fun _ => rfl) fun s _ => (takeBreak_evolves s l).inv
  | brokenEvent l => exact .of_when (fun _ => rfl) fun s _ i => takeWork_inv ((setBroken_evolves s l _).inv i)
  | returnEvent l => exact .of_when (fun _ => rfl) fun s _ i => takeWork_inv ((setBroken_evolves s l _).inv i)
  | gapExpiry l => exact .of_when (fun _ => rfl) fun s _ => (takeGap_evolves s l).inv
  | silenceExpiry l => exact .of_when (fun _ => rfl) fun s _ i => takeWork_inv ((takeSilence_evolves s l).inv i)
  | openTimeoutExpiry d => exact .of_when (fun _ => rfl) fun _ _ i => failDoor_inv i d _
  | closeTimeoutExpiry d => exact .of_when (fun _ => rfl) fun _ _ i => failDoor_inv i d _
  | disagreementExpiry d => exact .of_when (fun _ => rfl) fun _ _ i => failDoor_inv i d _
  | onDelayExpiry w => exact .of_when (fun _ => rfl) fun s _ => (commitWarning_evolves s w _ fun _ => .activate _).inv
  | offDelayExpiry w => exact offDelayExpiry_keepsInv w
  | warningCellRead w => exact .of_when (fun _ => rfl) fun s _ => (readOffset_evolves s _).inv
  | ack w => exact hostWrite_keepsInv fun _ => rfl
  | set w => exact hostWrite_keepsInv fun _ => rfl
  | reset w => exact hostWrite_keepsInv fun _ => rfl
  | blinkPhaseEnd => exact .of_when (fun _ => rfl) fun _ _ => endBlinkPhase_inv
  | openLoadSenseChange k b => exact fun s i => ⟨_, rfl, senseChange_inv i k b⟩
  | openLoadExpiry k => exact .of_when (fun _ => rfl) fun _ _ i => takeWork_inv (openLoadExpiry_inv i k)
  | clearExpiry k => exact .of_when (fun _ => rfl) fun _ _ i => takeWork_inv (clearExpiry_inv i k)
  | lampRequestWrite u w => exact hostWrite_keepsInv fun _ => rfl
  | lampCheckExpiry => exact lampCheckExpiry_keepsInv
  | homingCompletion g => exact .of_when (fun _ => rfl) fun s _ => (completeHoming_evolves s g).inv
  | arrival g => exact arrival_keepsInv g
  | hostGaugeTargetWrite g w => exact hostWrite_keepsInv fun _ => rfl
  | toneEnd => exact .of_when (fun _ => rfl) fun _ _ => endTone_inv
  | repeatPeriodExpiry => exact .of_when (fun _ => rfl) fun _ _ => endRepeatPeriod_inv
  | chimeTestPhaseEnd => exact .of_when (fun _ => rfl) fun _ _ => endChimePhase_inv
  | windowWrite a w lanes => exact .of_live (fun _ => rfl) fun s => (hostWrite_evolves s a w lanes).inv
  | imageWordRead a => exact .of_live (fun _ => rfl) fun s => (hostRead_evolves s a).inv
  | hostSignalWrite n w => exact hostWrite_keepsInv fun _ => rfl
  | capturedWriteGrant => exact capturedWriteGrant_keepsInv
  | imageWriteGrant => exact .of_live (fun _ => rfl) fun s => (grantImage_evolves s).inv
  | imageWriteComplete => exact imageWriteComplete_keepsInv
  | clearFaultsCommand u => exact hostWrite_keepsInv fun _ => rfl
  | profileStore u => exact hostWrite_keepsInv fun _ => rfl
  | restart u => exact hostWrite_keepsInv fun _ => rfl
  | clearCauses u => exact hostWrite_keepsInv fun _ => rfl
  | clearStats u => exact hostWrite_keepsInv fun _ => rfl
  | parkNow u => exact hostWrite_keepsInv fun _ => rfl
  | attentionSummaryRead => exact .of_when (fun _ => rfl) fun s _ => (readOffset_evolves s _).inv
  | attentionEnableWrite w => exact hostWrite_keepsInv fun _ => rfl
  | hostAliveWrite w => exact hostWrite_keepsInv fun _ => rfl
  | graceExpiry => exact .of_when (fun _ => rfl) fun _ _ => enterLost_inv
  | timeoutExpiry => exact .of_when (fun _ => rfl) fun _ _ => enterLost_inv
  | timeoutExpiryInLost => exact .of_when (fun _ => rfl) fun _ _ i => setSup_inv i _
  | pulseEnd => exact .of_when (fun _ => rfl) fun _ _ i => setSup_inv i _
  | confirmExpiry k => exact .of_when (fun _ => rfl) fun s _ i => takeWork_inv ((confirmSlot_evolves s k).inv i)
  | faultSlotWriteComplete o => exact faultSlotWriteComplete_keepsInv o
  | countersWriteComplete o => exact countersWriteComplete_keepsInv o
  | profileStoreValidation =>
    exact .of_when (fun _ => rfl) fun s _ i => workAndFlush_inv ((validateStore_evolves s).inv i)
  | profilePageWriteComplete o => exact profilePageWriteComplete_keepsInv o
  | restartReadComplete a =>
    exact .of_when (fun _ => rfl) fun s _ i => workAndFlush_inv ((restartReadDone_evolves s a).inv i)
  | serviceStartEdge => exact .of_live (fun _ => rfl) fun s i => takeWork_inv ((serviceEdge_evolves s).inv i)
  | serviceCharacter x => exact .of_live (fun _ => rfl) fun s => (serviceCharacter_evolves s x).inv
  | quietExpiry => exact .of_when (fun _ => rfl) fun s _ => (svcIdle_evolves s).inv
  | serviceGapExpiry => exact .of_when (fun _ => rfl) fun s _ => (svcIdle_evolves s).inv
  | identify g b ps => exact request_keepsInv fun _ => rfl
  | readFaults g b ps => exact request_keepsInv fun _ => rfl
  | readFreeze g b ps => exact request_keepsInv fun _ => rfl
  | clearFaultsRequest g b ps => exact request_keepsInv fun _ => rfl
  | readSignals g b ps => exact request_keepsInv fun _ => rfl
  | readDoors g b ps => exact request_keepsInv fun _ => rfl
  | readLines g b ps => exact request_keepsInv fun _ => rfl
  | outputTest g b ps => exact request_keepsInv fun _ => rfl
  | stopTest g b ps => exact request_keepsInv fun _ => rfl
  | workshopStatus g b ps => exact request_keepsInv fun _ => rfl
  | replyTurnaround => exact .of_when (fun _ => rfl) fun s _ => (beginTransmission_evolves s).inv
  | responseCharacter x => exact .of_live (fun _ => rfl) fun s => (readBack_evolves s x).inv
  | testerActiveExpiry => exact .of_when (fun _ => rfl) fun s _ => (testerExpiry_evolves s).inv
  | lampTestTimerExpiry => exact .of_when (fun _ => rfl) fun s _ => (endTest_evolves s _).inv
  | ignitionOffExpiry => exact .of_when (fun _ => rfl) fun s _ i => takeWork_inv ((enterParking_evolves s).inv i)

/-- The invariant is kept by a step: time passes on an empty queue, the front command is taken otherwise. -/
theorem step_keepsInv {s t : State} (i : s.Inv) (h : step s = .next t) : t.Inv := by
  unfold step at h
  split at h
  · cases h
    exact tick_keepsInv i
  · next c rest _ =>
    obtain ⟨u, hu, iu⟩ := exec_keepsInv c _ (setPending_keepsInv i rest)
    cases hu.symm.trans h
    exact iu

end Sys2Proof.Machine

open Sys2Proof Sys2Proof.Machine

/-- Settles O4: a millisecond and every command keep the invariant. -/
theorem stepKeepsTheInvariant : Obligations.StepKeepsTheInvariant :=
  fun _ _ => step_keepsInv

end

section
/-! Steps 1 and 2 of the START sequence: the end of the reset cause, the read of the profile, and the read of the counters block (11,
R190, R191; 03, R62). -/

namespace Sys2Proof.Machine

/-! ## Reports held until the fault slots are loaded (R162) -/

/-- The state with the reports that the START sequence holds. -/
def State.holding (s : State) (l : List FaultCode) : State := s.setFm { s.fm with heldReports := l }

theorem momentary_held {s : State} (h : s.fm.loaded = false) (k : FaultKind) :
    s.momentary k = s.holding (s.fm.heldReports ++ [{ kind := k, subject := 0 }]) := if_neg (by simp [h])

theorem holding_keeps (s : State) (l : List FaultCode) : KeepsBut [.loading] s (s.holding l) := by
  intro p hp
  cases p with
  | loading => exact absurd (by decide) hp
  | _ => simp [Part.Same, State.holding]

/-! ## The end of the reset cause (R190) -/

theorem endedReset_keeps (s : State) : KeepsBut [.inReset] s (s.setMode { s.mode with inReset := false }) := by
  intro p hp
  cases p with
  | inReset => exact absurd (by decide) hp
  | _ => simp [Part.Same]

theorem exec_resetEnd {s : State} (h : s.mode.inReset = true) :
    exec .resetEnd s = .next ((s.setMode { s.mode with inReset := false }).setOperation .startProfileRead) :=
  congrArg Host.Outcome.next (if_pos h)

/-! ## Step 1: the profile (R191) -/

/-- The profile that the read puts into the load buffer, the read of the counters block begun. -/
def State.profileTaken (s : State) (p : Option Profile) : State := (s.setLoadBuffer p).setOperation .startCountersRead

theorem profileTaken_keeps (s : State) (p : Option Profile) : KeepsBut [.loadBuffer, .operation] s (s.profileTaken p) :=
  ((setLoadBuffer_evolves s p).keeps.mono (by decide)).trans ((setOperation_evolves _ _).keeps.mono (by decide))

theorem profileRead_valid {s : State} {p : Profile} (h : s.storedProfile = some p) :
    s.profileRead true = s.profileTaken (some p) := by
  unfold State.profileRead
  rw [if_pos rfl, h]
  rfl

/-- A profile that is not read or not valid is no load buffer, and PROFILE_BAD is held. -/
theorem profileRead_bad {s : State} {answered : Bool} (hl : s.fm.loaded = false)
    (h : (if answered then s.storedProfile else none) = none) :
    s.profileRead answered = (s.profileTaken none).holding (s.fm.heldReports ++ [{ kind := .profileBad, subject := 0 }]) := by
  unfold State.profileRead
  rw [h]
  exact momentary_held (s := s.profileTaken none) hl _

theorem exec_profileReadComplete {s : State} (hr : s.running) (ho : s.ctrl.operation = .startProfileRead) (answered : Bool) :
    exec (.profileReadComplete answered) s = .next (s.profileRead answered) :=
  congrArg Host.Outcome.next ((live_running hr _).trans (if_pos ho))

/-! ## Step 2: the counters block (R62, R191) -/

/-- The drive-cycle counter and the doors as the read of the counters block leaves them, the read of the fault slots begun. -/
def State.countersTaken (s : State) (cycle : BitVec 24) (doors : Table 6 Door) : State :=
  ((s.setOperation .startSlotsRead).setMode { s.mode with cycle := cycle }).setDoor { s.door with doors := doors }

theorem setDoor_keeps (s : State) (u : DoorUnit) : KeepsBut [.doors] s (s.setDoor u) := by
  intro p hp
  cases p with
  | doors => exact absurd (by decide) hp
  | _ => simp [Part.Same]

theorem countersTaken_keeps (s : State) (cycle : BitVec 24) (doors : Table 6 Door) :
    KeepsBut [.operation, .cycle, .doors] s (s.countersTaken cycle doors) :=
  (((setOperation_evolves s .startSlotsRead).keeps.mono (by decide)).trans
    ((setCycle_keeps (s.setOperation .startSlotsRead) s.mode.cycleOpen cycle s.mode.time).mono (by decide))).trans
    ((setDoor_keeps _ _).mono (by decide))

theorem countersReadable_iff {s : State} {answered : Bool} :
    s.countersReadable answered = true ↔
      answered = true ∧ countersPageNo ∉ s.ctrl.torn ∧ pageOk (s.cfgPage countersPageNo) 0 = true := by
  simp [State.countersReadable, and_assoc]

theorem countersRead_readable {s : State} {answered : Bool} (h : s.countersReadable answered = true) :
    s.countersRead answered = s.countersTaken ((pageWord (s.cfgPage countersPageNo) 0).setWidth 24)
      (.ofFn fun d => loadedDoor (s.cfgPage countersPageNo) d (s.door.doors.get d)) := if_pos h

/-- A door with both counters at 0. -/
def Door.uncounted (x : Door) : Door := { x with openCycles := 0, obstructions := 0 }

/-- An unreadable counters block leaves every counter 0, and CONFIG_MEMORY is held. -/
theorem countersRead_unreadable {s : State} {answered : Bool} (hl : s.fm.loaded = false)
    (h : ¬ s.countersReadable answered = true) :
    s.countersRead answered =
      (s.countersTaken 0 (s.door.doors.map Door.uncounted)).holding
        (s.fm.heldReports ++ [{ kind := .configMemory, subject := 0 }]) :=
  (if_neg h).trans (momentary_held (s := s.countersTaken 0 (s.door.doors.map Door.uncounted)) hl .configMemory)

theorem exec_countersBlockRead {s : State} (hr : s.running) (ho : s.ctrl.operation = .startCountersRead) (answered : Bool) :
    exec (.countersBlockRead answered) s = .next (s.countersRead answered) :=
  congrArg Host.Outcome.next ((live_running hr _).trans (if_pos ho))

end Sys2Proof.Machine

open Sys2Proof Sys2Proof.Machine

/-- Settles O7: the end of the reset cause, the profile by what the memory gives, then the counters block by its check. -/
theorem startReadsProfileAndCounters : Obligations.StartReadsProfileAndCounters := by
  refine ⟨⟨fun s hr => ⟨_, exec_resetEnd hr, ?_, rfl, rfl⟩, fun answered s hr ho hl => ?_⟩, fun answered s hr ho hl => ?_⟩
  · exact ((endedReset_keeps s).mono (by decide)).trans ((setOperation_evolves _ _).keeps.mono (by decide))
  · refine ⟨_, exec_profileReadComplete hr ho answered, ?_⟩
    cases hp : (if answered then s.storedProfile else none) with
    | some p =>
      obtain ⟨rfl, hstored⟩ : answered = true ∧ s.storedProfile = some p := by simpa using hp
      rw [profileRead_valid hstored]
      exact ⟨(profileTaken_keeps s _).mono (by decide), rfl, rfl, hl, (if_pos ⟨rfl, by simp [hstored]⟩).symm⟩
    | none =>
      rw [profileRead_bad hl hp]
      have hbad : ¬ (answered = true ∧ s.storedProfile.isSome = true) := fun ⟨ha, hs⟩ => by
        rw [if_pos ha] at hp
        simp [hp] at hs
      exact ⟨((profileTaken_keeps s _).mono (by decide)).trans ((holding_keeps _ _).mono (by decide)), rfl, rfl, hl,
        (if_neg hbad).symm⟩
  · refine ⟨_, exec_countersBlockRead hr ho answered, ?_⟩
    split
    · next h =>
      rw [countersRead_readable (countersReadable_iff.2 h)]
      refine ⟨(countersTaken_keeps s _ _).mono (by decide), rfl, hl, rfl, fun d => ?_, rfl⟩
      simp [State.countersTaken, loadedDoor]
    · next h =>
      rw [countersRead_unreadable hl (mt countersReadable_iff.1 h)]
      refine ⟨((countersTaken_keeps s _ _).mono (by decide)).trans ((holding_keeps _ _).mono (by decide)), rfl, hl, rfl,
        fun d => ?_, rfl⟩
      simp [State.holding, State.countersTaken, Door.uncounted]

end

section
/-! The derivation of a door, by its controller code or by its switches (03, R52 to R59). -/

namespace Sys2Proof.Machine

/-! ## What the derivation reads (R52, R53, R58) -/

/-- A bound signal gives no value exactly when none is bound or its quality is NEVER, STALE or INVALID (R52). -/
theorem usableValue_eq_none {s : State} {b : Option (Fin 256)} :
    s.usableValue b = none ↔
      b = none ∨ ∃ n, b = some n ∧ (s.quality n = .never ∨ s.quality n = .stale ∨ s.quality n = .invalid) := by
  cases b with
  | none => simp [State.usableValue]
  | some n => cases h : s.quality n <;> simp [State.usableValue, Quality.usable, h]

/-- The state that a controller code names is the one of Table 3-3. -/
theorem codeState_of_names {v : BitVec 16} {code : DoorState} (h : codeNames v code) : codeState v = code := by
  rcases h with ⟨rfl, rfl⟩ | ⟨rfl, rfl⟩ | ⟨rfl, rfl⟩ | ⟨rfl, rfl⟩ | ⟨rfl, rfl⟩ | ⟨rfl, rfl⟩ | ⟨h, rfl⟩
  pick_goal 7
  · unfold codeState
    split <;> first | omega | rfl
  all_goals rfl

/-- A code contradicts the closed switch when the switch is GOOD and says otherwise (R58). -/
theorem contradicts_iff {s : State} {cfg : DoorCfg} {v : BitVec 16} {code : DoorState} (h : codeNames v code) :
    s.contradicts cfg code = true ↔ s.disagrees cfg v := by
  unfold State.contradicts State.disagrees
  cases hc : cfg.closed with
  | none => simp
  | some n =>
    rcases h with ⟨rfl, rfl⟩ | ⟨rfl, rfl⟩ | ⟨rfl, rfl⟩ | ⟨rfl, rfl⟩ | ⟨rfl, rfl⟩ | ⟨rfl, rfl⟩ | ⟨h, rfl⟩
    pick_goal 7
    · have ne (k : Nat) (hk : k < 6) : v ≠ BitVec.ofNat 16 k := by
        rintro rfl
        rw [BitVec.toNat_ofNat] at h
        omega
      simp [ne 0 (by decide), ne 1 (by decide), ne 3 (by decide)]
    all_goals simp

/-! ## The derivation (R54, R58) -/

section

variable {s : State} {cfg : DoorCfg} {x : Door}

theorem derive_degraded (h : s.usableValue cfg.controller = none) :
    s.derive cfg x =
      { x with state := (s.degraded cfg).1, source := (s.degraded cfg).2, cause := .none, timer := none } := by
  unfold State.derive
  rw [h]

theorem derive_disputed {v : BitVec 16} {code : DoorState} (hv : s.usableValue cfg.controller = some v)
    (hn : codeNames v code) (hd : s.disagrees cfg v) : s.derive cfg x = x.disputed code := by
  unfold State.derive
  rw [hv]
  dsimp only
  rw [codeState_of_names hn, if_pos ((contradicts_iff hn).2 hd)]

theorem derive_follows {v : BitVec 16} {code : DoorState} (hv : s.usableValue cfg.controller = some v)
    (hn : codeNames v code) (hd : ¬ s.disagrees cfg v) : s.derive cfg x = x.follow code := by
  unfold State.derive
  rw [hv]
  dsimp only
  rw [codeState_of_names hn, if_neg (mt (contradicts_iff hn).1 hd)]

theorem degraded_open (h : s.usableValue cfg.closed = some 0) : s.degraded cfg = (.opened, .degraded) := by
  unfold State.degraded
  rw [h]
  rfl

theorem degraded_closedLocked {v u : BitVec 16} (h : s.usableValue cfg.closed = some v) (hv : v ≠ 0)
    (hl : s.usableValue cfg.locked = some u) (hu : u ≠ 0) : s.degraded cfg = (.closedLocked, .degraded) := by
  unfold State.degraded
  rw [h]
  dsimp only
  rw [if_neg hv, hl]
  exact if_neg hu

theorem degraded_closed {v : BitVec 16} (h : s.usableValue cfg.closed = some v) (hv : v ≠ 0)
    (hl : s.usableValue cfg.locked = none ∨ s.usableValue cfg.locked = some 0) :
    s.degraded cfg = (.closed, .degraded) := by
  unfold State.degraded
  rw [h]
  dsimp only
  rw [if_neg hv]
  rcases hl with hl | hl <;> rw [hl]
  rfl

theorem degraded_unknown (h : s.usableValue cfg.closed = none) : s.degraded cfg = (.unknown, .none) := by
  unfold State.degraded
  rw [h]

/-- A closed switch alone makes the source DEGRADED, whatever the lock switch says. -/
theorem degraded_source {v : BitVec 16} (h : s.usableValue cfg.closed = some v) : (s.degraded cfg).2 = .degraded := by
  unfold State.degraded
  rw [h]
  dsimp only
  split_ifs
  · rfl
  · split
    · rfl
    · split_ifs <;> rfl

/-! ## The expiry that follows at once (R58) -/

theorem rederive_idle (h : (s.derive cfg x).timer = none) : s.rederive cfg x = s.derived cfg x := by
  have hn : ¬ (s.derived cfg x).expiresAtOnce cfg = true := by simp [Door.expiresAtOnce, State.derived, Door.counted, h]
  exact if_neg hn

theorem rederive_degraded (h : s.usableValue cfg.controller = none) : s.rederive cfg x = s.derived cfg x :=
  rederive_idle (by rw [derive_degraded h])

end

end Sys2Proof.Machine

open Sys2Proof Sys2Proof.Machine

/-- Settles O23: no timer and no cause, then the state by the closed switch and the lock switch. -/
theorem degradedDoor : Obligations.DegradedDoor := by
  intro s cfg x h
  have hn := usableValue_eq_none.2 h
  rw [rederive_degraded hn]
  unfold State.derived Door.counted
  rw [derive_degraded hn]
  exact ⟨rfl, rfl,
    fun v hv hne => ⟨degraded_source hv,
      fun u hu hl => congrArg Prod.fst (degraded_closedLocked hv hne hu hl),
      fun hl => congrArg Prod.fst (degraded_closed hv hne hl)⟩,
    fun hv => ⟨degraded_source hv, congrArg Prod.fst (degraded_open hv)⟩,
    fun hv => ⟨congrArg Prod.snd (degraded_unknown hv), congrArg Prod.fst (degraded_unknown hv)⟩⟩

end

section
/-! A door timer's expiry, and a door that follows its controller code (03, R53, R56 to R60, R63). -/

namespace Sys2Proof.Machine

/-! ## An event of one door (R60, R63, R64) -/

/-- A door in the table, with its counts-open flag (R63). -/
def State.tabled (s : State) (d : Fin 6) (x : Door) : Door :=
  { x with countsOpen := s.countsOpen (s.profile.doors.get d) x }

theorem commitDoor_summary (s : State) (d : Fin 6) (x : Door) :
    (s.commitDoor d x).door = summary s.profile.doors (s.door.doors.set d (s.tabled d x)) := commitDoor_door s d x

theorem commitDoor_self (s : State) (d : Fin 6) (x : Door) : (s.commitDoor d x).door.doors.get d = s.tabled d x := by
  rw [commitDoor_summary]
  exact Table.get_set_self ..

theorem commitDoor_other (s : State) {d e : Fin 6} (h : e ≠ d) (x : Door) :
    (s.commitDoor d x).door.doors.get e = s.door.doors.get e := by
  rw [commitDoor_summary]
  exact Table.get_set_ne _ (Ne.symm h) _

/-- What a door event hands on are its reports, with images before them and evaluations after them. -/
theorem handDoors_split (old s : State) (ds : List (Fin 6)) (passed : Bool) (report : State → Fin 6 → State) :
    ∃ t, Evolves Part.images s t ∧ Evolves Part.evaluation (t.forEach ds report) (old.handDoors s ds passed report) := by
  unfold State.handDoors
  refine ⟨_, ?_, Evolves.iteThen (Evolves.ite .refl ((evalWarnings_evolves _ _).mono (by decide)))
    ((evalLampsNaming_evolves _ _).mono (by decide))⟩
  refine Evolves.iteThen ?_ ((setCause_evolves _ _).mono (by decide))
  exact ((offerChanged_evolves _ _ _).mono (by decide)).trans ((offerStatus_evolves _ _).mono (by decide))

/-- A door that comes to another fault cause reports its code (R60). -/
theorem commitDoor_reported {s : State} {d : Fin 6} {x : Door} {c : FaultCode} (hnew : doorCode d x.cause = some c)
    (hold : doorCode d (s.door.doors.get d).cause ≠ some c) : Reported s (s.commitDoor d x) c := by
  intro hl
  obtain ⟨t, himages, hafter⟩ := handDoors_split s (s.withDoor d x) [d] false
    (fun t e => t.reportChange (doorCode e (s.door.doors.get e).cause) (doorCode e x.cause))
  have hbefore : t.fm.present = s.fm.present :=
    (himages.keeps .present (by decide)).trans ((withDoor_evolves s d x).keeps .present (by decide))
  have hpresent : (s.commitDoor d x).fm.present = _ := hafter.keeps .present (by decide)
  rw [hpresent]
  show c ∈ (t.reportChange (doorCode d (s.door.doors.get d).cause) (doorCode d x.cause)).fm.present
  rw [hnew]
  exact reportChange_reported hold (hbefore ▸ hl)

/-! ## A timer's expiry (R57, R58) -/

/-- The three purposes of a door timer: the command of its expiry, the cause and the fault kind that it gives, its limit. -/
inductive DoorPurpose.Expires (s : State) (d : Fin 6) : DoorPurpose → Instr → DoorCause → FaultKind → Nat → Prop where
  | openMotion : Expires s d .openMotion (.openTimeoutExpiry d) .slowOpen .doorSlowOpen (s.profile.doors.get d).openTimeout
  | closeMotion : Expires s d .closeMotion (.closeTimeoutExpiry d) .slowClose .doorSlowClose (s.profile.doors.get d).closeTimeout
  | disagree : Expires s d .disagree (.disagreementExpiry d) .disagree .doorDisagree (s.profile.doors.get d).tolerance

section

variable {s : State} {d : Fin 6} {p : DoorPurpose} {c : Instr} {cause : DoorCause} {kind : FaultKind} {e limit : Nat}

theorem exec_doorExpiry (h : p.Expires s d c cause kind limit) (hr : s.running)
    (ht : (s.door.doors.get d).timer = some (p, e)) (hl : limit < e) : exec c s = .next (s.failDoor d cause) := by
  have hdue : ranPast (s.door.doors.get d).timer p limit = true := ranPast_iff.2 ⟨e, ht, hl⟩
  cases h <;> exact congrArg Host.Outcome.next ((live_running hr _).trans (if_pos hdue))

theorem doorCode_expires (h : p.Expires s d c cause kind limit) :
    doorCode d cause = some { kind := kind, subject := BitVec.ofNat 8 d.val } := by
  cases h <;> rfl

/-- A door in FAULT counts open while it is present. -/
theorem tabled_fail (s : State) (d : Fin 6) (x : Door) (cause : DoorCause) :
    s.tabled d (x.fail cause) =
      { x with state := .fault, cause := cause, timer := none, countsOpen := (s.profile.doors.get d).present } := by
  simp [State.tabled, Door.fail, State.countsOpen, DoorState.isClosed]

/-- A door timer's expiry: FAULT with the cause, the fault reported, the other doors as they were. -/
theorem gives_doorExpiry (h : p.Expires s d c cause kind limit) (hr : s.running)
    (ht : (s.door.doors.get d).timer = some (p, e)) (hl : limit < e) :
    Gives c s (.doors :: Part.faults ++ Part.work) (fun t =>
      t.door.doors.get d =
        { s.door.doors.get d with
          state := .fault, cause := cause, timer := none, countsOpen := (s.profile.doors.get d).present } ∧
      (∀ o, o ≠ d → t.door.doors.get o = s.door.doors.get o) ∧
      t.door.openCount = (t.door.doors.indices Door.countsOpen).length ∧
      ((s.door.doors.get d).cause = .none → Reported s t { kind := kind, subject := BitVec.ofNat 8 d.val })) := by
  refine gives_work (exec_doorExpiry h hr ht hl) (commitDoor_evolves s d _).keeps ?_
  rw [takeWork_door]
  refine ⟨(commitDoor_self ..).trans (tabled_fail ..), fun o ho => commitDoor_other s ho _, ?_, fun hc => ?_⟩
  · rw [commitDoor_summary]
    rfl
  · unfold Reported
    rw [takeWork_present]
    exact commitDoor_reported (doorCode_expires h) (by simp [hc, doorCode])

end

/-! ## A door that follows its code (R53, R56 to R58) -/

section

variable (x : Door) (code : DoorState)

theorem disputed_source : (x.disputed code).source = .controller := by
  unfold Door.disputed
  split <;> rfl

theorem disputed_stays (h : x.cause = .disagree) : x.disputed code = { x with source := .controller } := if_pos h

theorem disputed_lasts (h : x.cause ≠ .disagree) (ht : x.timer.map Prod.fst = some .disagree) :
    x.disputed code = { x with state := code, source := .controller, cause := .none } := by
  obtain ⟨⟨-, e⟩, he, rfl⟩ := Option.map_eq_some_iff.1 ht
  unfold Door.disputed
  rw [if_neg h, he]

theorem disputed_begins (h : x.cause ≠ .disagree) (ht : x.timer.map Prod.fst ≠ some .disagree) :
    x.disputed code = { x with state := code, source := .controller, cause := .none, timer := some (.disagree, 0) } := by
  unfold Door.disputed
  rw [if_neg h]
  split
  · next he => exact absurd (by rw [he]; rfl) ht
  all_goals rfl

theorem follow_source : (x.follow code).source = .controller := by
  unfold Door.follow
  split
  case h_2 | h_3 => split <;> rfl
  all_goals rfl

theorem follow_slowOpen (h : x.cause = .slowOpen) : x.follow .opening = { x with source := .controller } := if_pos h

theorem follow_slowClose (h : x.cause = .slowClose) : x.follow .closing = { x with source := .controller } := if_pos h

theorem follow_opening (h : x.cause ≠ .slowOpen) :
    x.follow .opening =
      { x with
        state := .opening
        source := .controller
        cause := .none
        timer := if x.state = .opening then x.timer else some (.openMotion, 0) } :=
  (if_neg h).trans (by simp [motionTimer])

theorem follow_closing (h : x.cause ≠ .slowClose) :
    x.follow .closing =
      { x with
        state := .closing
        source := .controller
        cause := .none
        timer := if x.state = .closing then x.timer else some (.closeMotion, 0) } :=
  (if_neg h).trans (by simp [motionTimer])

variable {code}

/-- Outside FAULT, OPENING and CLOSING the door takes the code's state, and no timer runs. -/
theorem follow_resting (hf : code ≠ .fault) (ho : code ≠ .opening) (hc : code ≠ .closing) :
    x.follow code = { x with state := code, source := .controller, cause := .none, timer := none } := by
  cases code with
  | fault => exact absurd rfl hf
  | opening => exact absurd rfl ho
  | closing => exact absurd rfl hc
  | _ => rfl

end

end Sys2Proof.Machine

open Sys2Proof Sys2Proof.Machine

/-- Settles O22: the three expiries, then the code that contradicts the switch and the code that is followed. -/
theorem doorTimers : Obligations.DoorTimers := by
  refine ⟨fun c d p cause kind e limit s h hr ht hl => ?_, fun s cfg x v code hv hn => ⟨?_, fun hd => ?_, fun hd => ?_⟩⟩
  · rcases h with ⟨rfl, rfl, rfl, rfl, rfl⟩ | ⟨rfl, rfl, rfl, rfl, rfl⟩ | ⟨rfl, rfl, rfl, rfl, rfl⟩
    · exact gives_doorExpiry .openMotion hr ht hl
    · exact gives_doorExpiry .closeMotion hr ht hl
    · exact gives_doorExpiry .disagree hr ht hl
  · by_cases hd : s.disagrees cfg v
    · rw [derive_disputed hv hn hd]
      exact disputed_source x code
    · rw [derive_follows hv hn hd]
      exact follow_source x code
  · rw [derive_disputed hv hn hd]
    exact ⟨disputed_stays x code, disputed_lasts x code, disputed_begins x code⟩
  · rw [derive_follows hv hn hd]
    refine ⟨?_, ?_, ?_, ?_, ?_, follow_resting x⟩ <;> rintro rfl
    · rfl
    · exact follow_slowOpen x
    · exact follow_slowClose x
    · exact follow_opening x
    · exact follow_closing x

end

section
/-! The counters of a door, the doors that count open, and a handed change that derives every door bound to it (03, R55, R61, R63). -/

namespace Sys2Proof.Machine

/-! ## The counters (R61) -/

section

variable (s : State) (cfg : DoorCfg) (x : Door)

theorem disputed_counters (code : DoorState) :
    (x.disputed code).openCycles = x.openCycles ∧ (x.disputed code).obstructions = x.obstructions := by
  unfold Door.disputed
  split <;> exact ⟨rfl, rfl⟩

theorem follow_counters (code : DoorState) :
    (x.follow code).openCycles = x.openCycles ∧ (x.follow code).obstructions = x.obstructions := by
  unfold Door.follow
  split
  case h_2 | h_3 => split <;> exact ⟨rfl, rfl⟩
  all_goals exact ⟨rfl, rfl⟩

/-- A derivation counts nothing by itself. -/
theorem derive_counters :
    (s.derive cfg x).openCycles = x.openCycles ∧ (s.derive cfg x).obstructions = x.obstructions := by
  unfold State.derive
  split
  · exact ⟨rfl, rfl⟩
  · split
    · exact disputed_counters x _
    · exact follow_counters x _

/-- The expiry that follows at once counts nothing. -/
theorem rederive_counters :
    (s.rederive cfg x).openCycles = (s.derived cfg x).openCycles ∧
      (s.rederive cfg x).obstructions = (s.derived cfg x).obstructions := by
  unfold State.rederive
  dsimp only
  split <;> exact ⟨rfl, rfl⟩

theorem countsCycle_iff (was : DoorState) :
    countsCycle was = true ↔
      was = .unknown ∨ was = .closedLocked ∨ was = .closed ∨ was = .opening ∨ was = .closing := by
  cases was <;> simp [countsCycle]

/-- A 32-bit counter saturates. -/
theorem satInc_word (b : BitVec 32) : satInc b = if b = 4294967295 then 4294967295 else b + 1 := by
  have ones : (4294967295 : BitVec 32) = BitVec.allOnes 32 := by decide
  rw [ones]
  unfold satInc
  split_ifs with h
  · exact h
  · rfl

theorem rederive_openCycles :
    (s.rederive cfg x).openCycles =
      (if (s.derive cfg x).state = .opened ∧
          (x.state = .unknown ∨ x.state = .closedLocked ∨ x.state = .closed ∨ x.state = .opening ∨ x.state = .closing) then
        (if x.openCycles = 4294967295 then 4294967295 else x.openCycles + 1)
      else x.openCycles) := by
  rw [(rederive_counters s cfg x).1, ← (derive_counters s cfg x).1, ← satInc_word]
  simp [State.derived, Door.counted, countsCycle_iff]

theorem rederive_obstructions :
    (s.rederive cfg x).obstructions =
      (if (s.derive cfg x).state = .reversing ∧ x.state ≠ .reversing then
        (if x.obstructions = 4294967295 then 4294967295 else x.obstructions + 1)
      else x.obstructions) := by
  rw [(rederive_counters s cfg x).2, ← (derive_counters s cfg x).2, ← satInc_word]
  simp [State.derived, Door.counted]

/-! ## Doors that count open (R63) -/

theorem isClosed_eq_false (d : DoorState) : d.isClosed = false ↔ d ≠ .closed ∧ d ≠ .closedLocked := by
  cases d <;> simp [DoorState.isClosed]

theorem countsOpen_iff :
    s.countsOpen cfg x = true ↔
      cfg.present = true ∧
        (x.state ≠ .closed ∧ x.state ≠ .closedLocked ∨
          cfg.ramp = true ∧ ∃ m, cfg.rampOut = some m ∧ s.quality m = .good ∧ s.value m ≠ 0) := by
  rw [← isClosed_eq_false, ← State.boundOn, ← boundOn_iff]
  simp [State.countsOpen]

end

/-! ## What the derivation reads of the state (R55) -/

section

variable {s t : State}

theorem quality_congr (h : t.sig.entries = s.sig.entries) : t.quality = s.quality := by
  funext n
  unfold State.quality
  rw [h]

theorem value_congr (h : t.sig.entries = s.sig.entries) : t.value = s.value := by
  funext n
  unfold State.value
  rw [h]

/-- The derivation reads the signal table alone. -/
theorem rederive_congr (h : t.sig.entries = s.sig.entries) (cfg : DoorCfg) (x : Door) :
    t.rederive cfg x = s.rederive cfg x := by
  unfold State.rederive State.derived State.derive State.degraded State.contradicts State.usableValue
  rw [quality_congr h, value_congr h]

theorem countsOpen_congr (h : t.sig.entries = s.sig.entries) (cfg : DoorCfg) (x : Door) :
    t.countsOpen cfg x = s.countsOpen cfg x := by
  unfold State.countsOpen State.goodNonzero
  rw [quality_congr h, value_congr h]

end

/-! ## One door derived in the table (R55, R58) -/

/-- Where a handed change leaves a bound door. -/
def State.handedDoor (s : State) (d : Fin 6) : Door := s.tabled d (s.rederive (s.profile.doors.get d) (s.door.doors.get d))

/-- A bound door derived, and the expiry that follows at once taken. -/
def State.takeDoor (s : State) (d : Fin 6) : State :=
  (s.commitDoor d (s.derived (s.profile.doors.get d) (s.door.doors.get d))).expireDoorAtOnce d

theorem takeDoor_evolves (s : State) (d : Fin 6) : Evolves (.doors :: Part.faults) s (s.takeDoor d) :=
  (commitDoor_evolves ..).trans (expireDoorAtOnce_evolves ..)

/-- What derives a door leaves profile and signal table alone. -/
theorem reads_of_keeps {s t : State} (k : KeepsBut (.doors :: Part.faults) s t) :
    t.profile = s.profile ∧ t.sig.entries = s.sig.entries := ⟨k .profile (by decide), k .entries (by decide)⟩

/-- Of two writes of a row the second stands. -/
theorem table_set_set {n : Nat} {α : Type} (t : Table n α) (i : Fin n) (x y : α) : (t.set i x).set i y = t.set i y := by
  refine Table.ext_get fun j => ?_
  by_cases h : i = j
  · subst h
    simp
  · simp [h]

/-- The door table after both events is that of one event that leaves the door derived. -/
theorem takeDoor_summary (s : State) (d : Fin 6) :
    (s.takeDoor d).door = summary s.profile.doors (s.door.doors.set d (s.handedDoor d)) := by
  obtain ⟨hprofile, -⟩ := reads_of_keeps
    (commitDoor_evolves s d (s.derived (s.profile.doors.get d) (s.door.doors.get d))).keeps
  unfold State.takeDoor State.expireDoorAtOnce State.handedDoor State.rederive
  dsimp only
  rw [commitDoor_self, hprofile]
  show (if (s.derived _ _).expiresAtOnce _ = true then _ else _ : State).door = _
  split
  · rw [commitDoor_summary, hprofile, tabled_fail, hprofile, tabled_fail, commitDoor_summary]
    exact congrArg (summary s.profile.doors) (table_set_set ..)
  · exact commitDoor_summary ..

theorem takeDoor_self (s : State) (d : Fin 6) : (s.takeDoor d).door.doors.get d = s.handedDoor d := by
  rw [takeDoor_summary]
  exact Table.get_set_self ..

theorem takeDoor_other (s : State) {d e : Fin 6} (h : e ≠ d) :
    (s.takeDoor d).door.doors.get e = s.door.doors.get e := by
  rw [takeDoor_summary]
  exact Table.get_set_ne _ (Ne.symm h) _

/-- A table's summary is the one of R63. -/
theorem summaryTaken_of_summary {s : State} {doors : Table 6 Door} (h : s.door = summary s.profile.doors doors) :
    s.SummaryTaken := by
  unfold State.SummaryTaken
  rw [h]
  simp [summary, Table.indices, imp_iff_not_or]

theorem takeDoor_summaryTaken (s : State) (d : Fin 6) : (s.takeDoor d).SummaryTaken := by
  refine summaryTaken_of_summary (doors := s.door.doors.set d (s.handedDoor d)) ?_
  rw [(reads_of_keeps (takeDoor_evolves s d).keeps).1]
  exact takeDoor_summary s d

/-! ## A handed change (R55) -/

/-- A door derived when it is bound to the signal. -/
def State.handDoor (n : Fin 256) (s : State) (d : Fin 6) : State :=
  if boundDoor (s.profile.doors.get d) n then s.takeDoor d else s

theorem doorsHanded_eq (s : State) (n : Fin 256) : s.doorsHanded n = s.forEach (List.finRange 6) (State.handDoor n) := rfl

section

variable {s : State} {n : Fin 256} {d : Fin 6}

theorem handDoor_bound (h : boundDoor (s.profile.doors.get d) n = true) : s.handDoor n d = s.takeDoor d := if_pos h

theorem handDoor_unbound (h : boundDoor (s.profile.doors.get d) n = false) : s.handDoor n d = s := if_neg (by simp [h])

theorem handDoor_reads (s : State) (n : Fin 256) (d : Fin 6) :
    (s.handDoor n d).profile = s.profile ∧ (s.handDoor n d).sig.entries = s.sig.entries :=
  reads_of_keeps (Evolves.ite (takeDoor_evolves s d) .refl).keeps

/-- Deriving one door leaves every other as it was. -/
theorem handDoor_other {e : Fin 6} (h : e ≠ d) : (s.handDoor n d).door.doors.get e = s.door.doors.get e := by
  cases hb : boundDoor (s.profile.doors.get d) n with
  | true => rw [handDoor_bound hb, takeDoor_other s h]
  | false => rw [handDoor_unbound hb]

/-- Where a handed change would leave a door does not depend on the doors derived before it. -/
theorem handedDoor_handDoor {e : Fin 6} (h : e ≠ d) : (s.handDoor n d).handedDoor e = s.handedDoor e := by
  obtain ⟨hprofile, hentries⟩ := handDoor_reads s n d
  unfold State.handedDoor State.tabled
  rw [hprofile, handDoor_other h, rederive_congr hentries, countsOpen_congr hentries]

/-- The doors of a list, each once: those bound to the signal are derived, and every other door is as it was. -/
theorem handDoors_get (l : List (Fin 6)) (hl : l.Nodup) (s : State) (e : Fin 6) :
    (s.forEach l (State.handDoor n)).door.doors.get e =
      if e ∈ l ∧ boundDoor (s.profile.doors.get e) n = true then s.handedDoor e else s.door.doors.get e := by
  induction l generalizing s with
  | nil => simp [State.forEach]
  | cons d l ih =>
    obtain ⟨hd, hl⟩ := List.nodup_cons.1 hl
    refine (ih hl (s.handDoor n d)).trans ?_
    rw [(handDoor_reads s n d).1]
    by_cases he : e = d
    · subst he
      rw [if_neg fun h => hd h.1]
      cases hb : boundDoor (s.profile.doors.get e) n with
      | true => simp [handDoor_bound hb, takeDoor_self]
      | false => simp [handDoor_unbound hb]
    · simp [he, handedDoor_handDoor he, handDoor_other he]

/-- A list of doors of which none is bound: nothing happens. -/
theorem handDoors_unbound (l : List (Fin 6)) (h : ∀ d ∈ l, boundDoor (s.profile.doors.get d) n = false) :
    s.forEach l (State.handDoor n) = s := by
  induction l with
  | nil => rfl
  | cons d l ih =>
    show (s.handDoor n d).forEach l (State.handDoor n) = s
    rw [handDoor_unbound (h d List.mem_cons_self)]
    exact ih fun e he => h e (List.mem_cons_of_mem d he)

/-- The summary is the table's once a bound door has been derived. -/
theorem handDoors_summaryTaken (l : List (Fin 6)) (s : State)
    (h : s.SummaryTaken ∨ ∃ d ∈ l, boundDoor (s.profile.doors.get d) n = true) :
    (s.forEach l (State.handDoor n)).SummaryTaken := by
  induction l generalizing s with
  | nil => exact h.resolve_right (by simp)
  | cons d l ih =>
    show ((s.handDoor n d).forEach l (State.handDoor n)).SummaryTaken
    cases hb : boundDoor (s.profile.doors.get d) n with
    | true =>
      rw [handDoor_bound hb]
      exact ih _ (.inl (takeDoor_summaryTaken s d))
    | false =>
      rw [handDoor_unbound hb]
      exact ih s (by simpa [hb] using h)

end

end Sys2Proof.Machine

open Sys2Proof Sys2Proof.Machine

/-- Settles O24: the counters and the doors that count open, then the table that a handed change leaves. -/
theorem doorCounters : Obligations.DoorCounters := by
  refine fun s => ⟨fun cfg x => ⟨rederive_openCycles s cfg x, rederive_obstructions s cfg x, countsOpen_iff s cfg x⟩,
    fun n => ?_⟩
  rw [doorsHanded_eq]
  refine ⟨fun d hd => ?_, fun d hd => ?_, fun ⟨d, hd⟩ => ?_, fun h => ?_⟩
  · exact (handDoors_get _ (List.nodup_finRange 6) s d).trans (if_pos ⟨List.mem_finRange d, hd⟩)
  · exact (handDoors_get _ (List.nodup_finRange 6) s d).trans (if_neg (by simp [hd]))
  · exact handDoors_summaryTaken _ s (.inr ⟨d, List.mem_finRange d, hd⟩)
  · rw [handDoors_unbound _ fun d _ => h d]

end

section
/-! Where a warning's cell lies in the window, and the host writes to it that are protection violations (04, R86; 06, R124). -/

namespace Sys2Proof.Machine

/-! ## The place of a warning's cell (Table 6-1) -/

/-- The word address of a window offset leads back to the offset. -/
theorem windowOffset_windowWordAddr (s : State) {off : Nat} (h4 : off % 4 = 0) (hoff : off < Config.windowSize) :
    s.windowOffset (s.windowWordAddr off) = some off := by
  have hs : s.path.straps.toNat < 4 := s.path.straps.isLt
  have hbase : Config.windowBase s.path.straps % 4 = 0 ∧ Config.windowBase s.path.straps + Config.windowSize ≤ 2 ^ 24 := by
    unfold Config.windowBase Config.windowSize
    omega
  have haddr : (s.windowWordAddr off).toNat * 4 = Config.windowBase s.path.straps + off := by
    unfold State.windowWordAddr
    rw [BitVec.toNat_ofNat]
    omega
  unfold State.windowOffset
  simp only [haddr]
  rw [if_pos (by omega), Nat.add_sub_cancel_left]

theorem offWarning_bounds (w : Fin 96) : 0x0480 ≤ offWarning w ∧ offWarning w < 0x0600 ∧ offWarning w % 4 = 0 := by
  unfold offWarning
  omega

theorem warningAt_offWarning (w : Fin 96) : warningAt (offWarning w) = some w := by
  unfold warningAt offWarning
  rw [dif_pos (by omega)]
  congr 1
  apply Fin.ext
  show (0x0480 + 4 * w.val - 0x0480) / 4 = w.val
  omega

/-- The live cells are the command, the attention enable and the host alive cell (R128). -/
theorem isLiveCell_iff (off : Nat) : isLiveCell off = true ↔ off = 0x0690 ∨ off = 0x069C ∨ off = 0x06A0 := by
  simp only [isLiveCell, Bool.or_eq_true, decide_eq_true_iff, or_assoc]
  rfl

theorem isLiveCell_offWarning (w : Fin 96) : isLiveCell (offWarning w) = false := by
  obtain ⟨hlo, hhi, -⟩ := offWarning_bounds w
  rw [Bool.eq_false_iff]
  intro h
  have := (isLiveCell_iff _).mp h
  omega

theorem isImageOffset_offWarning (w : Fin 96) : isImageOffset (offWarning w) = true := by
  obtain ⟨hlo, hhi, h4⟩ := offWarning_bounds w
  have : offWarning w < 0x0680 := by omega
  simp [isImageOffset, hlo, h4, this]

theorem isReadOnly_offWarning (w : Fin 96) : isReadOnly (offWarning w) = false := by
  obtain ⟨hlo, hhi, -⟩ := offWarning_bounds w
  have hresult : offWarning w ≠ offResult := by
    unfold offResult
    omega
  have hsummary : offWarning w ≠ offSummary := by
    unfold offSummary
    omega
  simp only [isReadOnly, Bool.or_eq_false_iff, Bool.and_eq_false_iff, decide_eq_false_iff_not]
  omega

theorem isOwned_offWarning (w : Fin 96) : isOwned (offWarning w) = true := by
  obtain ⟨hlo, hhi, -⟩ := offWarning_bounds w
  simp [isOwned, hlo, hhi]

/-- A host write to a warning's cell of an open window: a full one is the warning unit's, a partial one a violation (R86, R123). -/
theorem writeOffset_offWarning {s : State} (ho : s.path.windowOpen = true) (w : Fin 96) (word : Word) (lanes : BitVec 4) :
    s.writeOffset (offWarning w) word lanes = if lanes = 0xF then s.writeWarning w word else s.violation := by
  obtain ⟨hlo, hhi, -⟩ := offWarning_bounds w
  have howned : s.writeOwned (offWarning w) word = s.writeWarning w word := by
    unfold State.writeOwned
    rw [if_neg (by omega), if_neg (by omega), if_neg (by omega), warningAt_offWarning]
  unfold State.writeOffset
  simp [isLiveCell_offWarning, isReadOnly_offWarning, isOwned_offWarning, ho, howned]

/-- A full write to a warning's cell, as the rows ACK, SET and RESET make it. -/
theorem hostWriteAt_offWarning {s : State} (h : s.hostReady) (w : Fin 96) (word : Word) :
    s.hostWriteAt (offWarning w) word 0xF = s.writeWarning w word := by
  obtain ⟨-, hp, ho⟩ := h
  unfold State.hostWriteAt
  rw [if_pos hp, writeOffset_offWarning ho, if_pos rfl]

/-- A WINDOW_WRITE of a warning's cell. -/
theorem exec_windowWrite_offWarning {s : State} (h : s.hostReady) (w : Fin 96) (word : Word) (lanes : BitVec 4) :
    exec (.windowWrite (s.windowWordAddr (offWarning w)) word lanes) s =
      .next (if lanes = 0xF then s.writeWarning w word else s.violation) := by
  obtain ⟨hr, hp, ho⟩ := h
  obtain ⟨-, hhi, h4⟩ := offWarning_bounds w
  have hoff := windowOffset_windowWordAddr s h4 (Nat.lt_trans hhi (by decide))
  show Host.Outcome.next (s.live _) = _
  rw [live_running hr]
  unfold State.hostWrite
  rw [if_pos hp, hoff]
  exact congrArg _ (writeOffset_offWarning ho w word lanes)

/-! ## Protection violations (R124) -/

/-- A violation is counted, and PROTECTION is set. -/
theorem violation_counted (s : State) :
    s.violation.path.violations = satInc s.path.violations ∧ s.violation.causePending .protection := by
  refine ⟨?_, setCause_pending _ _⟩
  have h : ∀ t : State, (s.offerChanged t [offCountA]).path.violations = t.path.violations :=
    fun t => (offerChanged_evolves s t _).keeps .violations (by decide)
  exact h _

theorem gives_violation {c : Instr} {s : State} (he : exec c s = .next s.violation) :
    Gives c s (.violations :: Part.images) (fun t =>
      t.path.violations = satInc s.path.violations ∧ t.causePending .protection) :=
  ⟨_, he, (violation_evolves s).keeps, violation_counted s⟩

/-- SET or RESET to a warning of another kind is a violation (R86). -/
theorem writeWarning_unset {s : State} {w : Fin 96} {word : Word} (hw : word = Config.setWord ∨ word = Config.resetWord)
    (hc : (s.profile.warnings.get w).condition ≠ .hostSet) : s.writeWarning w word = s.violation := by
  have hack : word ≠ Config.ackWord := by rcases hw with rfl | rfl <;> decide
  unfold State.writeWarning
  rw [if_neg hack, if_neg hc]

/-- A word that is none of ACK, SET and RESET is a violation (R86). -/
theorem writeWarning_unknown {s : State} {w : Fin 96} {word : Word} (ha : word ≠ Config.ackWord)
    (hs : word ≠ Config.setWord) (hr : word ≠ Config.resetWord) : s.writeWarning w word = s.violation := by
  unfold State.writeWarning
  rw [if_neg ha, if_neg hs, if_neg hr, ite_self]

end Sys2Proof.Machine

open Sys2Proof Sys2Proof.Machine

/-- Settles O28: each of the writes ends in `State.violation`. -/
theorem warningCellViolations : Obligations.WarningCellViolations := by
  rintro w c s h (⟨word, lanes, rfl, hv⟩ | ⟨hc, hk⟩)
  · apply gives_violation
    rw [exec_windowWrite_offWarning h]
    by_cases hl : lanes = 0xF
    · obtain ⟨ha, hs, hr⟩ := hv.resolve_left fun e => e hl
      rw [if_pos hl, writeWarning_unknown ha hs hr]
    · rw [if_neg hl]
  · apply gives_violation
    rcases hc with rfl | rfl | ⟨word, rfl, hw⟩
    · show Host.Outcome.next (s.live _) = _
      rw [live_running h.1, hostWriteAt_offWarning h, writeWarning_unset (.inl rfl) hk]
    · show Host.Outcome.next (s.live _) = _
      rw [live_running h.1, hostWriteAt_offWarning h, writeWarning_unset (.inr rfl) hk]
    · rw [exec_windowWrite_offWarning h, if_pos rfl, writeWarning_unset hw hk]

end

section
/-! The display order: a list in ascending order of one number, whose digits are the five keys of R87 (04). -/

namespace Sys2Proof.Machine

/-! ## A list in ascending order of a key -/

theorem insertByKey_sorted {α : Type} (key : α → Nat) (x : α) {l : List α} (h : l.Pairwise (fun a b => key a ≤ key b)) :
    (insertByKey key x l).Pairwise (fun a b => key a ≤ key b) := by
  induction l with
  | nil => exact List.pairwise_singleton ..
  | cons y ys ih =>
    obtain ⟨hy, hys⟩ := List.pairwise_cons.mp h
    unfold insertByKey
    split
    · next hxy =>
      refine List.pairwise_cons.mpr ⟨fun z hz => ?_, h⟩
      rcases List.mem_cons.mp hz with rfl | hz
      · exact hxy
      · exact Nat.le_trans hxy (hy z hz)
    · next hxy =>
      refine List.pairwise_cons.mpr ⟨fun z hz => ?_, ih hys⟩
      rcases List.mem_cons.mp ((insertByKey_perm key x ys).mem_iff.mp hz) with rfl | hz
      · omega
      · exact hy z hz

theorem sortByKey_sorted {α : Type} (key : α → Nat) (l : List α) :
    (sortByKey key l).Pairwise (fun a b => key a ≤ key b) := by
  induction l with
  | nil => exact .nil
  | cons x xs ih => exact insertByKey_sorted key x ih

/-! ## The keys as digits of one number -/

/-- Of two numbers written to a base, the leading part decides, and where it is the same, the last digit. -/
theorem lt_of_digits_lt {m a b c d : Nat} (hd : d < m) (h : a * m + b < c * m + d) : a < c ∨ a = c ∧ b < d := by
  rcases Nat.lt_trichotomy a c with hac | rfl | hca
  · exact .inl hac
  · exact .inr ⟨rfl, by omega⟩
  · have := Nat.mul_le_mul_right m hca
    rw [Nat.succ_mul] at this
    omega

/-- A further digit of the leading part, `P` deciding where all of it is the same. -/
theorem lex_of_digits {m a b c d : Nat} {P : Prop} (hb : b < m) (hd : d < m)
    (h : a * m + b < c * m + d ∨ a * m + b = c * m + d ∧ P) : a < c ∨ a = c ∧ (b < d ∨ b = d ∧ P) := by
  rcases h with h | ⟨he, hP⟩
  · exact (lt_of_digits_lt hd h).imp_right (And.imp_right .inl)
  · have hm : 0 < m := Nat.zero_lt_of_lt hb
    have hq : a = c := by
      have := congrArg (· / m) he
      simpa [Nat.add_div_of_dvd_right, Nat.mul_comm, Nat.mul_add_div hm, Nat.div_eq_of_lt hb, Nat.div_eq_of_lt hd] using this
    exact .inr ⟨hq, .inr ⟨by subst hq; omega, hP⟩⟩

/-- A smaller display key is an earlier place by the five keys of R87: the first in which they differ decides. -/
theorem keys_lt_of_displayKey_lt {c d : WarnCfg} {v w : Warning} {i j : Fin 96}
    (h : displayKey c v i < displayKey d w j) :
    toLex (c.cls.toNat, toLex ((if v.state = .activeUnack then 0 else 1 : Nat),
        toLex (255 - c.priority, toLex (v.time.toNat, i.val)))) <
      toLex (d.cls.toNat, toLex ((if w.state = .activeUnack then 0 else 1 : Nat),
        toLex (255 - d.priority, toLex (w.time.toNat, j.val)))) := by
  have hrank : ∀ x : Warning, (if x.state = .activeUnack then 0 else 1 : Nat) < 2 := fun x => by split <;> decide
  have htime := lex_of_digits v.time.isLt w.time.isLt (lt_of_digits_lt j.isLt h)
  have hprio := lex_of_digits (m := 256) (by omega) (by omega) htime
  simpa only [Prod.Lex.toLex_lt_toLex] using lex_of_digits (hrank v) (hrank w) hprio

/-- No two warnings have the same display key: its last digit is the index. -/
theorem displayKey_injective (s : State) :
    Function.Injective fun i => displayKey (s.profile.warnings.get i) (s.warn.rows.get i) i := fun i j h => by
  have hi := i.isLt
  have hj := j.isLt
  simp only [displayKey] at h
  exact Fin.ext (by omega)

/-! ## The display order (R87) -/

theorem displayOrder_perm (s : State) : s.displayOrder.Perm (s.warn.rows.indices fun w => w.state.isActive) := sortByKey_perm _ _

theorem displayOrder_nodup (s : State) : s.displayOrder.Nodup := (displayOrder_perm s).nodup_iff.mpr (indices_nodup _ _)

theorem isActive_iff (x : WarnState) : x.isActive = true ↔ x = .activeUnack ∨ x = .activeAck := by cases x <;> decide

/-- The display order lists the active warnings. -/
theorem mem_displayOrder (s : State) (w : Fin 96) :
    w ∈ s.displayOrder ↔ (s.warn.rows.get w).state = .activeUnack ∨ (s.warn.rows.get w).state = .activeAck := by
  rw [(displayOrder_perm s).mem_iff, mem_indices, isActive_iff]

/-- Of two places of the display order the earlier one has the smaller key. -/
theorem displayOrder_keys {s : State} {i j : Nat} {v w : Fin 96} (hv : s.displayOrder[i]? = some v)
    (hw : s.displayOrder[j]? = some w) (hij : i < j) :
    displayKey (s.profile.warnings.get v) (s.warn.rows.get v) v < displayKey (s.profile.warnings.get w) (s.warn.rows.get w) w := by
  obtain ⟨hi, rfl⟩ := List.getElem?_eq_some_iff.mp hv
  obtain ⟨hj, rfl⟩ := List.getElem?_eq_some_iff.mp hw
  have hne : s.displayOrder[i] ≠ s.displayOrder[j] := fun e =>
    Nat.ne_of_lt hij ((displayOrder_nodup s).getElem_inj_iff.mp e)
  have hle := List.pairwise_iff_getElem.mp (sortByKey_sorted _ _ : s.displayOrder.Pairwise _) i j hi hj hij
  exact Nat.lt_of_le_of_ne hle fun e => hne (displayKey_injective s e)

end Sys2Proof.Machine

open Sys2Proof Sys2Proof.Machine

/-- Settles O29: the order is that of one number, whose digits are the five keys. -/
theorem displayOrder : Obligations.DisplayOrder := fun s _ =>
  ⟨displayOrder_nodup s, mem_displayOrder s, fun _ _ _ _ hv hw hij => keys_lt_of_displayKey_lt (displayOrder_keys hv hw hij)⟩

end

section
/-! The host's reads: what a word of the window answers, and the reads with an effect (06, R119, R120, R128, R129, R133; 04, R83). -/

namespace Sys2Proof.Machine

/-! ## The latest word of an image word (R120) -/

theorem latestWord_queued {s : State} {off : Nat} {w : Word} (hn : (s.path.queue.map Prod.fst).Nodup)
    (h : (off, w) ∈ s.path.queue) : s.latestWord off = w := by
  unfold State.latestWord
  cases hf : s.path.queue.find? (fun e => e.1 = off) with
  | none => exact absurd (List.find?_eq_none.mp hf (off, w) h) (by simp)
  | some e =>
    have he : e.1 = off := by simpa using List.find?_some hf
    exact congrArg Prod.snd (List.inj_on_of_nodup_map hn (List.mem_of_find?_eq_some hf) h he)

/-- A word that no entry of the queue holds is composed while it is marked, and is SRAM's otherwise. -/
theorem latestWord_unqueued {s : State} {off : Nat} (h : off ∉ s.path.queue.map Prod.fst) :
    s.latestWord off = if off ∈ s.path.resync then s.imageWord off else s.sramWord (s.windowAddr off) := by
  have hf : s.path.queue.find? (fun e => e.1 = off) = none :=
    List.find?_eq_none.mpr fun e he => by
      have : e.1 ≠ off := fun hx => h (hx ▸ List.mem_map_of_mem he)
      simpa using this
  unfold State.latestWord
  rw [hf]
  simp only [List.contains_iff_mem]

/-! ## What a read leaves of the warnings (R83) -/

/-- The warning's row after a read of its cell: armed when it is ACTIVE_UNACK (R83). -/
def Warning.readFrom (x : Warning) : Warning := { x with armed := x.armed || decide (x.state = .activeUnack) }

theorem arm_rows (s : State) (w v : Fin 96) :
    (s.arm w).warn.rows.get v = if v = w then (s.warn.rows.get w).readFrom else s.warn.rows.get v := by
  unfold State.arm
  split
  · next h =>
    by_cases hv : v = w
    · subst hv
      simp [Warning.readFrom, h]
    · simp [Table.get_modify_ne _ (Ne.symm hv), hv]
  · next h =>
    by_cases hv : v = w
    · subst hv
      simp [Warning.readFrom, h]
    · rw [if_neg hv]

/-- A read of an image word: answered or forwarded, and then its warning armed. -/
theorem readImage_split (s : State) (off : Nat) :
    ∃ u, Evolves [.readData, .held] s u ∧ u.warn = s.warn ∧
      s.readImage off = (warningAt off).elim u u.arm := by
  refine ⟨if s.path.atHand off then s.answer (s.latestWord off) else s.forward (.read (s.latestWord off)), ?_, ?_, ?_⟩
  · exact Evolves.ite ((answer_evolves _ _).mono (by decide)) (forwardRead_evolves _ _)
  · unfold State.forward
    split
    · rfl
    · split <;> rfl
  · unfold State.readImage
    cases warningAt off <;> rfl

theorem readImage_keeps {s : State} {off : Nat} (h : warningAt off = none) : KeepsBut [.readData, .held] s (s.readImage off) := by
  obtain ⟨u, hu, -, he⟩ := readImage_split s off
  rw [he, h, Option.elim_none]
  exact hu.keeps

theorem readImage_arms {s : State} {off : Nat} {w : Fin 96} (h : warningAt off = some w) :
    KeepsBut [.readData, .held, .warnings] s (s.readImage off) ∧
      (∀ v, v ≠ w → (s.readImage off).warn.rows.get v = s.warn.rows.get v) ∧
      (s.readImage off).warn.rows.get w = (s.warn.rows.get w).readFrom := by
  obtain ⟨u, hu, hw, he⟩ := readImage_split s off
  rw [he, h, Option.elim_some]
  refine ⟨(hu.keeps.mono (by decide)).trans ((arm_evolves u w).keeps.mono (by decide)), fun v hv => ?_, ?_⟩
  · rw [arm_rows, if_neg hv, hw]
  · rw [arm_rows, if_pos rfl, hw]

/-! ## The reads of the window (R119, R128, R133) -/

theorem readOffset_live {s : State} {off : Nat} (h : off = 0x0690 ∨ off = 0x069C ∨ off = 0x06A0) :
    s.readOffset off = s.forward (.read (s.sramWord (s.windowAddr off))) := if_pos ((isLiveCell_iff off).mpr h)

/-- A closed window answers zero but for its live cells (R128). -/
theorem readOffset_closed {s : State} {off : Nat} (hl : ¬ (off = 0x0690 ∨ off = 0x069C ∨ off = 0x06A0))
    (h : s.path.windowOpen = false) : s.readOffset off = s.answer 0 := by
  unfold State.readOffset
  rw [if_neg fun e => hl ((isLiveCell_iff off).mp e), h]
  rfl

theorem readOffset_summary {s : State} (h : s.path.windowOpen = true) : s.readOffset offSummary = s.readSummary := by
  unfold State.readOffset
  rw [if_neg fun e => absurd ((isLiveCell_iff _).mp e) (by decide), h]
  rfl

theorem isImageOffset_iff (off : Nat) :
    isImageOffset off = true ↔ off % 4 = 0 ∧
      (off < 0x0460 ∨ 0x0480 ≤ off ∧ off < 0x0680 ∨ off = 0x0694 ∨ off = 0x06A4 ∨ off = 0x06A8 ∨ off = 0x06AC ∨
        0x0700 ≤ off ∧ off < 0x1000) := by
  simp only [isImageOffset, Bool.and_eq_true, Bool.or_eq_true, decide_eq_true_iff, or_assoc]
  rfl

theorem readOffset_image {s : State} {off : Nat} (h : s.path.windowOpen = true) (hi : isImageOffset off = true) :
    s.readOffset off = s.readImage off := by
  have hplace := ((isImageOffset_iff off).mp hi).2
  unfold State.readOffset
  rw [if_neg fun e => absurd ((isLiveCell_iff off).mp e) (by omega), h,
    if_neg (by decide), if_neg (show off ≠ offSummary by unfold offSummary; omega), if_pos hi]

/-- A word of an open window that is neither an image word, nor live, nor the attention summary, is SRAM's. -/
theorem readOffset_plain {s : State} {off : Nat} (h : s.path.windowOpen = true)
    (hp : 0x0460 ≤ off ∧ off < 0x0480 ∨ 0x0680 ≤ off ∧ off < 0x0690 ∨ 0x06B0 ≤ off ∧ off < 0x0700 ∨ 0x1000 ≤ off) :
    s.readOffset off = s.forward (.read (s.sramWord (s.windowAddr off))) := by
  unfold State.readOffset
  rw [if_neg fun e => absurd ((isLiveCell_iff off).mp e) (by omega), h,
    if_neg (by decide), if_neg (show off ≠ offSummary by unfold offSummary; omega),
    if_neg fun e => absurd ((isImageOffset_iff off).mp e) (by omega)]

/-! ## The commands -/

theorem gives_forwardRead {c : Instr} {s : State} {w : Word} (he : exec c s = .next (s.forward (.read w))) :
    Gives c s [.readData, .held] (fun t => Returns s t w) :=
  ⟨_, he, (forwardRead_evolves s w).keeps, forwardRead_returns s w⟩

theorem gives_zero {c : Instr} {s : State} (he : exec c s = .next (s.answer 0)) :
    Gives c s [.readData] (fun t => t.path.readData = 0) := ⟨_, he, (answer_evolves s 0).keeps, rfl⟩

/-- A summary read returns the pending causes and removes them (R133). -/
theorem gives_summary {c : Instr} {s : State} (he : exec c s = .next s.readSummary) :
    Gives c s [.readData, .attnPending] (fun t =>
      t.path.readData = s.path.attnPending.setWidth 32 ∧ t.path.attnPending = 0 ∧ t.atn = false) := by
  refine ⟨_, he, (readSummary_evolves s).keeps, rfl, rfl, ?_⟩
  show decide ((0 : BitVec 10) &&& s.path.attnEnable ≠ 0) = false
  simp

theorem exec_warningCellRead {s : State} (hr : s.running) (hp : s.portFree = true) (w : Fin 96) :
    exec (.warningCellRead w) s = .next (s.readOffset (offWarning w)) := by
  show Host.Outcome.next (s.live _) = _
  rw [live_running hr, if_pos hp]

theorem exec_attentionSummaryRead {s : State} (hr : s.running) (hp : s.portFree = true) :
    exec .attentionSummaryRead s = .next (s.readOffset offSummary) := by
  show Host.Outcome.next (s.live _) = _
  rw [live_running hr, if_pos hp]

theorem exec_imageWordRead {s : State} (hr : s.running) (hp : s.portFree = true) {a : BitVec 22} {off : Nat}
    (h : s.windowOffset a = some off) : exec (.imageWordRead a) s = .next (s.readOffset off) := by
  show Host.Outcome.next (s.live _) = _
  rw [live_running hr]
  unfold State.hostRead
  rw [if_pos hp, h]

theorem exec_imageWordRead_outside {s : State} (hr : s.running) (hp : s.portFree = true) {a : BitVec 22}
    (h : s.windowOffset a = none) : exec (.imageWordRead a) s = .next (s.forward (.read (s.sramWord (4 * a.toNat)))) := by
  show Host.Outcome.next (s.live _) = _
  rw [live_running hr, Nat.mul_comm]
  unfold State.hostRead
  rw [if_pos hp, h]

end Sys2Proof.Machine

open Sys2Proof Sys2Proof.Machine

/-- Settles O26: a warning's cell is an image word whose read arms it, the summary a word of its own. -/
theorem readsWithAnEffect : Obligations.ReadsWithAnEffect := by
  refine ⟨fun w s hr hp => ⟨fun ho => ?_, fun hc => ?_⟩, fun s hr hp => ⟨fun ho => ?_, fun hc => ?_⟩⟩
  · obtain ⟨hkeeps, hothers, hself⟩ := readImage_arms (s := s) (warningAt_offWarning w)
    refine ⟨_, exec_warningCellRead hr hp w, ?_⟩
    rw [readOffset_image ho (isImageOffset_offWarning w)]
    exact ⟨hkeeps, readImage_reads s _, hothers, hself⟩
  · refine gives_zero ((exec_warningCellRead hr hp w).trans (congrArg _ (readOffset_closed (fun e => ?_) hc)))
    exact absurd ((isLiveCell_iff _).mpr e) (by simp [isLiveCell_offWarning])
  · exact gives_summary ((exec_attentionSummaryRead hr hp).trans (congrArg _ (readOffset_summary ho)))
  · exact gives_zero ((exec_attentionSummaryRead hr hp).trans (congrArg _ (readOffset_closed (by decide) hc)))

end

section
/-! The words of the window, region by region, and their layouts (06, Table 6-1; 12, Tables 12-1 to 12-5). -/

namespace Sys2Proof.Machine

/-! ## The word at an offset, by its region (Table 6-1) -/

section

variable (s : State)

theorem imageWord_door (d : Fin 6) {k : Nat} (hk : k < 4) : s.imageWord (offDoor d k) = doorWord (s.door.doors.get d) k := by
  have hlo : ¬ offDoor d k < 0x0400 := by unfold offDoor; omega
  have hhi : offDoor d k < 0x0460 := by unfold offDoor; omega
  have hrow : (offDoor d k - 0x0400) / 16 = d.val := by unfold offDoor; omega
  have hword : (offDoor d k - 0x0400) % 16 / 4 = k := by unfold offDoor; omega
  unfold State.imageWord
  rw [if_neg hlo, if_pos hhi, hrow, hword, get?_val]
  rfl

theorem imageWord_warning (w : Fin 96) : s.imageWord (offWarning w) = warningWord (s.warn.rows.get w) := by
  obtain ⟨hlo, hhi, -⟩ := offWarning_bounds w
  have hrow : (offWarning w - 0x0480) / 4 = w.val := by unfold offWarning; omega
  unfold State.imageWord
  rw [if_neg (by omega), if_neg (by omega), if_neg (by omega), if_pos hhi, hrow, get?_val]
  rfl

theorem imageWord_display {k : Nat} (hk : k < 8) : s.imageWord (offDisplay k) = s.displayWord k := by
  have hlo : 0x0600 ≤ offDisplay k := Nat.le_add_right ..
  have hhi : offDisplay k < 0x0620 := by unfold offDisplay; omega
  have hrow : (offDisplay k - 0x0600) / 4 = k := by unfold offDisplay; omega
  unfold State.imageWord
  rw [if_neg (by omega), if_neg (by omega), if_neg (by omega), if_neg (by omega), if_pos hhi, hrow]

theorem imageWord_gaugeActual (g : Fin 12) : s.imageWord (offGaugeActual g) = gaugeActualWord (s.ind.gauges.get g) := by
  have hlo : 0x0620 ≤ offGaugeActual g := by unfold offGaugeActual; omega
  have hhi : offGaugeActual g < 0x0680 := by unfold offGaugeActual; omega
  have hrow : (offGaugeActual g - 0x0620) / 8 = g.val := by unfold offGaugeActual; omega
  have hword : ¬ (offGaugeActual g - 0x0620) % 8 < 4 := by unfold offGaugeActual; omega
  unfold State.imageWord
  rw [if_neg (by omega), if_neg (by omega), if_neg (by omega), if_neg (by omega), if_neg (by omega), if_pos hhi, hrow,
    get?_val]
  simp [hword]

theorem imageWord_line (l : Fin 3) {k : Nat} (hk : k < 8) : s.imageWord (offLine l k) = lineWord (s.rx.lines.get l) k := by
  have hrow : (offLine l k - 0x0700) / 32 = l.val := by unfold offLine; omega
  have hword : (offLine l k - 0x0700) % 32 / 4 = k := by unfold offLine; omega
  rw [imageWord_lines s _ (by unfold offLine; omega) (by unfold offLine; omega), hrow, hword, get?_val]
  rfl

theorem imageWord_arrival (k : Fin 32) : s.imageWord (0x0780 + 4 * k.val) = s.rx.arrivalWord k.val := by
  rw [imageWord_arrivals s _ (by omega) (by omega), show (0x0780 + 4 * k.val - 0x0780) / 4 = k.val by omega]

theorem imageWord_record (i : Fin 32) {k : Nat} (hk : k < 16) :
    s.imageWord (offRecord i k) = recordWord (s.fm.records.get i) k := by
  have hrow : (offRecord i k - 0x0800) / 64 = i.val := by unfold offRecord; omega
  have hword : (offRecord i k - 0x0800) % 64 / 4 = k := by unfold offRecord; omega
  rw [imageWord_records s _ (by unfold offRecord; omega) (by unfold offRecord; omega), hrow, hword, get?_val]
  rfl

/-- The words between the ever-received flags and the arrival counts. -/
theorem imageWord_reserved {off : Nat} (hlo : 0x0768 ≤ off) (hhi : off < 0x0780) : s.imageWord off = 0 := by
  have place : ∀ o : Nat, o < 0x0768 → off ≠ o := fun o ho => by omega
  unfold State.imageWord
  rw [if_neg (by omega), if_neg (by omega), if_neg (by omega), if_neg (by omega), if_neg (by omega), if_neg (by omega),
    if_neg (place offResult (by decide)), if_neg (place offStatus (by decide)), if_neg (place offCountA (by decide)),
    if_neg (place offCountB (by decide)), if_neg (by omega), if_neg (by omega), if_neg (by omega), if_neg (by omega),
    if_pos hhi]

end

/-! ## The ever-received flags (Table 12-4) -/

theorem field_one_getLsbD (k i : Nat) (hi : i < 32) : (field k 1).getLsbD i = decide (i = k) := by
  unfold field
  rw [BitVec.getLsbD_ofNat, Nat.one_mul, Nat.testBit_two_pow]
  simp [hi, eq_comm]

theorem foldl_flags_getLsbD (l : List Nat) (w : Word) {i : Nat} (hi : i < 32) :
    (l.foldl (fun w k => w ||| field k 1) w).getLsbD i = (w.getLsbD i || decide (i ∈ l)) := by
  induction l generalizing w with
  | nil => simp
  | cons k l ih =>
    rw [List.foldl_cons, ih, BitVec.getLsbD_or, field_one_getLsbD k i hi, Bool.or_assoc]
    simp [List.mem_cons]

theorem everWord_getLsbD (u : LineUnit) (base : Nat) {i : Nat} (hi : i < 32) :
    (u.everWord base).getLsbD i = ((u.slots.get? (base + i)).map Slot.ever).getD false := by
  unfold LineUnit.everWord
  rw [foldl_flags_getLsbD _ _ hi]
  simp [List.mem_filter, hi]

/-- The flag of a slot, in the word of the 32 slots that it lies among. -/
theorem imageWord_ever (s : State) (k : Fin 64) :
    (s.imageWord (0x0760 + 4 * (k.val / 32))).getLsbD (k.val % 32) = (s.rx.slots.get k).ever := by
  have hword : s.imageWord (0x0760 + 4 * (k.val / 32)) = s.rx.everWord (32 * (k.val / 32)) := by
    rcases (by omega : k.val / 32 = 0 ∨ k.val / 32 = 1) with h | h <;> rw [h] <;> rfl
  rw [hword, everWord_getLsbD _ _ (Nat.mod_lt _ (by decide)), show 32 * (k.val / 32) + k.val % 32 = k.val by omega, get?_val]
  rfl

/-! ## A fault record's cell (Table 12-5) -/

theorem recordWord_head (r : Record) : (recordWord (some r) 0).toNat =
    r.code.kind.toNat + 2 ^ 8 * r.code.subject.toNat + 2 ^ 16 * r.state.toNat + 2 ^ 24 * r.frame.isSome.toNat :=
  ((((reads_field (k := 4) (by cases r.code.kind <;> decide)).or r.code.subject.isLt).or (k := 2)
    (by cases r.state <;> decide)).orFlag r.frame.isSome).value

theorem recordWord_counts (r : Record) : (recordWord (some r) 1).toNat = r.occurrence.toNat + 2 ^ 8 * r.healing.toNat :=
  ((reads_field r.occurrence.isLt).or r.healing.isLt).value

theorem momentCycle_toNat (m : Moment) : (momentCycle (some m)).toNat = m.cycle.toNat := by
  have := m.cycle.isLt
  show (m.cycle.setWidth 32).toNat = _
  rw [BitVec.toNat_setWidth, Nat.mod_eq_of_lt (by omega)]

/-- The head word of a freeze frame, its counts fitting their three bits. -/
theorem recordWord_frame {r : Record} {f : Frame} (h : r.frame = some f) (ho : f.openCount < 8) (he : f.entries.length ≤ 4) :
    (recordWord (some r) 6).toNat = f.motion.toNat + 2 ^ 4 * f.openCount + 2 ^ 8 * f.entries.length := by
  have hword : recordWord (some r) 6 = field 0 f.motion.toNat ||| field 4 f.openCount ||| field 8 f.entries.length := by
    simp only [recordWord, h]
  rw [hword]
  exact (((reads_field (k := 2) (by cases f.motion <;> decide)).or (k := 3) ho).or (k := 3) (by omega)).value

/-- The words of the freeze entries. -/
theorem recordWord_entry {r : Record} {f : Frame} (h : r.frame = some f) {i : Nat} (hi : i < 4) :
    recordWord (some r) (7 + i) = (f.entries[i]?.map freezeWord).getD 0 := by
  rcases (by omega : i = 0 ∨ i = 1 ∨ i = 2 ∨ i = 3) with rfl | rfl | rfl | rfl <;>
    (simp only [recordWord, h]; split <;> simp [*])

theorem recordWord_frameless {r : Record} (h : r.frame = none) {k : Nat} (hlo : 6 ≤ k) (hhi : k ≤ 10) :
    recordWord (some r) k = 0 := by
  rcases (by omega : k = 6 ∨ k = 7 ∨ k = 8 ∨ k = 9 ∨ k = 10) with rfl | rfl | rfl | rfl | rfl <;> simp only [recordWord, h]

theorem recordWord_rest (r : Record) {k : Nat} (hlo : 11 ≤ k) (hhi : k ≤ 15) : recordWord (some r) k = 0 := by
  rcases (by omega : k = 11 ∨ k = 12 ∨ k = 13 ∨ k = 14 ∨ k = 15) with rfl | rfl | rfl | rfl | rfl <;> rfl

theorem recordWord_shows (r : Record) : ShowsRecord (recordWord (some r)) r where
  head := recordWord_head r
  counts := recordWord_counts r
  first m h := by
    show (momentCycle r.first).toNat = _ ∧ momentMs r.first = _
    rw [h]
    exact ⟨momentCycle_toNat m, rfl⟩
  noFirst h := by
    show momentCycle r.first = 0 ∧ momentMs r.first = 0
    rw [h]
    exact ⟨rfl, rfl⟩
  last m h := by
    show (momentCycle r.last).toNat = _ ∧ momentMs r.last = _
    rw [h]
    exact ⟨momentCycle_toNat m, rfl⟩
  noLast h := by
    show momentCycle r.last = 0 ∧ momentMs r.last = 0
    rw [h]
    exact ⟨rfl, rfl⟩
  frame f h ho he := by
    refine ⟨recordWord_frame h ho he, fun i hi => ⟨fun hn => ?_, fun e hs => ?_⟩⟩
    · rw [recordWord_entry h hi, hn]
      rfl
    · rw [recordWord_entry h hi, hs]
      exact (freezeWord_reads e).value
  noFrame h _ hlo hhi := recordWord_frameless h hlo hhi
  rest _ hlo hhi := recordWord_rest r hlo hhi

/-- A cell shows a record by its sixteen words. -/
theorem ShowsRecord.congr {f g : Nat → Word} {r : Record} (h : ShowsRecord f r) (he : ∀ k, k < 16 → g k = f k) :
    ShowsRecord g r := by
  obtain ⟨head, counts, first, noFirst, last, noLast, frame, noFrame, rest⟩ := h
  constructor
  · rwa [he 0 (by decide)]
  · rwa [he 1 (by decide)]
  · rwa [he 2 (by decide), he 3 (by decide)]
  · rwa [he 2 (by decide), he 3 (by decide)]
  · rwa [he 4 (by decide), he 5 (by decide)]
  · rwa [he 4 (by decide), he 5 (by decide)]
  · intro x h ho hl
    obtain ⟨h6, hentries⟩ := frame x h ho hl
    refine ⟨by rwa [he 6 (by decide)], fun i hi => ?_⟩
    rw [he (7 + i) (by omega)]
    exact hentries i hi
  · intro h k hlo hhi
    rw [he k (by omega), noFrame h k hlo hhi]
  · intro k hlo hhi
    rw [he k (by omega), rest k hlo hhi]

/-! ## Every image word (Tables 12-1 to 12-5) -/

theorem openCount_le {u : DoorUnit} (h : u.Inv) : u.openCount ≤ 6 := by
  have hlen := List.length_filter_le (fun i => (u.doors.get i).countsOpen) (List.finRange 6)
  rw [List.length_finRange] at hlen
  exact h ▸ hlen

theorem imageWord_lineCounts (s : State) (l : Fin 3) :
    Halves (s.imageWord (0x0704 + 32 * l.val)) (s.rx.lines.get l).counts.accepted (s.rx.lines.get l).counts.ignored ∧
    Halves (s.imageWord (0x0708 + 32 * l.val)) (s.rx.lines.get l).counts.noise (s.rx.lines.get l).counts.framing ∧
    Halves (s.imageWord (0x070C + 32 * l.val)) (s.rx.lines.get l).counts.truncated (s.rx.lines.get l).counts.long ∧
    Halves (s.imageWord (0x0710 + 32 * l.val)) (s.rx.lines.get l).counts.check (s.rx.lines.get l).counts.length ∧
    Halves (s.imageWord (0x0714 + 32 * l.val)) (s.rx.lines.get l).counts.brk (s.rx.lines.get l).counts.breaks ∧
    Halves (s.imageWord (0x0718 + 32 * l.val)) (s.rx.lines.get l).counts.collisions 0 ∧
    s.imageWord (0x071C + 32 * l.val) = 0 := by
  have word : ∀ k off : Nat, k < 8 → off = offLine l k → s.imageWord off = lineWord (s.rx.lines.get l) k :=
    fun k off hk ho => ho ▸ imageWord_line s l hk
  rw [word 1 _ (by decide) (by unfold offLine; omega), word 2 _ (by decide) (by unfold offLine; omega),
    word 3 _ (by decide) (by unfold offLine; omega), word 4 _ (by decide) (by unfold offLine; omega),
    word 5 _ (by decide) (by unfold offLine; omega), word 6 _ (by decide) (by unfold offLine; omega),
    word 7 _ (by decide) (by unfold offLine; omega)]
  exact ⟨countPair_halves _ _, countPair_halves _ _, countPair_halves _ _, countPair_halves _ _, countPair_halves _ _,
    countPair_halves _ _, rfl⟩

theorem imageWord_doorCounts (s : State) (d : Fin 6) :
    s.imageWord (0x0404 + 16 * d.val) = 0 ∧ s.imageWord (0x0408 + 16 * d.val) = (s.door.doors.get d).openCycles ∧
      s.imageWord (0x040C + 16 * d.val) = (s.door.doors.get d).obstructions := by
  have word : ∀ k off : Nat, k < 4 → off = offDoor d k → s.imageWord off = doorWord (s.door.doors.get d) k :=
    fun k off hk ho => ho ▸ imageWord_door s d hk
  rw [word 1 _ (by decide) (by unfold offDoor; omega), word 2 _ (by decide) (by unfold offDoor; omega),
    word 3 _ (by decide) (by unfold offDoor; omega)]
  exact ⟨rfl, rfl, rfl⟩

theorem arrivalWord_halves (u : LineUnit) (k : Fin 32) :
    Halves (u.arrivalWord k.val) (u.slots.get ⟨2 * k.val, by omega⟩).arrivals (u.slots.get ⟨2 * k.val + 1, by omega⟩).arrivals := by
  have slot : ∀ i : Fin 64, ((u.slots.get? i.val).map Slot.arrivals).getD 0 = (u.slots.get i).arrivals := fun i => by
    rw [get?_val]
    rfl
  unfold LineUnit.arrivalWord
  rw [slot ⟨2 * k.val, by omega⟩, slot ⟨2 * k.val + 1, by omega⟩]
  exact countPair_halves _ _

/-- Every image word is laid out as chapter 12 gives it: the open count of the doors fits its three bits. -/
theorem windowLayout {s : State} (h : s.door.Inv) : s.WindowLayout where
  signal n := (congrArg BitVec.toNat (imageWord_signal s n)).trans (signalWord_reads _).value
  door d := (congrArg BitVec.toNat (imageWord_door s d (by decide : 0 < 4))).trans (doorStateWord_reads _).value
  doorCounts d := imageWord_doorCounts s d
  warning w := (congrArg BitVec.toNat (imageWord_warning s w)).trans (warningWord_reads _).value
  display k w hk hw := (congrArg BitVec.toNat (imageWord_display s hk)).trans (displayWord_reads s k w hw).value
  noDisplay k hk hn := (imageWord_display s hk).trans (by unfold State.displayWord; rw [hn])
  gaugeTarget g hg := by
    refine (congrArg BitVec.toNat (imageWord_gaugeTarget s g)).trans ?_
    rw [BitVec.toNat_ofNat, Nat.mod_eq_of_lt (by omega)]
  gaugeActual g hg := (congrArg BitVec.toNat (imageWord_gaugeActual s g)).trans (gaugeActualWord_reads _ hg).value
  result := (resultWord_reads s.path.result).value
  status := statusWord_toNat s (openCount_le h)
  counts := ⟨countPair_halves _ _, countPair_halves _ _⟩
  lineState l := (congrArg BitVec.toNat (imageWord_line s l (by decide : 0 < 8))).trans (lineWord_zero_reads _).value
  lineCounts l := imageWord_lineCounts s l
  ever k := imageWord_ever s k
  arrivals k := by
    rw [imageWord_arrival]
    exact arrivalWord_halves _ k
  zeros _ hlo hhi := imageWord_reserved s hlo hhi
  record i r hr := (recordWord_shows r).congr fun k hk => (imageWord_record s i hk).trans (by rw [hr])
  noRecord i k hn hk := (imageWord_record s i hk).trans (by rw [hn]; rfl)

/-- The numbers of chapter 12. -/
theorem windowNumbers : WindowNumbers := by constructor <;> rfl

end Sys2Proof.Machine
end

section
/-! A host read of any word: which words it reaches, and where the newest of each stands (06, R119, R120, R128, R133). -/

namespace Sys2Proof.Machine

theorem warningAt_none {off : Nat} (h : off < 0x0480 ∨ 0x0600 ≤ off) : warningAt off = none :=
  dif_neg (by omega)

theorem warningAt_some {off : Nat} (hlo : 0x0480 ≤ off) (hhi : off < 0x0600) : ∃ w, warningAt off = some w :=
  ⟨_, dif_pos (by omega)⟩

/-- The frame of a read of an image word: the cell of a warning lies in the warning region. -/
theorem readImage_frame {s : State} {off : Nat} {parts : List Part}
    (h : (off < 0x0480 ∨ 0x0600 ≤ off) ∧ parts = [.readData, .held] ∨
      0x0480 ≤ off ∧ off < 0x0600 ∧ parts = [.readData, .held, .warnings]) : KeepsBut parts s (s.readImage off) := by
  rcases h with ⟨hoff, rfl⟩ | ⟨hlo, hhi, rfl⟩
  · exact readImage_keeps (warningAt_none hoff)
  · obtain ⟨w, hw⟩ := warningAt_some hlo hhi
    exact (readImage_arms hw).1

/-- What a read of an image word returns, by where its newest word stands (R120). -/
theorem readImage_returns {s : State} (hp : s.portFree = true) (off : Nat) :
    (∀ w, (off, w) ∈ s.path.queue → (s.path.queue.map Prod.fst).Nodup →
      (s.readImage off).path.readData = w ∧ (s.readImage off).path.held = none) ∧
    (off ∉ s.path.queue.map Prod.fst → off ∈ s.path.resync →
      (s.readImage off).path.readData = s.imageWord off ∧ (s.readImage off).path.held = none) ∧
    (off ∉ s.path.queue.map Prod.fst → off ∉ s.path.resync → Returns s (s.readImage off) (s.sramWord (s.windowAddr off))) := by
  have hnone : s.path.held = none := Option.isNone_iff_eq_none.mp hp
  have hreads := readImage_reads s off
  have athand (h : off ∈ s.path.queue.map Prod.fst ++ s.path.resync) :
      (s.readImage off).path.readData = s.latestWord off ∧ (s.readImage off).path.held = none := by
    unfold ReadsImage at hreads
    rw [if_pos h] at hreads
    exact hreads.imp_right fun e => e.trans hnone
  refine ⟨fun w hm hn => ?_, fun hq hr => ?_, fun hq hr => ?_⟩
  · have := athand (List.mem_append_left _ (List.mem_map_of_mem (f := Prod.fst) hm))
    rwa [latestWord_queued hn hm] at this
  · have := athand (List.mem_append_right _ hr)
    rwa [latestWord_unqueued hq, if_pos hr] at this
  · unfold ReadsImage at hreads
    rwa [if_neg fun h => (List.mem_append.mp h).elim hq hr, latestWord_unqueued hq, if_neg hr] at hreads

end Sys2Proof.Machine

open Sys2Proof Sys2Proof.Machine

/-- Settles O39: the layouts, then a read by the word that it reaches. -/
theorem imageWordReads : Obligations.ImageWordReads := by
  refine ⟨⟨windowNumbers, fun s h => windowLayout h.doors⟩, fun a s hr hp => ⟨fun ha => ?_, fun off ha => ?_⟩⟩
  · exact gives_forwardRead (exec_imageWordRead_outside hr hp ha)
  have he := exec_imageWordRead hr hp ha
  refine ⟨fun hl => ?_, fun hc h1 h2 h3 => ?_, fun ho hoff => ?_, fun ho hoff => ?_, fun parts ho hi hparts => ?_⟩
  · exact gives_forwardRead (he.trans (congrArg _ (readOffset_live hl)))
  · exact gives_zero (he.trans (congrArg _ (readOffset_closed (by omega) hc)))
  · exact gives_forwardRead (he.trans (congrArg _ (readOffset_plain ho hoff)))
  · subst hoff
    obtain ⟨t, ht, hk, hread, hpending, -⟩ := gives_summary (he.trans (congrArg _ (readOffset_summary ho)))
    exact ⟨t, ht, hk, hread, hpending⟩
  · obtain ⟨hqueued, hmarked, hstored⟩ := readImage_returns hp off
    refine ⟨_, he.trans (congrArg _ (readOffset_image ho hi)), readImage_frame hparts, hqueued, hmarked, hstored, ?_⟩
    rintro w rfl
    exact (readImage_arms (warningAt_offWarning w)).2

end

section
/-! The activation machine: what a condition says of the state, what a change of the condition present makes of a warning, and what a
warning event leaves of the table (04, R72 to R81, R89, R91). -/

namespace Sys2Proof.Machine

/-! ## The raw condition (R72 to R76) -/

theorem usable_iff (q : Quality) : q.usable = true ↔ q = .good ∨ q = .substituted := by cases q <;> decide

theorem rows_any_iff {n : Nat} {α : Type} (t : Table n α) (p : α → Bool) : t.rows.any p = true ↔ ∃ i, p (t.get i) = true := by
  rw [List.any_eq_true]
  refine ⟨fun ⟨x, hx, hp⟩ => ?_, fun ⟨i, hp⟩ => ⟨t.get i, List.get_mem _ _, hp⟩⟩
  obtain ⟨i, hi, rfl⟩ := List.mem_iff_getElem.mp hx
  exact ⟨⟨i, t.size ▸ hi⟩, hp⟩

/-- The raw condition is what the condition says of the state. -/
theorem rawCondition_iff (s : State) (w : Warning) (c : Condition) :
    s.rawCondition w c = true ↔ s.conditionHolds w.raw w.hostSet c := by
  have canUse : ∀ n, (s.quality n).usable = true ↔ s.canUse n := fun n => usable_iff _
  cases c with
  | unused => exact iff_of_false Bool.false_ne_true id
  | above n threshold hysteresis =>
    simp only [State.rawCondition, State.conditionHolds, ← canUse]
    split
    · split
      · simp [*]
      · split
        · simp [*]
        · simp [*]
          omega
    · simp [*]
  | below n threshold hysteresis =>
    simp only [State.rawCondition, State.conditionHolds, ← canUse]
    split
    · split
      · simp [*]
      · split
        · simp [*]
        · simp [*]
          omega
    · simp [*]
  | equal n threshold => simp [State.rawCondition, State.conditionHolds, ← canUse]
  | qualityBad n => simp [State.rawCondition, State.conditionHolds, ← canUse]
  | doorOpen mask => simp [State.rawCondition, State.conditionHolds, masked]
  | doorFault mask => simp [State.rawCondition, State.conditionHolds, masked]
  | faultKind k =>
    simp only [State.rawCondition, State.conditionHolds, rows_any_iff, Option.any_eq_true, Bool.and_eq_true, decide_eq_true_iff]
  | hostSet => exact Iff.rfl

/-! ## A change of the condition present (R78 to R80) -/

/-- The machine reads neither the raw condition nor the HOST_SET flag, and a chimed flag is the chime arbiter's. -/
theorem TakesPresence.congr {c : WarnCfg} {clock : BitVec 32} {v w v' w' : Warning} (h : TakesPresence c clock v w)
    (hv : v' = { v with raw := v'.raw, hostSet := v'.hostSet }) (hw : w' = { w with chimed := w'.chimed }) :
    TakesPresence c clock v' w' := by
  rw [hv, hw]
  exact ⟨h.same, h.activated, h.delayed, h.returned, h.withdrawn, h.offDelayed, h.latches, h.ends⟩

theorem conditionYes_present (c : WarnCfg) (clock : BitVec 32) (w : Warning) : (w.conditionYes c clock).present = true := by
  unfold Warning.conditionYes
  dsimp only
  split
  · split <;> rfl
  all_goals rfl

theorem offExpire_present (c : WarnCfg) (w : Warning) : (w.offExpire c).present = w.present := by
  unfold Warning.offExpire
  split <;> rfl

theorem conditionNo_present (c : WarnCfg) (w : Warning) : (w.conditionNo c).present = false := by
  unfold Warning.conditionNo
  dsimp only
  split
  · rfl
  · rfl
  · split
    · exact offExpire_present ..
    · rfl
  · split
    · exact offExpire_present ..
    · rfl

theorem conditionYes_takes {w : Warning} (hp : w.present = false) (c : WarnCfg) (clock : BitVec 32) :
    TakesPresence c clock w (w.conditionYes c clock) := by
  have hy := conditionYes_present c clock w
  cases hs : w.state with
  | inactive =>
    by_cases hd : c.onDelay = 0
    · constructor <;> simp_all [Warning.conditionYes, Warning.activate]
    · constructor <;> simp_all [Warning.conditionYes]
  | pending => constructor <;> simp_all
  | activeUnack => constructor <;> simp_all [Warning.conditionYes]
  | activeAck => constructor <;> simp_all [Warning.conditionYes]

theorem conditionNo_takes {w : Warning} (hp : w.present = true) (c : WarnCfg) (clock : BitVec 32) :
    TakesPresence c clock w (w.conditionNo c) := by
  have hn := conditionNo_present c w
  have active (h : w.state = .activeUnack ∨ w.state = .activeAck) :
      w.conditionNo c = if c.offDelay = 0 then Warning.offExpire c { w with present := false }
        else { w with present := false, timer := some (.offDelay, 0) } := by
    unfold Warning.conditionNo
    rcases h with h | h <;> rw [h]
  cases hs : w.state with
  | inactive => constructor <;> simp_all
  | pending => constructor <;> simp_all [Warning.conditionNo]
  | activeUnack =>
    by_cases hd : c.offDelay = 0
    · constructor <;> simp_all [Warning.offExpire, Warning.toInactive]
    · constructor <;> simp_all
  | activeAck =>
    by_cases hd : c.offDelay = 0
    · constructor <;> simp_all [Warning.offExpire, Warning.toInactive]
    · constructor <;> simp_all

theorem evaluate_same {c : WarnCfg} {clock : BitVec 32} {raw isOpen : Bool} {w : Warning} (h : (raw && isOpen) = w.present) :
    w.evaluate c clock raw isOpen = { w with raw := raw } := if_pos h

theorem evaluate_yes {c : WarnCfg} {clock : BitVec 32} {raw isOpen : Bool} {w : Warning} (h : (raw && isOpen) = true)
    (hp : w.present = false) : w.evaluate c clock raw isOpen = Warning.conditionYes c clock { w with raw := raw } := by
  unfold Warning.evaluate
  simp [h, hp]

theorem evaluate_no {c : WarnCfg} {clock : BitVec 32} {raw isOpen : Bool} {w : Warning} (h : (raw && isOpen) = false)
    (hp : w.present = true) : w.evaluate c clock raw isOpen = Warning.conditionNo c { w with raw := raw } := by
  unfold Warning.evaluate
  simp [h, hp]

/-- What a re-evaluation makes of a warning (R77): the fields that no transition touches, and the transition. -/
structure Evaluated (c : WarnCfg) (clock : BitVec 32) (holds isOpen : Bool) (v w : Warning) : Prop where
  raw : w.raw = holds
  hostSet : w.hostSet = v.hostSet
  present : w.present = (holds && isOpen)
  takes : TakesPresence c clock v w

theorem conditionYes_fields (c : WarnCfg) (clock : BitVec 32) (w : Warning) :
    (w.conditionYes c clock).raw = w.raw ∧ (w.conditionYes c clock).hostSet = w.hostSet := by
  unfold Warning.conditionYes
  dsimp only
  split
  · split <;> exact ⟨rfl, rfl⟩
  all_goals exact ⟨rfl, rfl⟩

theorem conditionNo_fields (c : WarnCfg) (w : Warning) :
    (w.conditionNo c).raw = w.raw ∧ (w.conditionNo c).hostSet = w.hostSet := by
  have expire : ∀ x : Warning, (x.offExpire c).raw = x.raw ∧ (x.offExpire c).hostSet = x.hostSet := fun x => by
    unfold Warning.offExpire
    split <;> exact ⟨rfl, rfl⟩
  unfold Warning.conditionNo
  dsimp only
  split
  · exact ⟨rfl, rfl⟩
  · exact ⟨rfl, rfl⟩
  · split
    · exact expire _
    · exact ⟨rfl, rfl⟩
  · split
    · exact expire _
    · exact ⟨rfl, rfl⟩

theorem evaluate_evaluated (c : WarnCfg) (clock : BitVec 32) (raw isOpen : Bool) (w : Warning) :
    Evaluated c clock raw isOpen w (w.evaluate c clock raw isOpen) := by
  by_cases h : (raw && isOpen) = w.present
  · rw [evaluate_same h]
    exact ⟨rfl, rfl, h.symm, by constructor <;> simp_all⟩
  · cases hp : w.present with
    | false =>
      have hy : (raw && isOpen) = true := by
        rw [hp] at h
        exact (Bool.not_eq_false _).mp h
      rw [evaluate_yes hy hp]
      obtain ⟨hraw, hset⟩ := conditionYes_fields c clock { w with raw := raw }
      exact ⟨hraw, hset, (conditionYes_present ..).trans hy.symm,
        (conditionYes_takes (w := { w with raw := raw }) hp c clock).congr rfl rfl⟩
    | true =>
      have hn : (raw && isOpen) = false := by
        rw [hp] at h
        exact (Bool.not_eq_true _).mp h
      rw [evaluate_no hn hp]
      obtain ⟨hraw, hset⟩ := conditionNo_fields c { w with raw := raw }
      exact ⟨hraw, hset, (conditionNo_present ..).trans hn.symm,
        (conditionNo_takes (w := { w with raw := raw }) hp c clock).congr rfl rfl⟩

theorem Evaluated.congr {c : WarnCfg} {clock : BitVec 32} {raw isOpen : Bool} {v w w' : Warning}
    (h : Evaluated c clock raw isOpen v w) (hw : w' = { w with chimed := w'.chimed }) : Evaluated c clock raw isOpen v w' := by
  have ht := h.takes.congr (v' := v) rfl hw
  rw [hw] at ht ⊢
  exact ⟨h.raw, h.hostSet, h.present, ht⟩

/-! ## What a warning event leaves of the table (R89, R91) -/

theorem setRows_keeps (s : State) (rows : Table 96 Warning) :
    KeepsBut [.warnings, .chimed] s (s.setWarn { s.warn with rows := rows }) := fun p hp => by
  cases p with
  | warnings | chimed => exact absurd (by decide) hp
  | _ => simp [Part.Same]

/-- A new table handed on stays as it is, but for the chimed flags. -/
theorem commitWarnings_keeps (s : State) (rows : Table 96 Warning) :
    KeepsBut (Part.images ++ [.chimed, .lamps, .gauges, .chime, .test]) (s.setWarn { s.warn with rows := rows })
      (s.commitWarnings rows) := by
  unfold State.commitWarnings
  dsimp only
  refine KeepsBut.trans ?_ ((evalChime_evolves _).keeps.mono (by decide))
  refine KeepsBut.trans ?_ ((evalLampsNaming_evolves _ _).keeps.mono (by decide))
  refine (Evolves.iteThen ?_ ((endTest_evolves _ _).mono (by decide))).keeps
  refine Evolves.iteThen ?_ ((setCause_evolves _ _).mono (by decide))
  exact (offerChanged_evolves s _ _).mono (by decide)

theorem commitWarnings_frame (s : State) (rows : Table 96 Warning) : KeepsBut Part.evaluation s (s.commitWarnings rows) :=
  ((setRows_keeps s rows).mono (by decide)).trans ((commitWarnings_keeps s rows).mono (by decide))

theorem eq_of_unchimed {x y : Warning} (h : { x with chimed := false } = { y with chimed := false }) :
    x = { y with chimed := x.chimed } := by
  cases x
  cases y
  simp_all

theorem commitWarnings_unchimed (s : State) (rows : Table 96 Warning) (w : Fin 96) :
    { (s.commitWarnings rows).warn.rows.get w with chimed := false } = { rows.get w with chimed := false } :=
  (commitWarnings_keeps s rows) .warnings (by decide) w

theorem commitWarnings_get (s : State) (rows : Table 96 Warning) (w : Fin 96) :
    (s.commitWarnings rows).warn.rows.get w =
      { rows.get w with chimed := ((s.commitWarnings rows).warn.rows.get w).chimed } :=
  eq_of_unchimed (commitWarnings_unchimed s rows w)

theorem commitWarning_self (s : State) (w : Fin 96) (x : Warning) :
    (s.commitWarning w x).warn.rows.get w = { x with chimed := ((s.commitWarning w x).warn.rows.get w).chimed } := by
  have h := commitWarnings_get s (s.warn.rows.set w x) w
  rw [Table.get_set_self] at h
  exact h

theorem commitWarning_others (s : State) {w v : Fin 96} (x : Warning) (h : v ≠ w) :
    { (s.commitWarning w x).warn.rows.get v with chimed := false } = { s.warn.rows.get v with chimed := false } := by
  have hv := commitWarnings_unchimed s (s.warn.rows.set w x) v
  rwa [Table.get_set_ne _ (Ne.symm h)] at hv

/-- An activation sets the cause WARNING (R91). -/
theorem commitWarnings_activates {s : State} {rows : Table 96 Warning} {w : Fin 96}
    (h : (rows.get w).number ≠ (s.warn.rows.get w).number) : (s.commitWarnings rows).causePending .warning := by
  have hne : rows.get w ≠ s.warn.rows.get w := fun e => h (by rw [e])
  have hactivated : ((List.finRange 96).filter (fun v => rows.get v ≠ s.warn.rows.get v)).filter
      (fun v => (rows.get v).number ≠ (s.warn.rows.get v).number) ≠ [] :=
    List.ne_nil_of_mem (List.mem_filter.mpr ⟨List.mem_filter.mpr ⟨List.mem_finRange w, by simpa using hne⟩, by simpa using h⟩)
  unfold State.commitWarnings
  dsimp only
  rw [if_pos (Or.inl hactivated)]
  generalize State.offerChanged _ _ _ = u
  refine (Alerts.trans ?_ (.of (evalChime_evolves _) (by decide))).pending _ (setCause_pending u .warning)
  refine .trans ?_ (.of (evalLampsNaming_evolves _ _) (by decide))
  exact .iteThen .refl (endTest_alerts _ _)

end Sys2Proof.Machine
end

section
/-! The delay timers' expiries, and an evaluation of some warnings (04, R77 to R81). -/

namespace Sys2Proof.Machine

/-! ## An expiry (R79, R80) -/

theorem exec_onDelayExpiry {s : State} {w : Fin 96} {e : Nat} (hr : s.running) (hw : s.warningsRun = true)
    (ht : (s.warn.rows.get w).timer = some (.onDelay, e)) (he : (s.profile.warnings.get w).onDelay ≤ e) :
    exec (.onDelayExpiry w) s = .next (s.commitWarning w ((s.warn.rows.get w).activate s.warn.clock)) := by
  have hdue : s.due (.onDelayExpiry w) = true := by
    rw [due_onDelayExpiry, hw, ht, Bool.true_and, ranFor_iff]
    exact ⟨e, rfl, he⟩
  show Host.Outcome.next (s.live _) = _
  rw [live_running hr, if_pos hdue]

theorem exec_offDelayExpiry {s : State} {w : Fin 96} {e : Nat} (hr : s.running) (hw : s.warningsRun = true)
    (ht : (s.warn.rows.get w).timer = some (.offDelay, e)) (he : (s.profile.warnings.get w).offDelay ≤ e) :
    exec (.offDelayExpiry w) s = .next (s.commitWarning w ((s.warn.rows.get w).offExpire (s.profile.warnings.get w))) := by
  have hdue : s.due (.offDelayExpiry w) = true := by
    rw [due_offDelayExpiry, hw, ht, Bool.true_and, ranFor_iff]
    exact ⟨e, rfl, he⟩
  show Host.Outcome.next (s.live _) = _
  rw [live_running hr, if_pos hdue]

theorem commitWarning_frame (s : State) (w : Fin 96) (x : Warning) : KeepsBut Part.evaluation s (s.commitWarning w x) :=
  commitWarnings_frame s _

/-- The activation of one warning sets the cause WARNING: it takes the next number (R79, R91). -/
theorem commitWarning_activates {s : State} {w : Fin 96} {x : Warning} (h : x.number = (s.warn.rows.get w).number + 1) :
    (s.commitWarning w x).causePending .warning := by
  refine commitWarnings_activates (w := w) ?_
  rw [Table.get_set_self, h]
  bv_omega

/-- An off-delay that has run out: a latching warning that nobody acknowledged is held, any other ends (R80, R81). -/
theorem offExpire_leaves (c : WarnCfg) (w : Warning) :
    (w.offExpire c).timer = none ∧ (w.offExpire c).number = w.number ∧ (w.offExpire c).time = w.time ∧
      if w.state = .activeUnack ∧ c.latching = true then (w.offExpire c).state = .activeUnack ∧ (w.offExpire c).latched = true
      else (w.offExpire c).state = .inactive ∧ (w.offExpire c).latched = false ∧ (w.offExpire c).armed = false := by
  unfold Warning.offExpire
  by_cases h : w.state = .activeUnack ∧ c.latching = true
  · rw [if_pos h, if_pos h]
    exact ⟨rfl, rfl, rfl, h.1, rfl⟩
  · rw [if_neg h, if_neg h]
    exact ⟨rfl, rfl, rfl, rfl, rfl, rfl⟩

/-! ## An evaluation (R77) -/

theorem evaluatedRows_selected {s : State} {p : WarnCfg → Bool} {w : Fin 96} (h : p (s.profile.warnings.get w) = true)
    (hu : (s.profile.warnings.get w).condition ≠ .unused) :
    (s.evaluatedRows p).get w =
      (s.warn.rows.get w).evaluate (s.profile.warnings.get w) s.warn.clock
        (s.rawCondition (s.warn.rows.get w) (s.profile.warnings.get w).condition)
        (gateOpen s.sig.motion (s.profile.warnings.get w).gate) := by
  unfold State.evaluatedRows
  rw [Table.get_ofFn]
  exact if_pos (by simp [h, hu])

theorem evaluatedRows_unselected {s : State} {p : WarnCfg → Bool} {w : Fin 96}
    (h : p (s.profile.warnings.get w) = false ∨ (s.profile.warnings.get w).condition = .unused) :
    (s.evaluatedRows p).get w = s.warn.rows.get w := by
  unfold State.evaluatedRows
  rw [Table.get_ofFn]
  refine if_neg ?_
  rcases h with h | h <;> simp [h]

theorem evalWarnings_runs {s : State} (h : s.warningsRun = true) (p : WarnCfg → Bool) :
    s.evalWarnings p = s.commitWarnings (s.evaluatedRows p) := if_pos h

/-- An evaluation takes each warning that it names as its condition and its gate stand. -/
theorem evalWarnings_evaluated {s : State} (hs : s.warningsRun = true) {p : WarnCfg → Bool} {w : Fin 96}
    (h : p (s.profile.warnings.get w) = true) (hu : (s.profile.warnings.get w).condition ≠ .unused) :
    Evaluated (s.profile.warnings.get w) s.warn.clock
      (s.rawCondition (s.warn.rows.get w) (s.profile.warnings.get w).condition)
      (gateOpen s.sig.motion (s.profile.warnings.get w).gate) (s.warn.rows.get w) ((s.evalWarnings p).warn.rows.get w) := by
  have hrow := commitWarnings_get s (s.evaluatedRows p) w
  rw [evaluatedRows_selected h hu] at hrow
  rw [evalWarnings_runs hs]
  exact (evaluate_evaluated _ _ _ _ _).congr hrow

end Sys2Proof.Machine

open Sys2Proof Sys2Proof.Machine

/-- Settles O25: the expiries replace one warning, an evaluation those that it names. -/
theorem warningDelays : Obligations.WarningDelays := by
  refine ⟨fun w e s hr hw => ⟨fun ht he => ?_, fun ht he => ?_⟩, fun named s hs => ⟨?_, fun w => ⟨fun hn hu => ?_, fun hn => ?_⟩⟩⟩
  · refine ⟨_, exec_onDelayExpiry hr hw ht he, commitWarning_frame _ _ _, ?_⟩
    have hcause : (s.commitWarning w ((s.warn.rows.get w).activate s.warn.clock)).causePending .warning :=
      commitWarning_activates rfl
    dsimp only
    rw [commitWarning_self]
    exact ⟨rfl, rfl, rfl, rfl, rfl, rfl, hcause, fun v hv => commitWarning_others s _ hv⟩
  · refine ⟨_, exec_offDelayExpiry hr hw ht he, commitWarning_frame _ _ _, ?_⟩
    obtain ⟨htimer, hnumber, htime, hend⟩ := offExpire_leaves (s.profile.warnings.get w) (s.warn.rows.get w)
    dsimp only
    rw [commitWarning_self]
    exact ⟨htimer, hnumber, htime, hend, fun v hv => commitWarning_others s _ hv⟩
  · rw [evalWarnings_runs hs]
    exact commitWarnings_frame s _
  · obtain ⟨hraw, -, hpresent, htakes⟩ := evalWarnings_evaluated hs hn hu
    refine ⟨?_, ?_, htakes⟩
    · rw [hraw]
      exact rawCondition_iff ..
    · rw [hraw]
      exact hpresent
  · rw [evalWarnings_runs hs]
    have hrow := commitWarnings_unchimed s (s.evaluatedRows named) w
    rwa [evaluatedRows_unselected hn] at hrow

end

section
/-! Acknowledgement: ACK, SET and RESET written to a warning's cell, and the ack input (04, R76, R81 to R85, R92; 06, R123). -/

namespace Sys2Proof.Machine

/-! ## ACK (R82, R84) -/

theorem acknowledge_frame (s : State) (w : Fin 96) : KeepsBut Part.evaluation s (s.acknowledge w) := commitWarning_frame s w _

theorem acknowledge_fields (x : Warning) :
    x.acknowledge.state = (if x.latched then .inactive else .activeAck) ∧
      (x.acknowledge.armed = false ∧ x.acknowledge.latched = false) ∧
      x.acknowledge.number = x.number ∧ x.acknowledge.present = x.present := by
  unfold Warning.acknowledge
  cases x.latched <;> exact ⟨rfl, ⟨rfl, rfl⟩, rfl, rfl⟩

/-- An acknowledgement ends a latched warning and makes any other ACTIVE_ACK (R81, R82). -/
theorem acknowledge_acknowledged (s : State) (w : Fin 96) : Acknowledged s (s.acknowledge w) w := by
  have hrow : (s.acknowledge w).warn.rows.get w =
      { (s.warn.rows.get w).acknowledge with chimed := ((s.acknowledge w).warn.rows.get w).chimed } := commitWarning_self s w _
  obtain ⟨hstate, hflags, hkept⟩ := acknowledge_fields (s.warn.rows.get w)
  exact ⟨by rw [hrow]; exact hstate, by rw [hrow]; exact hflags, by rw [hrow]; exact hkept,
    fun v hv => commitWarning_others s _ hv⟩

theorem writeWarning_ack (s : State) (w : Fin 96) : s.writeWarning w Config.ackWord = s.hostAck w := if_pos rfl

theorem exec_ack {s : State} (h : s.hostReady) (w : Fin 96) : exec (.ack w) s = .next (s.hostAck w) := by
  show Host.Outcome.next (s.live _) = _
  rw [live_running h.1, hostWriteAt_offWarning h, writeWarning_ack]

theorem hostAck_armed {s : State} {w : Fin 96} (ha : (s.warn.rows.get w).armed = true)
    (hs : (s.warn.rows.get w).state = .activeUnack) : s.hostAck w = s.acknowledge w := if_pos ⟨ha, hs⟩

/-- Any other ACK is void: it is counted and changes no warning (R84). -/
theorem hostAck_void {s : State} {w : Fin 96}
    (h : (s.warn.rows.get w).armed = false ∨ (s.warn.rows.get w).state ≠ .activeUnack) :
    KeepsBut (.voidAcks :: Part.images) s (s.hostAck w) ∧ (s.hostAck w).warn.voidAcks = satInc s.warn.voidAcks := by
  have hvoid : s.hostAck w =
      s.offerChanged (s.setWarn { s.warn with voidAcks := satInc s.warn.voidAcks }) [offCountA] := by
    refine if_neg fun e => h.elim (fun ha => ?_) (fun hs => hs e.2)
    rw [ha] at e
    exact Bool.false_ne_true e.1
  rw [hvoid]
  have hoffer := (offerChanged_evolves s (s.setWarn { s.warn with voidAcks := satInc s.warn.voidAcks }) [offCountA]).keeps
  exact ⟨((setVoidAcks_evolves s _).keeps.mono (by decide)).trans (hoffer.mono (by decide)), hoffer .voidAcks (by decide)⟩

/-! ## SET and RESET (R76, R92) -/

theorem exec_setReset {s : State} (h : s.hostReady) {w : Fin 96} {b : Bool} {c : Instr}
    (hc : b = true ∧ c = .set w ∨ b = false ∧ c = .reset w) (hk : (s.profile.warnings.get w).condition = .hostSet) :
    exec c s = .next (s.hostSet w b) := by
  have hset : s.writeWarning w Config.setWord = s.hostSet w true := by
    unfold State.writeWarning
    rw [if_neg (by decide), if_pos hk, if_pos rfl]
  have hreset : s.writeWarning w Config.resetWord = s.hostSet w false := by
    unfold State.writeWarning
    rw [if_neg (by decide), if_pos hk, if_neg (by decide), if_pos rfl]
  rcases hc with ⟨rfl, rfl⟩ | ⟨rfl, rfl⟩
  · show Host.Outcome.next (s.live _) = _
    rw [live_running h.1, hostWriteAt_offWarning h, hset]
  · show Host.Outcome.next (s.live _) = _
    rw [live_running h.1, hostWriteAt_offWarning h, hreset]

theorem warningsRun_iff (s : State) :
    s.warningsRun = true ↔ s.mode.mode = .run ∧ s.inForce = true ∧ s.path.windowOpen = true := by
  simp [State.warningsRun, and_assoc]

/-- The warning with its HOST_SET flag taken, and re-evaluated by it (R76). -/
def State.flagTaken (s : State) (w : Fin 96) (b : Bool) : Warning :=
  Warning.evaluate (s.profile.warnings.get w) s.warn.clock b (gateOpen s.sig.motion (s.profile.warnings.get w).gate)
    { s.warn.rows.get w with hostSet := b }

theorem hostSet_runs {s : State} (h : s.warningsRun = true) (w : Fin 96) (b : Bool) :
    s.hostSet w b = s.commitWarning w (s.flagTaken w b) := if_pos h

theorem hostSet_dropped {s : State} (h : s.mode.mode ≠ .run) (w : Fin 96) (b : Bool) : s.hostSet w b = s :=
  if_neg fun e => h ((warningsRun_iff s).mp e).1

/-! ## The ack input (R85) -/

/-- The ack input's level taken from its signal. -/
def State.levelTaken (s : State) (n : Fin 256) : State :=
  s.setWarn { s.warn with ackLevel := ackLevelOf (s.quality n) (s.value n) }

theorem levelTaken_keeps (s : State) (n : Fin 256) : KeepsBut [.ackLevel] s (s.levelTaken n) := fun p hp => by
  cases p with
  | ackLevel => exact absurd (by decide) hp
  | _ => simp [Part.Same, State.levelTaken]

theorem ackInput_unheard {s : State} {n : Fin 256}
    (h : s.profile.ackInput ≠ some n ∨ s.mode.mode = .parking ∨ s.mode.mode = .parked) : s.ackInput n = s :=
  if_neg fun ⟨hn, hparking, hparked⟩ => h.elim (· hn) (Or.elim · hparking hparked)

/-- A change of signal `n` is acted on by the ack input (R85, R92). -/
structure State.Hears (s : State) (n : Fin 256) : Prop where
  bound : s.profile.ackInput = some n
  parking : s.mode.mode ≠ .parking
  parked : s.mode.mode ≠ .parked

section

variable {s : State} {n : Fin 256}

theorem ackInput_eq (h : s.Hears n) :
    s.ackInput n =
      if s.warn.ackLevel = .low ∧ s.quality n = .good ∧ s.value n ≠ 0 ∧ s.warningsRun = true then
        s.firstUnack.elim (s.levelTaken n) (s.levelTaken n).acknowledge
      else s.levelTaken n := by
  have hfirst : (s.levelTaken n).firstUnack = s.firstUnack := rfl
  have hedge : (decide (s.warn.ackLevel = .low) && decide (ackLevelOf (s.quality n) (s.value n) = .high) &&
      (s.levelTaken n).warningsRun) = true ↔
      s.warn.ackLevel = .low ∧ s.quality n = .good ∧ s.value n ≠ 0 ∧ s.warningsRun = true := by
    rw [Bool.and_eq_true, Bool.and_eq_true, decide_eq_true_iff, decide_eq_true_iff, ackLevelOf_high, and_assoc, and_assoc]
    rfl
  unfold State.ackInput
  rw [if_pos ⟨h.bound, h.parking, h.parked⟩]
  refine (if_congr hedge ?_ rfl).trans rfl
  show (match (s.levelTaken n).firstUnack with
    | none => s.levelTaken n
    | some w => (s.levelTaken n).acknowledge w) = _
  rw [hfirst]
  cases s.firstUnack <;> rfl

/-- Whatever a change of the signal acknowledges, it sets the level. -/
theorem ackInput_level (h : s.Hears n) : (s.ackInput n).warn.ackLevel = ackLevelOf (s.quality n) (s.value n) := by
  rw [ackInput_eq h]
  split
  · cases s.firstUnack with
    | none => rfl
    | some w => exact acknowledge_frame _ w .ackLevel (by decide)
  · rfl

theorem State.AckLevelOf.of_level {t : State} (h : t.warn.ackLevel = ackLevelOf (t.quality n) (t.value n)) : t.AckLevelOf n := by
  constructor
  · rw [h]
    exact ackLevelOf_high ..
  · rw [h]
    exact ackLevelOf_low ..

theorem State.AckLevelOf.of_keeps {l : List Part} {t u : State} (h : t.AckLevelOf n) (k : KeepsBut l t u)
    (hl : ∀ p ∈ [Part.ackLevel, .entries], p ∉ l) : u.AckLevelOf n := by
  have hlevel : u.warn.ackLevel = t.warn.ackLevel := k .ackLevel (hl _ (by decide))
  have hentries : u.sig.entries = t.sig.entries := k .entries (hl _ (by decide))
  obtain ⟨high, low⟩ := h
  unfold State.quality State.value at high low
  constructor <;> unfold State.quality State.value <;> rw [hlevel, hentries] <;> assumption

theorem ackInput_ackLevelOf (h : s.Hears n) : (s.ackInput n).AckLevelOf n := by
  refine State.AckLevelOf.of_level ((ackInput_level h).trans ?_)
  have hentries : (s.ackInput n).sig.entries = s.sig.entries := (ackInput_evolves s n).keeps .entries (by decide)
  unfold State.quality State.value
  rw [hentries]

/-- No rising edge, none that is acted on, or no warning to acknowledge: the level alone is set. -/
theorem ackInput_sets (h : s.Hears n)
    (hno : ¬ (s.warn.ackLevel = .low ∧ s.quality n = .good ∧ s.value n ≠ 0) ∨ s.warningsRun = false ∨
      ∀ w, (s.warn.rows.get w).state ≠ .activeUnack) : s.ackInput n = s.levelTaken n := by
  rw [ackInput_eq h]
  split
  · next hedge =>
    obtain ⟨hlow, hgood, hvalue, hruns⟩ := hedge
    rcases hno with hno | hno | hno
    · exact absurd ⟨hlow, hgood, hvalue⟩ hno
    · exact absurd (hruns.symm.trans hno) (by decide)
    · have hnone : s.firstUnack = none := List.find?_eq_none.mpr fun w _ => by simpa using hno w
      rw [hnone]
      rfl
  · rfl

/-- A rising edge in RUN acknowledges the first ACTIVE_UNACK warning of the display order. -/
theorem ackInput_acknowledges (h : s.Hears n) (hlow : s.warn.ackLevel = .low) (hgood : s.quality n = .good)
    (hvalue : s.value n ≠ 0) (hruns : s.warningsRun = true) {w : Fin 96} (hw : s.FirstUnack w) :
    s.ackInput n = (s.levelTaken n).acknowledge w := by
  rw [ackInput_eq h, if_pos ⟨hlow, hgood, hvalue, hruns⟩, firstUnack_eq_some s w hw]
  rfl

/-- An update that changes the bound signal is handed to the ack input (R7). -/
theorem deliver_ackLevelOf (h : s.Hears n) {v : BitVec 16} (ht : s.takesUpdates = true)
    (hd : s.value n ≠ (s.deliver n v).value n ∨ s.quality n ≠ (s.deliver n v).quality n) : (s.deliver n v).AckLevelOf n := by
  obtain ⟨t, hdel, hkeeps⟩ := deliver_handOn s n v ht hd
  obtain ⟨a, b, c, ha, rfl, hc, hand⟩ := handOn_split t n
  have hp : a.profile = s.profile := (ha.keeps .profile (by decide)).trans (hkeeps .profile (by decide))
  have hm : a.mode.mode = s.mode.mode := (ha.keeps .opMode (by decide)).trans (hkeeps .opMode (by decide))
  have hlevel : c.AckLevelOf n :=
    (ackInput_ackLevelOf ⟨hp ▸ h.bound, hm ▸ h.parking, hm ▸ h.parked⟩).of_keeps hc.keeps (by decide)
  rw [hdel, hand]
  split
  · exact hlevel.of_keeps (judgeIgnition_evolves c).keeps (by decide)
  · exact hlevel

end

end Sys2Proof.Machine

open Sys2Proof Sys2Proof.Machine

/-- Settles O27: the three words that the host writes, and the ack input. -/
theorem hostAckSetAndReset : Obligations.HostAckSetAndReset := by
  refine ⟨fun w s h => ⟨fun ha hs => ?_, fun hvoid => ?_⟩,
    fun w b c s hc h hk => ⟨fun hm hf => ?_, fun hm => ?_⟩, fun n s => ⟨ackInput_unheard, fun hn hparking hparked => ?_⟩⟩
  · exact ⟨_, exec_ack h w, by rw [hostAck_armed ha hs]; exact ⟨acknowledge_frame s w, acknowledge_acknowledged s w⟩⟩
  · exact ⟨_, exec_ack h w, hostAck_void hvoid⟩
  · have hruns : s.warningsRun = true := (warningsRun_iff s).mpr ⟨hm, hf, h.2.2⟩
    obtain ⟨hraw, hset, hpresent, htakes⟩ :=
      (evaluate_evaluated _ _ _ _ _).congr (commitWarning_self s w (s.flagTaken w b))
    refine ⟨_, (exec_setReset h hc hk).trans (congrArg _ (hostSet_runs hruns w b)), commitWarning_frame s w _, ?_⟩
    exact ⟨hset, hraw, hpresent, htakes.congr rfl rfl, fun v hv => commitWarning_others s _ hv⟩
  · rw [exec_setReset h hc hk, hostSet_dropped hm]
  · have hears : s.Hears n := ⟨hn, hparking, hparked⟩
    refine ⟨ackInput_ackLevelOf hears, fun hno => ?_, fun w hlow hgood hvalue hm hf ho hw => ?_,
      fun v ht hd => deliver_ackLevelOf hears ht hd⟩
    · rw [ackInput_sets hears hno]
      exact levelTaken_keeps s n
    · rw [ackInput_acknowledges hears hlow hgood hvalue ((warningsRun_iff s).mpr ⟨hm, hf, ho⟩) hw]
      obtain ⟨hstate, hflags, hkept, hothers⟩ := acknowledge_acknowledged (s.levelTaken n) w
      exact ⟨((levelTaken_keeps s n).mono (by decide)).trans ((acknowledge_frame _ w).mono (by decide)),
        hstate, hflags, hkept, hothers⟩

end

section
/-! The bytes that a profile store writes: which bits of an image Table 12-7 assigns, table by table (11, R192, R195; log entry 41). -/

namespace Sys2Proof.Machine

/-! ## The bits that Table 12-7 assigns in byte `j` of each kind of entry -/

/-- A used slot's key and length. -/
def slotAssigns (j b : Nat) : Prop := j = 0 ∧ (b ≤ 1 ∨ b = 7) ∨ j = 1 ∨ j = 2

/-- A signal entry; byte 5 and the last two are unassigned. -/
def signalAssigns (j b : Nat) : Prop := j = 0 ∨ j = 1 ∧ b ≤ 3 ∨ 2 ≤ j ∧ j ≤ 4 ∨ 6 ≤ j ∧ j ≤ 13

/-- A discrete input. -/
def inputAssigns (j b : Nat) : Prop := j = 0 ∧ b ≤ 3 ∨ j = 1

/-- A door; byte 1 is unassigned. -/
def doorAssigns (j b : Nat) : Prop := j = 0 ∧ b ≤ 1 ∨ 2 ≤ j ∧ j ≤ 15

/-- A warning of a kind: its parameter is a door mask, of six bits, under DOOR_OPEN (5) and DOOR_FAULT (6). -/
def warningAssigns (kind : Byte) (j b : Nat) : Prop :=
  j = 0 ∨ j = 1 ∧ (b ≤ 5 ∨ kind ≠ 5 ∧ kind ≠ 6) ∨ 2 ≤ j ∧ j ≤ 9 ∨ j = 10 ∧ b ≤ 6 ∨ j = 11

/-- A telltale. -/
def lampAssigns (j b : Nat) : Prop := j = 0 ∧ (b ≤ 2 ∨ 4 ≤ b ∧ b ≤ 6) ∨ 1 ≤ j ∧ j ≤ 8

/-- A gauge; byte 9 and the last two are unassigned, and no byte has an unassigned bit beside assigned ones. -/
def gaugeAssigns (j : Nat) : Prop := j ≤ 8 ∨ 10 ≤ j ∧ j ≤ 13

theorem slotBits_iff : ∀ j, j < 4 → ∀ b, b < 8 → ((slotBits j).getLsbD b = true ↔ slotAssigns j b) := by
  unfold slotAssigns
  decide

theorem signalBits_iff : ∀ j, j < 16 → ∀ b, b < 8 → ((signalBits j).getLsbD b = true ↔ signalAssigns j b) := by
  unfold signalAssigns
  decide

theorem inputBits_iff : ∀ j, j < 2 → ∀ b, b < 8 → ((inputBits j).getLsbD b = true ↔ inputAssigns j b) := by
  unfold inputAssigns
  decide

theorem doorBits_iff : ∀ j, j < 16 → ∀ b, b < 8 → ((doorBits j).getLsbD b = true ↔ doorAssigns j b) := by
  unfold doorAssigns
  decide

theorem warningBits_iff (kind : Byte) :
    ∀ j, j < 16 → ∀ b, b < 8 → ((warningBits kind j).getLsbD b = true ↔ warningAssigns kind j b) := by
  unfold warningAssigns warningBits
  by_cases h : kind = 5 ∨ kind = 6
  · have hn : ¬ (kind ≠ 5 ∧ kind ≠ 6) := fun ⟨h5, h6⟩ => h.elim h5 h6
    simp only [if_pos h, hn, or_false]
    decide
  · have hn : kind ≠ 5 ∧ kind ≠ 6 := not_or.mp h
    simp only [hn.1, hn.2, ne_eq, not_false_eq_true, and_self, or_true, and_true]
    decide

theorem lampBits_iff : ∀ j, j < 12 → ∀ b, b < 8 → ((lampBits j).getLsbD b = true ↔ lampAssigns j b) := by
  unfold lampAssigns
  decide

theorem gaugeBits_iff : ∀ j, j < 16 → ∀ b, b < 8 → ((gaugeBits j).getLsbD b = true ↔ gaugeAssigns j) := by
  unfold gaugeAssigns
  decide

/-! ## Tables of entries -/

/-- Byte `a` is a byte `j` with `Q` of one of `count` entries of `size` bytes from `base` on. -/
def AtEntry (base size count : Nat) (Q : Nat → Prop) (a : Nat) : Prop := ∃ n j, n < count ∧ a = base + size * n + j ∧ Q j

theorem atEntry_iff {base size count a : Nat} {Q : Nat → Prop} (hQ : ∀ j, Q j → j < size) :
    AtEntry base size count Q a ↔ (base ≤ a ∧ a < base + size * count) ∧ Q ((a - base) % size) := by
  constructor
  · rintro ⟨n, j, hn, rfl, hj⟩
    have hsize := hQ j hj
    have hnext : size * n + size ≤ size * count := Nat.mul_le_mul_left size hn
    refine ⟨by omega, ?_⟩
    rwa [Nat.add_assoc, Nat.add_sub_cancel_left, Nat.mul_add_mod, Nat.mod_eq_of_lt hsize]
  · rintro ⟨⟨hlo, hhi⟩, hq⟩
    have hdiv := Nat.div_add_mod (a - base) size
    exact ⟨(a - base) / size, (a - base) % size, Nat.div_lt_of_lt_mul (by omega), by omega, hq⟩

/-- Which table of the profile image a byte lies in, and what is assigned there. -/
theorem profileBit_iff (rd : Nat → Byte) (a b : Nat) : ProfileBit rd a b ↔
    a < 0x0038 ∨
    (0x0038 ≤ a ∧ a < 0x0138) ∧ slotAssigns ((a - 0x0038) % 4) b ∨
    (0x0138 ≤ a ∧ a < 0x1138) ∧ signalAssigns ((a - 0x0138) % 16) b ∨
    (0x1138 ≤ a ∧ a < 0x1168) ∧ inputAssigns ((a - 0x1138) % 2) b ∨
    (0x1168 ≤ a ∧ a < 0x11C8) ∧ doorAssigns ((a - 0x1168) % 16) b ∨
    (0x11C8 ≤ a ∧ a < 0x17C8) ∧ warningAssigns (rd (a - 1)) ((a - 0x11C8) % 16) b ∨
    (0x17C8 ≤ a ∧ a < 0x1A08) ∧ lampAssigns ((a - 0x17C8) % 12) b ∨
    (0x1A08 ≤ a ∧ a < 0x1AC8) ∧ gaugeAssigns ((a - 0x1A08) % 16) ∨
    0x1AC8 ≤ a := by
  refine or_congr Iff.rfl (or_congr (atEntry_iff fun j hj => ?_) (or_congr (atEntry_iff fun j hj => ?_)
    (or_congr (atEntry_iff fun j hj => ?_) (or_congr (atEntry_iff fun j hj => ?_) (or_congr (atEntry_iff fun j hj => ?_)
    (or_congr (atEntry_iff fun j hj => ?_) (or_congr (atEntry_iff fun j hj => ?_) Iff.rfl)))))))
  all_goals omega

/-- A warning's kind stands in the byte before its parameter. -/
theorem warningAssigns_kind (rd : Nat → Byte) {a : Nat} (h : 0x11C8 ≤ a) (b : Nat) :
    warningAssigns (rd (atWarning ((a - atWarning 0) / 16))) ((a - 0x11C8) % 16) b ↔
      warningAssigns (rd (a - 1)) ((a - 0x11C8) % 16) b := by
  by_cases hj : (a - 0x11C8) % 16 = 1
  · have hk : atWarning ((a - atWarning 0) / 16) = a - 1 := by
      unfold atWarning
      omega
    rw [hk]
  · unfold warningAssigns
    simp [hj]

/-- The bits that a store keeps of a byte are those that Table 12-7 assigns, as far as the image goes. -/
theorem profileBits_iff (rd : Nat → Byte) (a : Nat) {b : Nat} (hb : b < 8) :
    (profileBits rd a).getLsbD b = true ↔ a < imageLength rd ∧ ProfileBit rd a b := by
  rw [profileBit_iff]
  unfold profileBits
  by_cases hlen : imageLength rd ≤ a
  · rw [if_pos hlen]
    simp [Nat.not_lt.mpr hlen]
  rw [if_neg hlen, and_iff_right (Nat.lt_of_not_le hlen)]
  have hall : (0xFF : Byte).getLsbD b = true := (by decide : ∀ b, b < 8 → (0xFF : Byte).getLsbD b = true) b hb
  have hsize {k : Nat} (j : Nat) (hk : 0 < k) : j % k < k := Nat.mod_lt j hk
  by_cases h0 : a < 0x0038
  · rw [if_pos (show a < atSlot 0 from h0)]
    exact iff_of_true hall (.inl h0)
  rw [if_neg (show ¬ a < atSlot 0 from h0)]
  by_cases h1 : a < 0x0138
  · rw [if_pos (show a < atSignal 0 from h1), slotBits_iff _ (hsize _ (by decide)) b hb, show atSlot 0 = 0x0038 from rfl]
    grind
  rw [if_neg (show ¬ a < atSignal 0 from h1)]
  by_cases h2 : a < 0x1138
  · rw [if_pos (show a < atInput 0 from h2), signalBits_iff _ (hsize _ (by decide)) b hb, show atSignal 0 = 0x0138 from rfl]
    grind
  rw [if_neg (show ¬ a < atInput 0 from h2)]
  by_cases h3 : a < 0x1168
  · rw [if_pos (show a < atDoor 0 from h3), inputBits_iff _ (hsize _ (by decide)) b hb, show atInput 0 = 0x1138 from rfl]
    grind
  rw [if_neg (show ¬ a < atDoor 0 from h3)]
  by_cases h4 : a < 0x11C8
  · rw [if_pos (show a < atWarning 0 from h4), doorBits_iff _ (hsize _ (by decide)) b hb, show atDoor 0 = 0x1168 from rfl]
    grind
  rw [if_neg (show ¬ a < atWarning 0 from h4)]
  by_cases h5 : a < 0x17C8
  · rw [if_pos (show a < atLamp 0 from h5), warningBits_iff _ _ (hsize _ (by decide)) b hb]
    refine (warningAssigns_kind rd (Nat.le_of_not_lt h4) b).trans ?_
    grind
  rw [if_neg (show ¬ a < atLamp 0 from h5)]
  by_cases h6 : a < 0x1A08
  · rw [if_pos (show a < atGauge 0 from h6), lampBits_iff _ (hsize _ (by decide)) b hb, show atLamp 0 = 0x17C8 from rfl]
    grind
  rw [if_neg (show ¬ a < atGauge 0 from h6)]
  by_cases h7 : a < 0x1AC8
  · rw [if_pos (show a < atGauge 12 from h7), gaugeBits_iff _ (hsize _ (by decide)) b hb, show atGauge 0 = 0x1A08 from rfl]
    grind
  rw [if_neg (show ¬ a < atGauge 12 from h7)]
  exact iff_of_true hall (by omega)

/-- A page of a store holds the staged bits that Table 12-7 assigns, and no other. -/
theorem profilePage_pageOf (s : State) (k : Nat) : ProfilePageOf s.stagingByte k (s.profilePage k) := by
  refine ⟨profilePage_length s k, fun j b hj hb => ?_⟩
  rw [profilePage_getD s k j hj, storedByte, BitVec.getLsbD_and, Bool.and_eq_true, profileBits_iff _ _ hb, and_comm, and_assoc]

end Sys2Proof.Machine
end

section
/-! The pages of a store while the device runs: the memory after a page write, the next page's read, and a store that ends (11, R187,
R192; 06, R129, R130; 08, R153). -/

namespace Sys2Proof.Machine

/-! ## The work after an event in RUN (R187) -/

/-- Outside PARKING no flush completes: the work is all that follows. -/
theorem workAndFlush_awake {s : State} (h : s.mode.mode ≠ .parking) : s.workAndFlush = s.takeWork.takeWork := by
  unfold State.workAndFlush
  rw [checkFlush_waits]
  simp [State.flushDone, h]

theorem workAndFlush_keeps {s : State} (h : s.mode.mode ≠ .parking) : KeepsBut Part.work s s.workAndFlush := by
  rw [workAndFlush_awake h]
  exact ((takeWork_evolves s).trans (takeWork_evolves _)).keeps

theorem workAndFlush_eq {s : State} (h : s.mode.mode ≠ .parking) :
    ∃ q c, s.workAndFlush = (s.setFm { s.fm with writeQueue := q }).setCtrl c := by
  obtain ⟨q, c, hfirst⟩ := takeWork_eq s
  obtain ⟨q', c', hsecond⟩ := takeWork_eq s.takeWork
  refine ⟨q', c', ?_⟩
  rw [workAndFlush_awake h, hsecond, hfirst]
  rfl

/-- A controller whose operation goes on takes nothing. -/
theorem workAndFlush_busy {s : State} (h : s.mode.mode ≠ .parking) (ho : s.ctrl.operation ≠ .none)
    (hr : ∀ p n k, s.ctrl.operation ≠ .storeRead p n k) : s.workAndFlush = s := by
  rw [workAndFlush_awake h, takeWork_busy ho hr, takeWork_busy ho hr]

theorem takeWork_storeRead {s : State} {p : Profile} {n k : Nat} (h : s.ctrl.operation = .storeRead p n k) :
    s.takeWork = if s.readerGranted then s.setOperation (.storeWrite p n k (s.storePage n k) false) else s := by
  unfold State.takeWork State.serveReader
  rw [nextWork_busy (by simp [h]), h]

/-- A store that waits for a page goes on with its write when the M-port is free for the reader, and waits on otherwise (R129). -/
theorem workAndFlush_storeRead {s : State} (h : s.mode.mode ≠ .parking) {p : Profile} {n k : Nat}
    (ho : s.ctrl.operation = .storeRead p n k) :
    s.workAndFlush = if s.readerGranted then s.setOperation (.storeWrite p n k (s.storePage n k) false) else s := by
  rw [workAndFlush_awake h, takeWork_storeRead ho]
  cases hg : s.readerGranted with
  | true => exact takeWork_busy Operation.noConfusion fun _ _ _ => Operation.noConfusion
  | false =>
    show s.takeWork = s
    rw [takeWork_storeRead ho, hg]
    rfl

/-- The controller begins no store by itself. -/
theorem takeWork_noStore {s : State} (h : s.ctrl.store = .none) : s.takeWork.ctrl.store = .none := by
  have slot (t : State) : t.takeSlot.ctrl.store = t.ctrl.store := by
    unfold State.takeSlot
    split <;> rfl
  have reader (t : State) : t.serveReader.ctrl.store = t.ctrl.store := (serveReader_evolves t).keeps .store (by decide)
  refine (reader _).trans ?_
  by_cases hfree : s.ctrl.operation = .none ∧ s.fm.loaded = true
  · rw [nextWork_ranked hfree (by simp [h])]
    unfold State.rankedWork
    split
    · exact h
    · split
      · exact h
      · exact (slot s).trans h
  · rw [nextWork_busy hfree]
    exact h

theorem workAndFlush_noStore {s : State} (hm : s.mode.mode ≠ .parking) (h : s.ctrl.store = .none) :
    s.workAndFlush.ctrl.store = .none := by
  rw [workAndFlush_awake hm]
  exact takeWork_noStore (takeWork_noStore h)

theorem readerGranted_iff (s : State) : s.readerGranted = true ↔ s.path.inFlight = none ∧ s.path.queue = [] ∧ s.path.held = none := by
  simp [State.readerGranted, and_assoc]

/-! ## A page written (R192) -/

theorem writePage_stores {s : State} (h : Memory.wf Config.cfgErased s.cfg = true) (page : Nat) {bytes : List Byte}
    (hl : bytes.length = 64) : StoresPage s.cfg (s.writePage page bytes).cfg page bytes := by
  intro a
  refine (readByte_writeBytes bytes h (64 * page) a).trans ?_
  rw [hl]
  by_cases h : 64 * page ≤ a ∧ a < 64 * page + 64
  · have hlt : a - 64 * page < bytes.length := by omega
    rw [if_pos h, if_pos h, List.getD_eq_getElem _ _ hlt, List.getD_eq_getElem _ _ hlt]
  · rw [if_neg h, if_neg h]

theorem StoresPage.of_keeps {m : List Host.Cell} {t u : State} {page : Nat} {bytes : List Byte} {l : List Part}
    (h : StoresPage m t.cfg page bytes) (k : KeepsBut l t u) (hl : Part.cfg ∉ l) : StoresPage m u.cfg page bytes := by
  have hcfg : u.cfg = t.cfg := k .cfg hl
  rwa [hcfg]

theorem not_mem_torn_writePage (s : State) (page : Nat) (bytes : List Byte) : page ∉ (s.writePage page bytes).ctrl.torn := by
  simp [State.writePage]

theorem writtenBytes_differs {snapshot bytes : List Byte} (hl : bytes.length = 64) :
    writtenBytes snapshot (.differs bytes) = bytes := List.take_of_length_le (Nat.le_of_eq hl)

/-- Page 0 written and the store over, before its command ends. -/
def State.storeEnded (s : State) (bytes : List Byte) : State :=
  (s.writePage 0 bytes).setCtrl { (s.writePage 0 bytes).ctrl with operation := .none, store := .none }

theorem storeEnded_keeps (s : State) (bytes : List Byte) :
    KeepsBut [.operation, .store, .cfg, .torn] s (s.storeEnded bytes) :=
  ((writePage_evolves s 0 bytes).keeps.mono (by decide)).trans
    ((setOperationStore_evolves (s.writePage 0 bytes)).keeps.mono (by decide))

theorem storeEnded_stores {s : State} (h : Memory.wf Config.cfgErased s.cfg = true) {bytes : List Byte}
    (hl : bytes.length = 64) : StoresPage s.cfg (s.storeEnded bytes).cfg 0 bytes := writePage_stores h 0 hl

theorem not_mem_torn_storeEnded (s : State) (bytes : List Byte) : 0 ∉ (s.storeEnded bytes).ctrl.torn :=
  not_mem_torn_writePage s 0 bytes

section

variable {s : State} {p : Profile} {n k : Nat} {snapshot : List Byte} {retried : Bool}

theorem exec_storeWrite (hr : s.running) (ho : s.ctrl.operation = .storeWrite p n k snapshot retried) (o : PageOutcome) :
    exec (.profilePageWriteComplete o) s = .next (s.storeWriteDone p n k snapshot retried o).workAndFlush := by
  simp only [exec, execProfilePageWriteComplete, live_running hr, ho]

theorem exec_storeAbort (hr : s.running) (ho : s.ctrl.operation = .storeAbort snapshot) (o : PageOutcome) :
    exec (.profilePageWriteComplete o) s =
      .next (((s.storeEnded (writtenBytes snapshot o)).refuse .memoryError).momentary .configMemory).workAndFlush := by
  simp only [exec, execProfilePageWriteComplete, live_running hr, ho]
  rfl

/-- A verified page that is not the last leads to the read of the next (R192 stage 3). -/
theorem storeWriteDone_next (h : k < n) : s.storeWriteDone p n k snapshot retried .stored =
    (s.writePage k snapshot).setOperation (.storeRead p n (k + 1)) := by
  have hpage : storePageNo n k = k := if_neg (by omega)
  unfold State.storeWriteDone
  rw [hpage]
  exact (if_pos rfl).trans (if_neg (by omega))

/-- The true page 0 verified ends the store with the profile restart (R192 stage 4). -/
theorem storeWriteDone_last : s.storeWriteDone p n n snapshot retried .stored =
    (s.storeEnded snapshot).restartWith p := by
  have hpage : storePageNo n n = 0 := if_pos rfl
  unfold State.storeWriteDone
  rw [hpage]
  exact (if_pos rfl).trans (if_pos (Nat.le_refl n))

/-- A page that fails its verification is written once more, and after a second failure the marked page 0 is. -/
theorem storeWriteDone_differs {bytes : List Byte} (hl : bytes.length = 64) (hne : bytes ≠ snapshot) :
    s.storeWriteDone p n k snapshot retried (.differs bytes) =
      (s.writePage (if k = n then 0 else k) bytes).setOperation
        (if retried then .storeAbort (markedPage (s.profilePage 0)) else .storeWrite p n k snapshot true) := by
  unfold State.storeWriteDone
  rw [writtenBytes_differs hl]
  refine (if_neg hne).trans ?_
  cases retried <;> rfl

end

/-! ## A momentary report of a loaded table (R153) -/

theorem takeMomentary_alerts (s : State) (k : FaultKind) : Alerts s (s.takeMomentary k) := by
  unfold State.takeMomentary
  dsimp only
  split
  · split
    · exact .refl
    · exact commitFaults_alerts ..
  · split <;> exact commitFaults_alerts ..

/-- One momentary report of CONFIG_MEMORY or PROFILE_BAD acts on the record that stands for it. -/
theorem takeMomentary_reportedOnce (s : State) (k : FaultKind) (hk : volatileKind k = true) :
    ReportedOnce s (s.takeMomentary k) k := by
  intro i r hslot hrecord
  have htable : s.takeMomentary k =
      s.commitFaults ((s.fm.put i { r.reconfirm s.now with state := .passive }).queueFor i k) [i] true := by
    unfold State.takeMomentary
    simp only [hslot, hrecord]
  rw [htable, commitFaults_fm]
  unfold FaultMemory.queueFor
  rw [if_pos hk]
  exact Table.get_set_self ..

theorem ReportedOnce.congr {s t u v : State} {k : FaultKind} (h : ReportedOnce t u k) (hfm : t.fm = s.fm)
    (hcycle : t.mode.cycle = s.mode.cycle) (htime : t.mode.time = s.mode.time) (hrec : v.fm.records = u.fm.records) :
    ReportedOnce s v k := by
  unfold ReportedOnce at h ⊢
  rwa [hfm, hcycle, htime, ← hrec] at h

/-! ## A command that ends with a refusal and a report (R130, R153) -/

/-- The busy command of `s` ended REFUSED in `t`, one report of a kind was made, and the controller took its next work. -/
structure RefusedWith (r : Reason) (k : FaultKind) (s t : State) : Prop where
  keeps : KeepsBut (.command :: .result :: Part.faults ++ Part.work) s t
  command : t.path.command = none
  result : t.path.result = { value := .refused, code := s.path.command.getD 0, reason := r }
  cause : t.causePending .command
  reported : volatileKind k = true → ReportedOnce s t k
  store : s.ctrl.store = .none → t.ctrl.store = .none

theorem refuse_report {s : State} (hm : s.mode.mode = .run) (hl : s.fm.loaded = true) (r : Reason) (k : FaultKind) :
    RefusedWith r k s ((s.refuse r).momentary k).workAndFlush := by
  have hrefuse := (refuse_evolves s r).keeps
  have hreport := (takeMomentary_evolves (s.refuse r) k).keeps
  have hloaded : (s.refuse r).fm.loaded = true := (hrefuse .loading (by decide)).1.trans hl
  have hmode : ((s.refuse r).takeMomentary k).mode.mode ≠ .parking := by
    rw [(hreport .opMode (by decide) : _ = _), (hrefuse .opMode (by decide) : _ = _), hm]
    decide
  have hwork := workAndFlush_keeps hmode
  obtain ⟨hcommand, hresult, hcause⟩ := finishCommand_path s .refused r
  rw [momentary_loaded _ _ hloaded]
  refine ⟨?_, ?_, ?_, ?_, fun hk => ?_, fun hs => ?_⟩
  · exact ((hrefuse.mono (by decide)).trans (hreport.mono (by decide))).trans (hwork.mono (by decide))
  · exact (hwork .command (by decide)).trans ((hreport .command (by decide)).trans hcommand)
  · exact (hwork .result (by decide)).trans ((hreport .result (by decide)).trans hresult)
  · have hpending := (takeMomentary_alerts (s.refuse r) k).pending _ hcause
    exact (Alerts.same (hwork .attnPending (by decide))).pending _ hpending
  · exact (takeMomentary_reportedOnce (s.refuse r) k hk).congr rfl rfl rfl (hwork .records (by decide))
  · refine workAndFlush_noStore hmode ((hreport .store (by decide)).trans ?_)
    exact (hrefuse .store (by decide)).trans hs

/-! ## An image write that ends while a store waits for a page (R126, R129) -/

/-- The last entry of the queue was written, and nothing else waits: its word has left the queue. -/
theorem imageWritten_last {s : State} {e : Nat × Word} (hq : s.path.queue = [e]) (hf : s.path.inFlight = some e)
    (hr : s.path.resync = []) (ha : s.path.awaited = none) :
    ∃ u, s.imageWritten = s.setPath { s.path with queue := [], inFlight := none, urgent := u } := by
  have hdone : s.path.writeDone e =
      { s.path with queue := [], inFlight := none, urgent := urgentAfter s.path.urgent s.path.queue.length 0 } := by
    unfold MemoryPath.writeDone
    rw [hq]
    simp [MemoryPath.withQueue, ha, hq]
  have hrequeue (u : Bool) : (s.setPath { s.path with queue := [], inFlight := none, urgent := u }).requeue =
      s.setPath { s.path with queue := [], inFlight := none, urgent := u } := by
    unfold State.requeue
    simp [hr, ha, MemoryPath.withQueue, urgentAfter]
    rfl
  refine ⟨urgentAfter s.path.urgent s.path.queue.length 0, ?_⟩
  unfold State.imageWritten
  rw [hf]
  simp only [hdone, hrequeue]
  exact if_neg (by simp [MemoryPath.initialised, ha])

end Sys2Proof.Machine
end

section
/-! What a profile restart leaves: the blocks at their starting values, the fault memory without present codes, the window closed and
every image word to be written (11, R194; 04, R95; 08, R163; 06, R128). -/

namespace Sys2Proof.Machine

/-! ## The blocks (R194) -/

/-- The device with its window closed and a running test ended, before its blocks re-initialise. -/
def State.restartEnded (s : State) : State := (s.setPath { s.path with windowOpen := false }).endTest .restart

/-- The blocks as the restart sets them, before it hands anything on. -/
def State.restartBlocks (s : State) (p : Profile) : State :=
  let s1 := (s.restartEnded.setProfile p).setProfStatus .inForce
  let s2 := (s1.setSig {}).setInp s1.inp.started
  let s3 := (s2.setRx (startedLines p)).setDoor (startedDoors p.doors s2.door.doors)
  let s4 := s3.restartWarnings
  let s5 := s4.setInd s4.ind.restarted
  let s6 := s5.setSup { s5.sup with spent := s5.sup.spent && p.hrst }
  s6.setMode { s6.mode with offTimer := none, ignition := .unknown }

theorem beginRestart_eq (s : State) (p : Profile) : s.beginRestart p =
    ((State.doorCauseSince s (s.restartBlocks p)).restartFaults.handMotion s.sig.motion).judgeLevel.startImages := rfl

/-- Every block of the restarted device, written out over the device with its test ended. -/
theorem restartBlocks_eq (s : State) (p : Profile) :
    ∃ q, s.restartBlocks p =
      { s.restartEnded with
        profile := p
        profStatus := .inForce
        sig := {}
        inp := s.restartEnded.inp.started
        rx := startedLines p
        door := startedDoors p.doors s.restartEnded.door.doors
        warn := { voidAcks := s.restartEnded.warn.voidAcks }
        ind := s.restartEnded.ind.restarted
        path := q
        sup := { s.restartEnded.sup with spent := s.restartEnded.sup.spent && p.hrst }
        mode := { s.restartEnded.mode with offTimer := none, ignition := .unknown } } ∧
      q.windowOpen = s.restartEnded.path.windowOpen ∧ q.command = s.restartEnded.path.command := by
  unfold State.restartBlocks State.restartWarnings
  dsimp only
  split
  · exact ⟨s.restartEnded.path.setCause .warning, rfl, rfl, rfl⟩
  · exact ⟨s.restartEnded.path, rfl, rfl, rfl⟩

/-- The end of the test and the closed window are all that happened to the device yet. -/
theorem restartEnded_keeps (s : State) : KeepsBut (.window :: Part.testEnd) s s.restartEnded :=
  (((closeWindow_evolves s).mono (by decide)).trans ((endTest_evolves _ _).mono (by decide))).keeps

theorem restartEnded_window (s : State) : s.restartEnded.path.windowOpen = false :=
  (endTest_evolves _ TestOutcome.restart).keeps .window (by decide)

theorem restartEnded_test (s : State) : s.restartEnded.svc.test = .none := endTest_none _ _

/-! ## Handed on while the window is closed (R71, R83) -/

/-- While the warning unit rests, a report of the fault memory evaluates no warning. -/
theorem commitFaults_resting {s : State} (h : s.path.windowOpen = false) (fm : FaultMemory) (slots : List (Fin 32)) (b : Bool)
    {l : List Part} (hl : ∀ p ∈ Part.images, p ∈ l) (hk : KeepsBut l s (s.setFm fm)) :
    KeepsBut l s (s.commitFaults fm slots b) := by
  have hoffer (offs : List Nat) : KeepsBut l s (State.offerChanged s (s.setFm fm) offs) :=
    hk.trans ((offerChanged_evolves s _ offs).keeps.mono hl)
  have hcause (offs : List Nat) (due : Bool) : KeepsBut l s
      (if due then (State.offerChanged s (s.setFm fm) offs).setCause .fault else State.offerChanged s (s.setFm fm) offs) := by
    split
    · exact (hoffer offs).trans ((setCause_evolves _ _).keeps.mono fun p hp => hl p (by
        rw [List.mem_singleton.1 hp]
        decide))
    · exact hoffer offs
  have hclosed (offs : List Nat) (due : Bool) :
      (if due then (State.offerChanged s (s.setFm fm) offs).setCause .fault
        else State.offerChanged s (s.setFm fm) offs).warningsRun = false := by
    have hsame : (State.offerChanged s (s.setFm fm) offs).path.windowOpen = false :=
      ((offerChanged_evolves s (s.setFm fm) offs).keeps .window (by decide) : _ = _).trans h
    have hcaused : ((State.offerChanged s (s.setFm fm) offs).setCause .fault).path.windowOpen = false := hsame
    split
    · simp [State.warningsRun, hcaused]
    · simp [State.warningsRun, hsame]
  unfold State.commitFaults
  dsimp only
  split
  · exact hcause _ _
  · unfold State.evalWarnings
    rw [if_neg (by rw [hclosed]; decide)]
    exact hcause _ _

/-- A motion state handed on to a resting warning unit changes nothing. -/
theorem handMotion_resting {s : State} (h : s.path.windowOpen = false) (was : Motion) : s.handMotion was = s := by
  have hrests : s.warningsRun = false := by simp [State.warningsRun, h]
  unfold State.handMotion State.evalWarnings
  rw [hrests]
  exact ite_self s

/-- Without a test the level judged anew changes the level and its image only. -/
theorem judgeLevel_noTest {s : State} (h : s.svc.test = .none) : KeepsBut (.level :: Part.images) s s.judgeLevel := by
  have hlevel (on standing brake level : Bool) : KeepsBut (.level :: Part.images) s
      (s.setSvc { s.svc with switchOn := on, standing := standing, brakeOn := brake, level := level }) :=
    fun p hp => by
      cases p with
      | level => exact absurd (by decide) hp
      | _ => simp [Part.Same, State.setSvc]
  have hended {t : State} (ht : t.svc.test = .none) : t.endTest .levelLost = t := if_pos ht
  have htest {t : State} (k : KeepsBut (.level :: Part.images) s t) : t.svc.test = .none := (k .test (by decide)).1.trans h
  unfold State.judgeLevel
  dsimp only
  have hoffered (on standing brake level : Bool) := (hlevel on standing brake level).trans
    ((offerStatus_evolves s _).keeps.mono (k := .level :: Part.images) (by decide))
  rw [hended (htest (hoffered _ _ _ _)), ite_self]
  exact hoffered _ _ _ _

/-! ## The fault memory (R163) -/

theorem foldl_queue_keeps (slots : List (Fin 32)) (fm : FaultMemory) :
    (slots.foldl FaultMemory.queue fm).present = fm.present ∧ (slots.foldl FaultMemory.queue fm).records = fm.records := by
  induction slots generalizing fm with
  | nil => exact ⟨rfl, rfl⟩
  | cons i slots ih =>
    obtain ⟨hpresent, hrecords⟩ := ih (fm.queue i)
    obtain ⟨hp, hr, _⟩ := queue_keeps fm i
    exact ⟨hpresent.trans hp, hrecords.trans hr⟩

theorem restarted_present (fm : FaultMemory) : fm.restarted.present = [] := (foldl_queue_keeps _ _).1

theorem restarted_sameClear (fm : FaultMemory) : fm.SameClear fm.restarted := by
  unfold FaultMemory.restarted
  exact .trans ⟨rfl, rfl, rfl, rfl, rfl⟩ (.queueAll _ _)

theorem setFm_keeps {s : State} {fm : FaultMemory} (h : s.fm.SameClear fm) :
    KeepsBut [.present, .records, .fullness, .writeQueue] s (s.setFm fm) := by
  obtain ⟨hclearing, houtstanding, hrequester, hloaded, hheld⟩ := h
  intro p hp
  cases p with
  | present | records | fullness | writeQueue => exact absurd (by decide) hp
  | clear => exact ⟨hclearing, houtstanding, hrequester⟩
  | loading => exact ⟨hloaded, hheld⟩
  | _ => simp [Part.Same, State.setFm]

theorem restarted_records (fm : FaultMemory) {i : Fin 32} {r : Record} (h : fm.restarted.records.get i = some r) :
    r.state = .passive := by
  unfold FaultMemory.restarted at h
  rw [(foldl_queue_keeps _ _).2, Table.get_map] at h
  split at h
  · contradiction
  · next x _ =>
    split at h
    · contradiction
    · cases h
      rfl
    · next hpassive =>
      cases h
      exact hpassive

/-! ## Image initialisation begins (R128) -/

theorem startImages_awaited (s : State) : s.startImages.path.awaited.isSome = true := rfl

/-- A marked word is queued or stays marked when marked words are re-queued. -/
theorem requeue_offsets (s : State) :
    s.requeue.path.queue.map Prod.fst ++ s.requeue.path.resync = s.path.queue.map Prod.fst ++ s.path.resync := by
  simp [State.requeue, State.setPath, MemoryPath.withQueue, List.map_map, Function.comp_def, List.append_assoc]

/-- The memory path at the beginning of image initialisation, before the first words are queued. -/
def State.markedPath (s : State) : MemoryPath :=
  { s.path with
    queue := s.keptEntry
    resync := imageOffsets.filter (fun o => !(s.keptEntry.map Prod.fst).contains o)
    awaited := some (s.keptEntry.map Prod.fst) }

theorem startImages_offsets (s : State) :
    s.startImages.path.queue.map Prod.fst ++ s.startImages.path.resync =
      s.markedPath.queue.map Prod.fst ++ s.markedPath.resync := by
  have hstart : s.startImages = (s.setPath s.markedPath).requeue.setPath
      { (s.setPath s.markedPath).requeue.path with urgent := s.path.urgent } := rfl
  rw [hstart]
  exact requeue_offsets (s.setPath s.markedPath)

theorem imageOffset_listed {o : Nat} (h : isImageOffset o = true) : o ∈ imageOffsets := by
  have hplace : 4 * (o / 4) = o ∧ o / 4 < 1024 := by
    unfold isImageOffset offResult offStatus offCountA offCountB at h
    simp only [Bool.and_eq_true, Bool.or_eq_true, decide_eq_true_eq] at h
    constructor <;> omega
  unfold imageOffsets
  rw [List.mem_filter, List.mem_map]
  exact ⟨⟨o / 4, List.mem_range.2 hplace.2, hplace.1⟩, h⟩

/-- Every image word is queued or marked. -/
theorem startImages_images (s : State) {o : Nat} (h : isImageOffset o = true) :
    o ∈ s.startImages.path.queue.map Prod.fst ++ s.startImages.path.resync := by
  have hlisted := imageOffset_listed h
  rw [startImages_offsets, State.markedPath, List.mem_append, List.mem_filter]
  by_cases hkept : o ∈ s.keptEntry.map Prod.fst
  · exact Or.inl hkept
  · refine Or.inr ⟨hlisted, ?_⟩
    simpa using hkept

/-! ## The restarted device (R194) -/

section

variable (s : State) (p : Profile)

/-- The restarted blocks with the present codes gone, as they stand before the workshop level is judged. -/
def State.restartHanded : State := (State.doorCauseSince s (s.restartBlocks p)).restartFaults

theorem restartBlocks_window : (s.restartBlocks p).path.windowOpen = false := by
  obtain ⟨q, hblocks, hwindow, _⟩ := restartBlocks_eq s p
  rw [hblocks]
  exact hwindow.trans (restartEnded_window s)

theorem restartBlocks_test : (s.restartBlocks p).svc.test = .none := by
  obtain ⟨q, hblocks, _⟩ := restartBlocks_eq s p
  rw [hblocks]
  exact restartEnded_test s

theorem restartFaults_resting {t : State} (h : t.path.windowOpen = false) :
    KeepsBut (Part.images ++ [.present, .records, .fullness, .writeQueue]) t t.restartFaults :=
  commitFaults_resting h _ _ _ (by decide) ((setFm_keeps (restarted_sameClear t.fm)).mono (by decide))

theorem restartHanded_keeps :
    KeepsBut (Part.images ++ [.present, .records, .fullness, .writeQueue]) (s.restartBlocks p) (s.restartHanded p) := by
  have hcause := (doorCauseSince_evolves s (s.restartBlocks p)).keeps
  have hclosed := (hcause .window (by decide) : _ = _).trans (restartBlocks_window s p)
  exact (hcause.mono (by decide)).trans (restartFaults_resting hclosed)

theorem beginRestart_handed : s.beginRestart p = (s.restartHanded p).judgeLevel.startImages := by
  have hclosed := (restartHanded_keeps s p .window (by decide) : _ = _).trans (restartBlocks_window s p)
  rw [beginRestart_eq, ← State.restartHanded, handMotion_resting hclosed]

theorem judgeLevel_handed : KeepsBut (.level :: Part.images) (s.restartHanded p) (s.restartHanded p).judgeLevel :=
  judgeLevel_noTest ((restartHanded_keeps s p .test (by decide)).1.trans (restartBlocks_test s p))

/-- After the fault memory, the restart hands on the level and begins the images. -/
theorem beginRestart_keeps_handed :
    KeepsBut (.level :: .awaited :: Part.images) (s.restartHanded p) (s.beginRestart p) := by
  rw [beginRestart_handed]
  exact ((judgeLevel_handed s p).mono (by decide)).trans ((startImages_evolves _).keeps.mono (by decide))

theorem restartHanded_fm : (s.restartHanded p).fm = (State.doorCauseSince s (s.restartBlocks p)).fm.restarted :=
  commitFaults_fm ..

/-- What a restart hands on leaves its blocks as they were set. -/
theorem beginRestart_keeps_blocks :
    KeepsBut (.level :: .awaited :: Part.images ++ [.present, .records, .fullness, .writeQueue]) (s.restartBlocks p)
      (s.beginRestart p) :=
  ((restartHanded_keeps s p).mono (by decide)).trans ((beginRestart_keeps_handed s p).mono (by decide))

end

theorem beginRestart_mode (s : State) (p : Profile) : (s.beginRestart p).mode.mode = s.mode.mode := by
  obtain ⟨q, hblocks, _⟩ := restartBlocks_eq s p
  have htail := beginRestart_keeps_blocks s p .opMode (by decide)
  rw [hblocks] at htail
  exact htail.trans (restartEnded_keeps s .opMode (by decide))

theorem displayOrder_eq_nil {s : State} (h : ∀ w, (s.warn.rows.get w).state = .inactive) : s.displayOrder = [] := by
  have hnone : s.warn.rows.indices (fun w => w.state.isActive) = [] :=
    List.eq_nil_iff_forall_not_mem.2 fun w hw => by
      rw [mem_indices, h w] at hw
      contradiction
  unfold State.displayOrder
  rw [hnone]
  rfl

/-- The parts in which the device that a restart begins with may differ from the one that Restarted compares with. -/
def Part.restartBase : List Part := [.loadBuffer, .operation, .store, .cfg, .torn]

/-- The parts that change after the blocks of a restart are set: what the restart hands on, and the controller's next work. -/
def Part.restartTail : List Part := Part.images ++ [.level, .awaited, .present, .records, .fullness] ++ Part.work

theorem beginRestart_present (s : State) (p : Profile) : (s.beginRestart p).fm.present = [] := by
  have hkept := beginRestart_keeps_handed s p .present (by decide)
  rw [Part.Same, restartHanded_fm, restarted_present] at hkept
  exact hkept

theorem beginRestart_records (s : State) (p : Profile) {i : Fin 32} {r : Record}
    (h : (s.beginRestart p).fm.records.get i = some r) : r.state = .passive := by
  have hkept := beginRestart_keeps_handed s p .records (by decide)
  rw [Part.Same, restartHanded_fm] at hkept
  rw [hkept] at h
  exact restarted_records _ h

theorem beginRestart_images (s : State) (p : Profile) :
    (s.beginRestart p).path.awaited.isSome = true ∧
      ∀ o, isImageOffset o = true → o ∈ (s.beginRestart p).path.queue.map Prod.fst ++ (s.beginRestart p).path.resync := by
  rw [beginRestart_handed]
  exact ⟨startImages_awaited _, fun _ => startImages_images _⟩

/-- A restart begun, and the controller's next work taken, leave what Table 11-3 says. -/
theorem beginRestart_restarted {s s' u : State} {p : Profile} (hbase : KeepsBut Part.restartBase s s')
    (hload : s'.loadBuffer = some p) (hwork : KeepsBut Part.work (s'.beginRestart p) u) : Restarted p s u := by
  have hended : KeepsBut (Part.restartBase ++ .window :: Part.testEnd) s s'.restartEnded :=
    (hbase.mono (by decide)).trans ((restartEnded_keeps s').mono (by decide))
  have htail : KeepsBut Part.restartTail (s'.restartBlocks p) u :=
    ((beginRestart_keeps_blocks s' p).mono (by decide)).trans (hwork.mono (by decide))
  obtain ⟨q, hblocks, hwindow, hcommand⟩ := restartBlocks_eq s' p
  rw [hblocks] at htail
  obtain ⟨hawaited, himages⟩ := beginRestart_images s' p
  have hrow (w : Fin 96) : u.warn.rows.get w = ({} : Warning) :=
    (row_of_keeps htail (by decide) (by decide) w).trans (Table.get_const _ w)
  exact
  { profile := ⟨htail .profile (by decide), htail .profStatus (by decide),
      (htail .loadBuffer (by decide) : _ = _).trans ((restartEnded_keeps s' .loadBuffer (by decide)).trans hload)⟩
    window := ⟨(htail .window (by decide) : _ = _).trans (hwindow.trans (restartEnded_window s')),
      (hwork .awaited (by decide) : _ = _) ▸ hawaited⟩
    images := by
      obtain ⟨hqueue, hresync, _⟩ := hwork .queue (by decide)
      rw [hqueue, hresync]
      exact himages
    entries := fun n => by
      rw [(htail .entries (by decide) : u.sig.entries = Table.const 256 {})]
      exact Table.get_const ..
    motion := htail .motion (by decide)
    inputs := fun i => by
      rw [(htail .inputs (by decide) : u.inp.inputs = s'.restartEnded.inp.started.inputs),
        ← (hended .inputs (by decide) : s'.restartEnded.inp.inputs = s.inp.inputs)]
      exact Table.get_map ..
    speed := by
      obtain ⟨htiming, hrunning, hcount, _⟩ := htail .speed (by decide)
      exact ⟨htiming, hrunning, hcount⟩
    lines := fun l => by
      rw [(htail .lines (by decide) : u.rx.lines = (startedLines p).lines), startedLines, Table.get_ofFn]
      exact ⟨rfl, rfl, rfl⟩
    slots := fun i => by
      rw [(htail .slots (by decide) : u.rx.slots = Table.const 64 {})]
      exact Table.get_const ..
    doors := fun d => by
      rw [(htail .doors (by decide) : u.door = startedDoors p.doors s'.restartEnded.door.doors),
        (hended .doors (by decide) : s'.restartEnded.door = s.door), startedDoors, summary, Table.get_ofFn]
      exact ⟨rfl, rfl, rfl, rfl, rfl⟩
    warnings := hrow
    acknowledgement := ⟨htail .clock (by decide), htail .ackLevel (by decide),
      (htail .voidAcks (by decide) : _ = _).trans (hended .voidAcks (by decide)),
      displayOrder_eq_nil fun w => congrArg Warning.state (hrow w)⟩
    gauges := fun g => by
      have htable : u.ind.gauges = Table.const 12 {} := htail .gauges (by decide)
      rw [htable, Table.get_const]
      exact ⟨rfl, rfl⟩
    requests := by
      obtain ⟨hlow, hhigh⟩ := htail .requests (by decide)
      obtain ⟨hlow', hhigh'⟩ := hended .requests (by decide)
      exact ⟨hlow.trans hlow', hhigh.trans hhigh'⟩
    supervision := by
      rw [(htail .supervision (by decide) : u.sup = { s'.restartEnded.sup with spent := s'.restartEnded.sup.spent && p.hrst }),
        (hended .supervision (by decide) : s'.restartEnded.sup = s.sup)]
      exact ⟨rfl, rfl, rfl, rfl, rfl⟩
    present := (hwork .present (by decide) : _ = _).trans (beginRestart_present s' p)
    records := fun i r h => beginRestart_records s' p ((hwork .records (by decide) : _ = _) ▸ h)
    test := (htail .test (by decide)).1.trans (restartEnded_test s')
    busy := (htail .command (by decide) : _ = _).trans (hcommand.trans (hended .command (by decide))) }

theorem restartWith_restarted {s s' u : State} {p : Profile} (hbase : KeepsBut Part.restartBase s s')
    (hwork : KeepsBut Part.work (s'.restartWith p) u) : Restarted p s u :=
  beginRestart_restarted (hbase.trans ((setLoadBuffer_evolves s' _).keeps.mono (by decide))) rfl hwork

end Sys2Proof.Machine
end

section
/-! The pages of a profile store and the RESTART read settled (11, R192 to R194; 06, R129, R130; 04, R95). -/

namespace Sys2Proof.Machine

theorem awake_of_run {s : State} (h : s.mode.mode = .run) : s.mode.mode ≠ .parking := by
  rw [h]
  decide

/-! ## The RESTART read (R193) -/

theorem exec_restartRead {s : State} (hr : s.running) (ho : s.ctrl.operation = .restartRead) (answered : Bool) :
    exec (.restartReadComplete answered) s = .next (s.restartReadDone answered).workAndFlush := by
  simp only [exec, execRestartReadComplete, live_running hr, ho, if_true]

theorem restartReadDone_valid {s : State} {p : Profile} (h : s.storedProfile = some p) :
    s.restartReadDone true = (s.setOperation .none).restartWith p := by
  unfold State.restartReadDone
  rw [h]
  exact if_pos rfl

theorem restartReadDone_invalid {s : State} (h : s.storedProfile = none) :
    s.restartReadDone true =
      ((((s.setOperation .none).setLoadBuffer none).refuse .profileInvalid).momentary .profileBad) := by
  unfold State.restartReadDone
  rw [h]
  exact if_pos rfl

/-- A restart that has begun in RUN, with the controller's next work taken. -/
theorem restartWith_work {s s' : State} {p : Profile} (hm : s'.mode.mode = .run) (hbase : KeepsBut Part.restartBase s s') :
    KeepsBut (Part.restart ++ Part.work) s' (s'.restartWith p).workAndFlush ∧ Restarted p s (s'.restartWith p).workAndFlush := by
  have hwork := workAndFlush_keeps (awake_of_run ((beginRestart_mode _ p).trans hm : (s'.restartWith p).mode.mode = .run))
  exact ⟨((restartWith_evolves s' p).keeps.mono (by decide)).trans (hwork.mono (by decide)), restartWith_restarted hbase hwork⟩

/-! ## The pages of a store (R192) -/

/-- The next page of a store read, or still awaited. -/
theorem storeRead_work {t : State} (hm : t.mode.mode = .run) {p : Profile} {n k : Nat}
    (ho : t.ctrl.operation = .storeRead p n k) (hk : 0 < k) :
    KeepsBut [.operation] t t.workAndFlush ∧
      (t.readerGranted = true → t.workAndFlush.ctrl.operation =
        .storeWrite p n k (if k = n then t.profilePage 0 else t.profilePage k) false) ∧
      (t.readerGranted = false → t.workAndFlush.ctrl.operation = .storeRead p n k) := by
  have hpage : t.storePage n k = if k = n then t.profilePage 0 else t.profilePage k := if_neg (Nat.ne_of_gt hk)
  rw [workAndFlush_storeRead (awake_of_run hm) ho, hpage]
  cases hg : t.readerGranted with
  | true => exact ⟨(setOperation_evolves t _).keeps, fun _ => rfl, Bool.noConfusion⟩
  | false => exact ⟨.refl, Bool.noConfusion, fun _ => ho⟩

theorem writePage_keeps (s : State) (page : Nat) (bytes : List Byte) (o : Operation) :
    KeepsBut [.operation, .cfg, .torn] s ((s.writePage page bytes).setOperation o) :=
  ((writePage_evolves s page bytes).keeps.mono (by decide)).trans ((setOperation_evolves _ o).keeps.mono (by decide))

section

variable {p : Profile} {n k : Nat} {snapshot bytes : List Byte} {retried : Bool} {s : State}

/-- A page before the last verified. -/
theorem gives_pageStored (hr : s.running) (hm : s.mode.mode = .run) (hl : snapshot.length = 64)
    (hw : Memory.wf Config.cfgErased s.cfg = true) (ho : s.ctrl.operation = .storeWrite p n k snapshot retried) (hk : k < n) :
    Gives (.profilePageWriteComplete .stored) s [.operation, .cfg, .torn] (fun t =>
      StoresPage s.cfg t.cfg k snapshot ∧ k ∉ t.ctrl.torn ∧
      (s.path.inFlight = none ∧ s.path.queue = [] ∧ s.path.held = none →
        t.ctrl.operation =
          .storeWrite p n (k + 1) (if k + 1 = n then s.profilePage 0 else s.profilePage (k + 1)) false) ∧
      (s.path.inFlight ≠ none ∨ s.path.queue ≠ [] ∨ s.path.held ≠ none →
        t.ctrl.operation = .storeRead p n (k + 1))) := by
  obtain ⟨hkeeps, hgoes, hwaits⟩ := storeRead_work (t := (s.writePage k snapshot).setOperation (.storeRead p n (k + 1)))
    (p := p) (n := n) (k := k + 1) hm rfl (Nat.succ_pos k)
  have hstored : StoresPage s.cfg (State.workAndFlush _).cfg k snapshot :=
    StoresPage.of_keeps (t := (s.writePage k snapshot).setOperation (.storeRead p n (k + 1))) (writePage_stores hw k hl) hkeeps
      (by decide)
  have htorn := hkeeps .torn (by decide)
  have hgranted : s.readerGranted = true ↔ s.path.inFlight = none ∧ s.path.queue = [] ∧ s.path.held = none := readerGranted_iff s
  refine ⟨_, exec_storeWrite hr ho .stored, ?_⟩
  rw [storeWriteDone_next hk]
  refine ⟨(writePage_keeps s k snapshot _).trans (hkeeps.mono (by decide)), hstored, ?_, fun hfree => ?_, fun hbusy => ?_⟩
  · rw [htorn]
    exact not_mem_torn_writePage s k snapshot
  · exact hgoes (hgranted.2 hfree)
  · refine hwaits (Bool.eq_false_iff.2 fun hg => ?_)
    obtain ⟨hflight, hqueue, hheld⟩ := hgranted.1 hg
    simp [hflight, hqueue, hheld] at hbusy

/-- The last page verified: the profile restart begins. -/
theorem gives_storeDone (hr : s.running) (hm : s.mode.mode = .run) (hl : snapshot.length = 64)
    (hw : Memory.wf Config.cfgErased s.cfg = true) (ho : s.ctrl.operation = .storeWrite p n n snapshot retried) :
    Gives (.profilePageWriteComplete .stored) s (Part.storeDone ++ Part.work) (fun t =>
      Restarted p s t ∧ StoresPage s.cfg t.cfg 0 snapshot ∧ 0 ∉ t.ctrl.torn) := by
  have hended := storeEnded_keeps s snapshot
  obtain ⟨hkeeps, hrestarted⟩ := restartWith_work (s' := s.storeEnded snapshot) (p := p) hm (hended.mono (by decide))
  have htorn := hkeeps .torn (by decide)
  refine ⟨_, exec_storeWrite hr ho .stored, ?_⟩
  rw [storeWriteDone_last]
  refine ⟨(hended.mono (by decide)).trans (hkeeps.mono (by decide)), hrestarted,
    (storeEnded_stores hw hl).of_keeps hkeeps (by decide), ?_⟩
  rw [htorn]
  exact not_mem_torn_storeEnded s snapshot

/-- A page that failed its verification. -/
theorem gives_pageDiffers (hr : s.running) (hm : s.mode.mode = .run) (hl : bytes.length = 64) (hne : bytes ≠ snapshot)
    (hw : Memory.wf Config.cfgErased s.cfg = true) (ho : s.ctrl.operation = .storeWrite p n k snapshot retried) :
    Gives (.profilePageWriteComplete (.differs bytes)) s [.operation, .cfg, .torn] (fun t =>
      StoresPage s.cfg t.cfg (if k = n then 0 else k) bytes ∧
      t.ctrl.operation = if retried then .storeAbort (markedPage (s.profilePage 0)) else .storeWrite p n k snapshot true) := by
  have hbusy {o : Operation} (hfree : o ≠ .none) (hread : ∀ p n k, o ≠ .storeRead p n k) :
      ((s.writePage (if k = n then 0 else k) bytes).setOperation o).workAndFlush =
        (s.writePage (if k = n then 0 else k) bytes).setOperation o :=
    workAndFlush_busy (awake_of_run hm) hfree hread
  refine ⟨_, exec_storeWrite hr ho (.differs bytes), ?_⟩
  rw [storeWriteDone_differs hl hne, hbusy]
  · exact ⟨writePage_keeps _ _ _ _, writePage_stores hw _ hl, rfl⟩
  · cases retried <;> exact Operation.noConfusion
  · cases retried <;> exact fun _ _ _ => Operation.noConfusion

/-- The marked page 0 of an abort written once more: the command is refused, whatever the page holds. -/
theorem gives_storeAborted (hr : s.running) (hm : s.mode.mode = .run) (hloaded : s.fm.loaded = true)
    (hw : Memory.wf Config.cfgErased s.cfg = true) (ho : s.ctrl.operation = .storeAbort snapshot) (o : PageOutcome)
    {held : List Byte} (hheld : writtenBytes snapshot o = held) (hl : held.length = 64) :
    Gives (.profilePageWriteComplete o) s (.command :: .result :: .cfg :: .torn :: Part.faults ++ Part.work) (fun t =>
      StoresPage s.cfg t.cfg 0 held ∧ t.ctrl.store = .none ∧ t.path.command = none ∧
      t.path.result = { value := .refused, code := s.path.command.getD 0, reason := .memoryError } ∧
      t.causePending .command ∧ ReportedOnce s t .configMemory) := by
  have hended := storeEnded_keeps s held
  have hrefused := refuse_report (s := s.storeEnded held) hm hloaded .memoryError .configMemory
  refine ⟨_, exec_storeAbort hr ho o, ?_⟩
  rw [hheld]
  exact ⟨(hended.mono (by decide)).trans (hrefused.keeps.mono (by decide)),
    (storeEnded_stores hw hl).of_keeps hrefused.keeps (by decide), hrefused.store rfl, hrefused.command, hrefused.result,
    hrefused.cause, (hrefused.reported rfl).congr rfl rfl rfl rfl⟩

/-- An image write that ends frees the M-port for the page that the store waits for. -/
theorem gives_pageRead (hr : s.running) (hm : s.mode.mode = .run) {e : Nat × Word}
    (ho : s.ctrl.operation = .storeRead p n k) (hk : 0 < k) (hq : s.path.queue = [e]) (hf : s.path.inFlight = some e)
    (hs : s.path.resync = []) (ha : s.path.awaited = none) (hh : s.path.held = none) :
    Gives .imageWriteComplete s [.inFlight, .queue, .operation] (fun t =>
      t.path.inFlight = none ∧ t.path.queue = [] ∧
      t.ctrl.operation = .storeWrite p n k (if k = n then s.profilePage 0 else s.profilePage k) false) := by
  obtain ⟨u, hwritten⟩ := imageWritten_last hq hf hs ha
  have hforward : s.imageWritten.grantForwarded = s.imageWritten := by
    unfold State.grantForwarded
    rw [hwritten]
    simp only [State.setPath, hh]
  have hexec : exec .imageWriteComplete s = .next s.imageWritten.workAndFlush := by
    simp only [exec, execImageWriteComplete, live_running hr, hf, Option.isSome_some, if_true, hforward]
  have hpath : KeepsBut [.inFlight, .queue] s (s.setPath { s.path with queue := [], inFlight := none, urgent := u }) :=
    fun q hp => by
      cases q with
      | inFlight | queue => exact absurd (by decide) hp
      | _ => simp [Part.Same, State.setPath]
  rw [hwritten] at hexec
  obtain ⟨hkeeps, hgoes, _⟩ := storeRead_work (t := s.setPath { s.path with queue := [], inFlight := none, urgent := u })
    hm ho hk
  refine ⟨_, hexec, (hpath.mono (by decide)).trans (hkeeps.mono (by decide)), hkeeps .inFlight (by decide),
    (hkeeps .queue (by decide)).1, ?_⟩
  exact hgoes ((readerGranted_iff _).2 ⟨rfl, rfl, hh⟩)

end

end Sys2Proof.Machine

open Sys2Proof Sys2Proof.Machine

/-- Settles O53: by what the memory answers and whether its profile is valid. -/
theorem restartRead : Obligations.RestartRead := by
  unfold Obligations.RestartRead
  intro s hr hm hl ho
  have hfree : KeepsBut [.operation] s (s.setOperation .none) := (setOperation_evolves s .none).keeps
  refine ⟨fun p hp => ?_, fun hp => ?_, ?_⟩
  · refine ⟨_, exec_restartRead hr ho true, ?_⟩
    rw [restartReadDone_valid hp]
    obtain ⟨hkeeps, hrestarted⟩ := restartWith_work (s' := s.setOperation .none) (p := p) hm (hfree.mono (by decide))
    exact ⟨(hfree.mono (by decide)).trans (hkeeps.mono (by decide)), hrestarted⟩
  · have hrefused := refuse_report (s := (s.setOperation .none).setLoadBuffer none) hm hl .profileInvalid .profileBad
    refine ⟨_, exec_restartRead hr ho true, ?_, ?_⟩
    · rw [restartReadDone_invalid hp]
      exact ((hfree.mono (by decide)).trans ((setLoadBuffer_evolves _ none).keeps.mono (by decide))).trans
        (hrefused.keeps.mono (by decide))
    · rw [restartReadDone_invalid hp]
      exact ⟨hrefused.command, hrefused.result, hrefused.cause⟩
  · have hrefused := refuse_report (s := s.setOperation .none) hm hl .memoryError .configMemory
    exact ⟨_, exec_restartRead hr ho false, (hfree.mono (by decide)).trans (hrefused.keeps.mono (by decide)),
      hrefused.command, hrefused.result, hrefused.cause⟩

/-- Settles O52: by the operation that the controller performs, each way that its page can end. -/
theorem profilePageWrites : Obligations.ProfilePageWrites := by
  unfold Obligations.ProfilePageWrites
  refine ⟨fun k s => profilePage_pageOf s k, ?_⟩
  intro p n k snapshot bytes retried s hr hm hloaded hsnapshot hbytes hne hw
  refine ⟨gives_pageStored hr hm hsnapshot hw, ?_, gives_storeDone hr hm hsnapshot hw, fun ho => ?_, fun ho => ?_,
    fun ho o held houtcome => ?_⟩
  · intro e ho hk hq hf hs ha hh
    exact gives_pageRead hr hm ho hk hq hf hs ha hh
  · exact gives_pageDiffers hr hm hbytes hne hw ho
  · exact gives_pageDiffers hr hm hbytes hne hw ho
  · obtain ⟨rfl, rfl⟩ | ⟨rfl, rfl⟩ := houtcome
    · exact gives_storeAborted hr hm hloaded hw ho _ rfl hsnapshot
    · exact gives_storeAborted hr hm hloaded hw ho _ (writtenBytes_differs hbytes) hbytes

end

section
/-! What a telltale is commanded, mode by mode, and what of the state that rests on (05, R96 to R98, R115, R117). -/

namespace Sys2Proof.Machine

/-! ## The sources of a function set (R96) -/

theorem sourceTrue_iff (s : State) (k : Fin 48) (q : LampSource) : s.sourceTrue k q = true ↔ s.sourceHolds k q := by
  cases q with
  | warning w => exact isActive_iff _
  | signal n => simp [State.sourceTrue, State.sourceHolds, usable_iff]
  | doorAnyOpen => simp [State.sourceTrue, State.sourceHolds]
  | doorOpen d => rfl
  | hostRequest =>
    simp only [State.sourceTrue, State.sourceHolds, IndicationUnit.requestBit, Bool.and_eq_true, decide_eq_true_eq]
    by_cases hk : k.val < 32
    · simp [hk]
    · simp [hk, Nat.le_of_not_lt hk]
  | hostLost => simp [State.sourceTrue, State.sourceHolds]

theorem any_sourceTrue_iff (s : State) (k : Fin 48) (l : List LampSource) :
    l.any (s.sourceTrue k) = true ↔ ∃ q ∈ l, s.sourceHolds k q := by
  simp only [List.any_eq_true, sourceTrue_iff]

theorem any_sourceUnack_iff (s : State) (l : List LampSource) :
    l.any s.sourceUnack = true ↔ ∃ w, LampSource.warning w ∈ l ∧ (s.warn.rows.get w).state = .activeUnack := by
  rw [List.any_eq_true]
  constructor
  · rintro ⟨q, hq, ht⟩
    cases q with
    | warning w => exact ⟨w, hq, of_decide_eq_true ht⟩
    | _ => exact absurd ht Bool.false_ne_true
  · exact fun ⟨w, hw, ht⟩ => ⟨_, hw, decide_eq_true ht⟩

theorem any_sourceActiveWarning_iff (s : State) (k : Fin 48) (l : List LampSource) :
    l.any s.sourceActiveWarning = true ↔ ∃ w, LampSource.warning w ∈ l ∧ s.sourceHolds k (.warning w) := by
  rw [List.any_eq_true]
  constructor
  · rintro ⟨q, hq, ht⟩
    cases q with
    | warning w => exact ⟨w, hq, (isActive_iff _).mp ht⟩
    | _ => exact absurd ht Bool.false_ne_true
  · exact fun ⟨w, hw, ht⟩ => ⟨_, hw, (isActive_iff _).mpr ht⟩

/-! ## The commanded state (R97, R115, R117) -/

theorem inForce_iff (s : State) : s.inForce = true ↔ s.profStatus = .inForce := decide_eq_true_iff

section

variable {s : State}

theorem commanded_run (hf : s.inForce = true) (hm : s.mode.mode = .run) (k : Fin 48) :
    s.commanded k =
      if s.allLampsOn then .on
      else if (s.profile.lamps.get k).sources.any (s.sourceTrue k) then
        if (s.profile.lamps.get k).blinkUnack && (s.profile.lamps.get k).sources.any s.sourceUnack then .blink else .on
      else .off := by
  unfold State.commanded
  rw [(inForce_iff s).mp hf, hm]

theorem commanded_asleep (hf : s.inForce = true) (hm : s.mode.mode = .parking ∨ s.mode.mode = .parked) (k : Fin 48) :
    s.commanded k = if (s.profile.lamps.get k).sources.any s.sourceActiveWarning then .on else .off := by
  unfold State.commanded
  rw [(inForce_iff s).mp hf]
  rcases hm with hm | hm <;> rw [hm]

theorem commanded_noProfile (h : s.profStatus = .noProfile) (k : Fin 48) :
    s.commanded k = if k.val = 0 ∧ s.mode.mode ≠ .parking ∧ s.mode.mode ≠ .parked then .on else .off := by
  unfold State.commanded
  rw [h]

theorem commanded_before (h : s.profStatus = .notYet ∨ s.inForce = true ∧ s.mode.mode = .start) (k : Fin 48) :
    s.commanded k = .off := by
  unfold State.commanded
  rcases h with h | ⟨hf, hm⟩
  · rw [h]
  · rw [(inForce_iff s).mp hf, hm]

theorem allLampsOn_iff (s : State) : s.allLampsOn = true ↔ s.ind.lampCheck.isSome = true ∨ s.svc.test = .lamp := by
  simp [State.allLampsOn]

theorem commanded_allOn (hf : s.inForce = true) (hm : s.mode.mode = .run)
    (h : s.ind.lampCheck.isSome = true ∨ s.svc.test = .lamp) (k : Fin 48) : s.commanded k = .on := by
  rw [commanded_run hf hm, if_pos ((allLampsOn_iff s).mpr h)]

end

/-- A commanded state rests on the profile, the mode, the sources and the two tests, and not on the telltales themselves. -/
theorem commanded_congr {s t : State} (hp : t.profile = s.profile) (hs : t.profStatus = s.profStatus)
    (hm : t.mode.mode = s.mode.mode) (he : t.sig.entries = s.sig.entries) (hd : t.door = s.door)
    (hw : ∀ w, (t.warn.rows.get w).state = (s.warn.rows.get w).state)
    (hlow : t.ind.requestLow = s.ind.requestLow) (hhigh : t.ind.requestHigh = s.ind.requestHigh)
    (hc : t.ind.lampCheck = s.ind.lampCheck) (hsup : t.sup = s.sup) (htest : t.svc.test = s.svc.test) (k : Fin 48) :
    t.commanded k = s.commanded k := by
  have htrue : t.sourceTrue k = s.sourceTrue k := by
    funext q
    cases q <;>
      simp only [State.sourceTrue, quality_congr he, value_congr he, IndicationUnit.requestBit, hd, hw, hlow, hhigh, hsup]
  have hunack : t.sourceUnack = s.sourceUnack := by
    funext q
    cases q <;> simp only [State.sourceUnack, hw]
  have hactive : t.sourceActiveWarning = s.sourceActiveWarning := by
    funext q
    cases q <;> simp only [State.sourceActiveWarning, hw]
  unfold State.commanded State.allLampsOn
  rw [hp, hs, hm, hc, htest, htrue, hunack, hactive]

/-- The parts of the state that a commanded state rests on. -/
def Part.commanding : List Part :=
  [.profile, .profStatus, .opMode, .entries, .doors, .warnings, .requests, .lampCheck, .supervision, .test]

theorem commanded_of_keeps {l : List Part} {s t : State} (h : KeepsBut l s t) (hl : ∀ p ∈ Part.commanding, p ∉ l)
    (k : Fin 48) : t.commanded k = s.commanded k := by
  obtain ⟨hlow, hhigh⟩ := h .requests (hl _ (by decide))
  obtain ⟨htest, -⟩ := h .test (hl _ (by decide))
  exact commanded_congr (h .profile (hl _ (by decide))) (h .profStatus (hl _ (by decide))) (h .opMode (hl _ (by decide)))
    (h .entries (hl _ (by decide))) (h .doors (hl _ (by decide))) (warningState_of_keeps h (hl _ (by decide))) hlow hhigh
    (h .lampCheck (hl _ (by decide))) (h .supervision (hl _ (by decide))) htest k

/-! ## Evaluations (R98) -/

theorem evalLamps_commanded (s : State) {p : Fin 48 → Bool} {k : Fin 48} (h : p k = true) :
    ((s.evalLamps p).ind.lamps.get k).commanded = s.commanded k := by
  unfold State.evalLamps State.withLamps
  simp only [State.setInd_ind, Table.get_ofFn, redrive_commanded, h, if_true]

/-- An evaluation of every telltale leaves each at the state that it is then commanded. -/
theorem evalAllLamps_settled (s : State) (k : Fin 48) :
    (s.evalAllLamps.ind.lamps.get k).commanded = s.evalAllLamps.commanded k :=
  (evalAllLamps_commanded s k).trans (commanded_of_keeps (evalAllLamps_evolves s).keeps (by decide) k).symm

end Sys2Proof.Machine

open Sys2Proof Sys2Proof.Machine

/-- Settles O30: by the mode and by what is in force. -/
theorem telltaleCommanded : Obligations.TelltaleCommanded := by
  refine fun s k => ⟨fun hm hf => ⟨fun hall => commanded_allOn hf hm hall k, fun hc ht => ?_, fun w hw ha => ?_⟩,
    fun hm hf => ?_, fun hn => ?_, fun h => commanded_before h k, evalAllLamps_commanded s k⟩
  · have hoff : s.allLampsOn = false := by simp [State.allLampsOn, hc, ht]
    have hrun := (commanded_run hf hm k).trans (if_neg (by rw [hoff]; decide))
    refine ⟨fun hq => ?_, fun hq => hrun.trans (if_neg fun h => hq ((any_sourceTrue_iff s k _).mp h))⟩
    rw [if_pos ((any_sourceTrue_iff s k _).mpr hq)] at hrun
    simp only [Bool.and_eq_true, any_sourceUnack_iff] at hrun
    exact ⟨fun hu => hrun.trans (if_pos hu), fun hu => hrun.trans (if_neg hu)⟩
  · have hq : (s.profile.lamps.get k).sources.any (s.sourceTrue k) = true := (any_sourceTrue_iff s k _).mpr ⟨_, hw, ha⟩
    rw [commanded_run hf hm, if_pos hq]
    split
    · decide
    · split <;> decide
  · rw [commanded_asleep hf hm]
    exact ⟨fun h => if_pos ((any_sourceActiveWarning_iff s k _).mpr h),
      fun h => if_neg fun g => h ((any_sourceActiveWarning_iff s k _).mp g)⟩
  · rw [commanded_noProfile hn]
    refine ⟨fun ⟨hk, hm⟩ => if_pos ⟨by rw [hk]; rfl, hm⟩, fun h => if_neg ?_⟩
    rintro ⟨hk, hp, hd⟩
    rcases h with h | h | h
    · exact h (Fin.ext hk)
    · exact hp h
    · exact hd h

end

section
/-! The blink clock and the open-load timers of telltales (05, R99, R101). -/

namespace Sys2Proof.Machine

/-! ## A telltale driven anew (R101) -/

section

variable {b : Blink} {l : Lamp}

theorem lampDriven_on (h : l.commanded = .on) : lampDriven b l = true := by
  unfold lampDriven
  rw [h]

theorem lampDriven_off (h : l.commanded = .off) : lampDriven b l = false := by
  unfold lampDriven
  rw [h]

theorem lampDriven_onPhase (h : l.commanded = .blink) (ms : Nat) : lampDriven (.onPhase ms) l = true := by
  unfold lampDriven
  rw [h]

theorem lampDriven_offPhase (h : l.commanded = .blink) (ms : Nat) : lampDriven (.offPhase ms) l = false := by
  unfold lampDriven
  rw [h]

theorem redrive_stops {sensing is : Bool} (h : sensing = false ∨ is = false) (was : Bool) (l : Lamp) :
    l.redrive sensing was is = l.stopTimers := by
  unfold Lamp.redrive
  rw [if_pos (by rcases h with rfl | rfl <;> simp)]

theorem redrive_goesOn (l : Lamp) : l.redrive true true true = l := rfl

theorem redrive_begins (l : Lamp) : l.redrive true false true = l.startTimers := rfl

theorem startTimers_eq (l : Lamp) :
    l.startTimers =
      { l with
        faultTimer := if l.senseOpen then some 0 else none
        clearTimer := if l.senseOpen then none else some 0 } := by
  unfold Lamp.startTimers
  cases h : l.senseOpen <;> rfl

end

theorem withLamps_get (s : State) (lamps : Table 48 Lamp) (b : Blink) (k : Fin 48) :
    (s.withLamps lamps b).ind.lamps.get k =
      (lamps.get k).redrive (s.profile.lamps.get k).sensing (lampDriven s.ind.blink (s.ind.lamps.get k))
        (lampDriven b (lamps.get k)) := Table.get_ofFn ..

/-! ## The blink clock (R99) -/

section

variable {s : State} {ms : Nat}

theorem exec_blinkPhaseEnd (hr : s.running) (h : s.ind.blink.over = true) :
    exec .blinkPhaseEnd s = .next s.endBlinkPhase := congrArg Host.Outcome.next ((live_running hr _).trans (if_pos h))

theorem endBlinkPhase_on (h : s.ind.blink = .onPhase ms) : s.endBlinkPhase = s.withLamps s.ind.lamps (.offPhase 0) := by
  unfold State.endBlinkPhase
  rw [h]

theorem endBlinkPhase_off (h : s.ind.blink = .offPhase ms) : s.endBlinkPhase = s.withLamps s.ind.lamps (.onPhase 0) := by
  unfold State.endBlinkPhase
  rw [h]

/-- In the off-phase only a telltale that is ON stays driven. -/
theorem offPhase_redrives {c : LampState} {l : Lamp} (h : l.commanded = c) (sensing : Bool) :
    l.redrive sensing (lampDriven (.onPhase ms) l) (lampDriven (.offPhase 0) l) =
      { l with
        faultTimer := if c = .on ∧ sensing = true then l.faultTimer else none
        clearTimer := if c = .on ∧ sensing = true then l.clearTimer else none } := by
  cases c with
  | on =>
    rw [lampDriven_on h, lampDriven_on h]
    cases sensing with
    | true => rfl
    | false => exact redrive_stops (.inl rfl) _ l
  | off => exact redrive_stops (.inr (lampDriven_off h)) _ l
  | blink => exact redrive_stops (.inr (lampDriven_offPhase h 0)) _ l

end

/-! ## The open-load sense (R101) -/

theorem setLamp_evolves (s : State) (k : Fin 48) (l : Lamp) : Evolves [.lamps] s (s.setLamp k l) :=
  setInd_evolves fun p hp => by
    cases p with
    | lamps => exact absurd (by decide) hp
    | _ => simp [Part.Same]

theorem setLamp_get (s : State) (k : Fin 48) (l : Lamp) :
    (s.setLamp k l).ind.lamps.get k = l ∧ ∀ j, j ≠ k → (s.setLamp k l).ind.lamps.get j = s.ind.lamps.get j :=
  ⟨Table.get_set_self .., fun _ hj => Table.get_set_ne _ hj.symm _⟩

/-- A telltale whose sense has come to another level. -/
def State.sensed (s : State) (k : Fin 48) (b : Bool) : Lamp :=
  { s.ind.lamps.get k with
    senseOpen := b
    faultTimer := if (s.profile.lamps.get k).sensing && lampDriven s.ind.blink (s.ind.lamps.get k) && b then some 0 else none
    clearTimer := if (s.profile.lamps.get k).sensing && lampDriven s.ind.blink (s.ind.lamps.get k) && !b then some 0 else none }

theorem senseChange_same (s : State) (k : Fin 48) : s.senseChange k (s.ind.lamps.get k).senseOpen = s := if_pos rfl

theorem senseChange_changed {s : State} {k : Fin 48} {b : Bool} (h : b ≠ (s.ind.lamps.get k).senseOpen) :
    s.senseChange k b = s.setLamp k (s.sensed k b) := by
  unfold State.senseChange State.sensed
  dsimp only
  rw [if_neg h.symm]
  split
  · next hd =>
    rw [hd, startTimers_eq]
    cases b <;> rfl
  · next hd =>
    rw [Bool.eq_false_of_not_eq_true hd]
    rfl

/-! ## Presence of an open lamp through a report (R101, R156) -/

/-- The open-load presence of every telltale is as it was. -/
structure OpenLoadsKept (s t : State) : Prop where
  lampOpen : ∀ j, (t.ind.lamps.get j).lampOpen = (s.ind.lamps.get j).lampOpen

namespace OpenLoadsKept

theorem refl {s : State} : OpenLoadsKept s s := ⟨fun _ => rfl⟩

theorem same {s t : State} (h : t.ind.lamps = s.ind.lamps) : OpenLoadsKept s t := ⟨fun _ => by rw [h]⟩

theorem trans {s t u : State} (h : OpenLoadsKept s t) (g : OpenLoadsKept t u) : OpenLoadsKept s u :=
  ⟨fun j => (g.lampOpen j).trans (h.lampOpen j)⟩

/-- The telltales are still the same when the operation begins. -/
theorem after {s t u : State} (g : OpenLoadsKept t u) (h : t.ind.lamps = s.ind.lamps) : OpenLoadsKept s u := (same h).trans g

/-- An operation that leaves the telltales alone. -/
theorem of {l : List Part} {s t : State} (h : Evolves l s t) (hl : Part.lamps ∉ l) : OpenLoadsKept s t :=
  same (h.keeps .lamps hl).1

theorem ite {s t u : State} {c : Prop} [Decidable c] (h : OpenLoadsKept s t) (g : OpenLoadsKept s u) :
    OpenLoadsKept s (if c then t else u) := by
  split <;> assumption

theorem iteThen {s t u : State} {c : Prop} [Decidable c] (h : OpenLoadsKept s t) (g : OpenLoadsKept t u) :
    OpenLoadsKept s (if c then u else t) := ite (h.trans g) h

end OpenLoadsKept

theorem redrive_lampOpen (sensing was is : Bool) (l : Lamp) : (l.redrive sensing was is).lampOpen = l.lampOpen := by
  unfold Lamp.redrive Lamp.stopTimers Lamp.startTimers
  repeat' split
  all_goals rfl

theorem evalLamps_openLoads (s : State) (p : Fin 48 → Bool) : OpenLoadsKept s (s.evalLamps p) := ⟨fun j => by
  unfold State.evalLamps
  rw [withLamps_get, redrive_lampOpen, Table.get_ofFn]
  split <;> rfl⟩

theorem endTest_openLoads (s : State) (o : TestOutcome) : OpenLoadsKept s (s.endTest o) := by
  unfold State.endTest
  refine .ite .refl ?_
  dsimp only
  generalize hx : s.setSvc _ = x
  have h : OpenLoadsKept s (s.offerStatus x) := .after (.of (offerStatus_evolves s x) (by decide)) (by rw [← hx]; rfl)
  split
  · exact h
  · exact h.trans (evalLamps_openLoads _ _)
  · exact h.trans (.of (Evolves.forEach leaveSweep_evolves _ _) (by decide))
  · exact h.trans (.of (endChimeTest_evolves _) (by decide))

theorem commitWarnings_openLoads (s : State) (rows : Table 96 Warning) : OpenLoadsKept s (s.commitWarnings rows) := by
  unfold State.commitWarnings
  dsimp only
  refine .trans ?_ (.of (evalChime_evolves _) (by decide))
  refine .trans ?_ (evalLamps_openLoads _ _)
  refine .iteThen ?_ (endTest_openLoads _ _)
  refine .iteThen ?_ (.of (setCause_evolves _ _) (by decide))
  exact .after (.of (offerChanged_evolves _ _ _) (by decide)) rfl

theorem commitFaults_openLoads (s : State) (fm : FaultMemory) (slots : List (Fin 32)) (b : Bool) :
    OpenLoadsKept s (s.commitFaults fm slots b) := by
  unfold State.commitFaults
  dsimp only
  have offered : OpenLoadsKept s (State.offerChanged s (s.setFm fm) (recordOffsets slots ++ [offCountB, offStatus])) :=
    .after (.of (offerChanged_evolves _ _ _) (by decide)) rfl
  have flagged := fun c : Bool => OpenLoadsKept.iteThen (c := c = true) offered (.of (setCause_evolves _ .fault) (by decide))
  exact .ite (flagged _) ((flagged _).trans (.ite (commitWarnings_openLoads _ _) .refl))

theorem appear_openLoads (s : State) (c : FaultCode) : OpenLoadsKept s (s.appear c) := by
  unfold State.appear
  refine .ite .refl (.ite (commitFaults_openLoads ..) ?_)
  dsimp only
  split
  · split
    · exact .same rfl
    · exact .ite (commitFaults_openLoads ..) (.same rfl)
  · exact commitFaults_openLoads ..

theorem disappear_openLoads (s : State) (c : FaultCode) : OpenLoadsKept s (s.disappear c) := by
  unfold State.disappear
  refine .ite ?_ .refl
  dsimp only
  split
  · exact .same rfl
  · split
    · exact .same rfl
    · split
      · exact commitFaults_openLoads ..
      · exact commitFaults_openLoads ..
      · exact .same rfl

/-! ## The two expiries (R101) -/

section

variable {s : State} {k : Fin 48}

theorem exec_openLoadExpiry (hr : s.running) {e : Nat} (ht : (s.ind.lamps.get k).faultTimer = some e) (he : 200 ≤ e) :
    exec (.openLoadExpiry k) s = .next (s.openLoadExpiry k).takeWork :=
  congrArg Host.Outcome.next ((live_running hr _).trans (if_pos (reached_iff.mpr ⟨e, ht, he⟩)))

theorem exec_clearExpiry (hr : s.running) {e : Nat} (ht : (s.ind.lamps.get k).clearTimer = some e) (he : 200 ≤ e) :
    exec (.clearExpiry k) s = .next (s.clearExpiry k).takeWork :=
  congrArg Host.Outcome.next ((live_running hr _).trans (if_pos (reached_iff.mpr ⟨e, ht, he⟩)))

/-- The telltale that its open-load expiry finds, with the fault present. -/
def Lamp.foundOpen (l : Lamp) : Lamp := { l with faultTimer := none, lampOpen := true }

/-- The telltale that its clear expiry finds, without the fault. -/
def Lamp.foundClear (l : Lamp) : Lamp := { l with clearTimer := none, lampOpen := false }

theorem openLoadExpiry_eq (s : State) (k : Fin 48) :
    s.openLoadExpiry k =
      if (s.ind.lamps.get k).lampOpen then s.setLamp k (s.ind.lamps.get k).foundOpen
      else (s.setLamp k (s.ind.lamps.get k).foundOpen).appear (lampCode k) := rfl

theorem clearExpiry_eq (s : State) (k : Fin 48) :
    s.clearExpiry k =
      if (s.ind.lamps.get k).lampOpen then (s.setLamp k (s.ind.lamps.get k).foundClear).disappear (lampCode k)
      else s.setLamp k (s.ind.lamps.get k).foundClear := rfl

theorem openLoadExpiry_keeps (s : State) (k : Fin 48) : KeepsBut Part.faults s (s.openLoadExpiry k) := by
  have hset := (setLamp_evolves s k (s.ind.lamps.get k).foundOpen).mono (k := Part.faults) (by decide)
  rw [openLoadExpiry_eq]
  exact (Evolves.ite hset (hset.trans (appear_evolves _ _))).keeps

theorem clearExpiry_keeps (s : State) (k : Fin 48) : KeepsBut Part.faults s (s.clearExpiry k) := by
  have hset := (setLamp_evolves s k (s.ind.lamps.get k).foundClear).mono (k := Part.faults) (by decide)
  rw [clearExpiry_eq]
  exact (Evolves.ite (hset.trans (disappear_evolves _ _)) hset).keeps

/-- A report made after telltale `k` was replaced leaves every presence as the replacement gave it. -/
theorem OpenLoadsKept.after_setLamp {l : Lamp} {t : State} (h : OpenLoadsKept (s.setLamp k l) t) :
    (t.ind.lamps.get k).lampOpen = l.lampOpen ∧
      ∀ j, j ≠ k → (t.ind.lamps.get j).lampOpen = (s.ind.lamps.get j).lampOpen := by
  obtain ⟨hself, hothers⟩ := setLamp_get s k l
  exact ⟨by rw [h.lampOpen, hself], fun j hj => by rw [h.lampOpen, hothers j hj]⟩

theorem openLoadExpiry_openLoads (s : State) (k : Fin 48) :
    OpenLoadsKept (s.setLamp k (s.ind.lamps.get k).foundOpen) (s.openLoadExpiry k) := by
  rw [openLoadExpiry_eq]
  exact .ite .refl (appear_openLoads _ _)

theorem clearExpiry_openLoads (s : State) (k : Fin 48) :
    OpenLoadsKept (s.setLamp k (s.ind.lamps.get k).foundClear) (s.clearExpiry k) := by
  rw [clearExpiry_eq]
  exact .ite (disappear_openLoads _ _) .refl

theorem openLoadExpiry_reports (h : (s.ind.lamps.get k).lampOpen = false) : Reported s (s.openLoadExpiry k) (lampCode k) :=
  fun hroom => by
    rw [openLoadExpiry_eq, h]
    exact mem_appear (s := s.setLamp k (s.ind.lamps.get k).foundOpen) hroom

theorem clearExpiry_withdraws (h : (s.ind.lamps.get k).lampOpen = true) : lampCode k ∉ (s.clearExpiry k).fm.present := by
  rw [clearExpiry_eq, if_pos h, disappear_present]
  simp

end

end Sys2Proof.Machine

open Sys2Proof Sys2Proof.Machine

/-- Settles O31: the two ends of a blink phase, a change of the sense, and the two expiries. -/
theorem blinkAndOpenLoad : Obligations.BlinkAndOpenLoad := by
  refine ⟨fun ms s hr hms => ⟨fun hb => ?_, fun hb => ?_⟩,
    fun k s => ⟨fun b hne => ?_, ?_, fun e hr ht he => ?_, fun e hr ht he => ?_⟩⟩
  · have hover : s.ind.blink.over = true := (blinkOver_iff _).mpr ⟨ms, .inl hb, hms⟩
    refine ⟨_, (exec_blinkPhaseEnd hr hover).trans (congrArg _ (endBlinkPhase_on hb)), (withLamps_evolves ..).keeps, rfl,
      fun k => ?_⟩
    rw [withLamps_get, hb]
    exact offPhase_redrives rfl _
  · have hover : s.ind.blink.over = true := (blinkOver_iff _).mpr ⟨ms, .inr hb, hms⟩
    refine ⟨_, (exec_blinkPhaseEnd hr hover).trans (congrArg _ (endBlinkPhase_off hb)), (withLamps_evolves ..).keeps, rfl,
      fun k => ⟨fun hc hs => ?_, fun hc hs => ?_, fun hoff => ?_⟩⟩
    · rw [withLamps_get, lampDriven_on hc, lampDriven_on hc, hs, redrive_goesOn]
    · rw [withLamps_get, hb, lampDriven_offPhase hc, lampDriven_onPhase hc, hs, redrive_begins, startTimers_eq]
    · rw [withLamps_get, redrive_stops (hoff.symm.imp_right lampDriven_off)]
      rfl
  · obtain ⟨hself, hothers⟩ := setLamp_get s k (s.sensed k b)
    exact ⟨_, congrArg Host.Outcome.next (senseChange_changed hne), (setLamp_evolves ..).keeps, hself, rfl, hothers⟩
  · exact congrArg Host.Outcome.next (senseChange_same s k)
  · obtain ⟨hself, hothers⟩ := (openLoadExpiry_openLoads s k).after_setLamp
    refine gives_work (exec_openLoadExpiry hr ht he) (openLoadExpiry_keeps s k) ?_
    rw [takeWork_ind]
    exact ⟨hself, hothers, fun h => by rw [Reported, takeWork_present]; exact openLoadExpiry_reports h⟩
  · obtain ⟨hself, hothers⟩ := (clearExpiry_openLoads s k).after_setLamp
    refine gives_work (exec_clearExpiry hr ht he) (clearExpiry_keeps s k) ?_
    rw [takeWork_ind, takeWork_present]
    exact ⟨hself, hothers, clearExpiry_withdraws⟩

end

section
/-! The lamp request words and the end of the lamp check (05, R102, R103; 06, R121, R129). -/

namespace Sys2Proof.Machine

section

variable {s : State} {upper : Bool} {word : Word}

/-- A request word reaches its copy and goes on to SRAM. -/
theorem exec_lampRequestWrite (h : s.hostReady) :
    exec (.lampRequestWrite upper word) s = .next (s.writeRequest upper word) := by
  obtain ⟨hr, hport, hopen⟩ := h
  refine congrArg Host.Outcome.next ((live_running hr _).trans ((if_pos hport).trans ?_))
  unfold State.writeOffset
  rw [hopen]
  cases upper <;> rfl

theorem writeRequest_parked (h : s.mode.mode = .parked) : s.writeRequest upper word = s := if_pos h

theorem writeRequest_awake (h : s.mode.mode ≠ .parked) :
    s.writeRequest upper word = (s.takeRequest upper word).forwardWord (if upper then 0x0684 else 0x0680) word := if_neg h

theorem takeRequest_requests :
    (s.takeRequest upper word).ind.requestHigh = (if upper then word else s.ind.requestHigh) ∧
      (s.takeRequest upper word).ind.requestLow = (if upper then s.ind.requestLow else word) := by
  cases upper <;> exact ⟨rfl, rfl⟩

/-- The M-port's grant and the addresses are judged by the memory path, which the indication does not touch. -/
theorem takeRequest_forwards (hs : Memory.wf Config.sramErased s.sram = true) (off : Nat) :
    Forwards s s ((s.takeRequest upper word).forwardWord off word) (s.windowAddr off) word 0xF :=
  forwardWrite_forwards (s := s.takeRequest upper word) hs (s.windowAddr off) word 0xF

/-- A telltale that names HOST_REQUEST and whose bit changed is commanded anew (R98, R102). -/
theorem takeRequest_evaluates {k : Fin 48} (hq : LampSource.hostRequest ∈ (s.profile.lamps.get k).sources)
    (hb : s.ind.requestBit k ≠ (s.takeRequest upper word).ind.requestBit k) :
    ((s.takeRequest upper word).ind.lamps.get k).commanded = (s.takeRequest upper word).commanded k := by
  have hn : namesRequest (s.profile.lamps.get k) = true := List.any_eq_true.mpr ⟨_, hq, by decide⟩
  unfold State.takeRequest at hb ⊢
  dsimp only at hb ⊢
  rw [evalLamps_commanded, commanded_of_keeps (evalLamps_evolves _ _).keeps (by decide)]
  simp only [hn, Bool.true_and, bne_iff_ne, ne_eq]
  exact hb

theorem exec_lampCheckExpiry (hr : s.running) {e : Nat} (hc : s.ind.lampCheck = some e) (he : s.profile.lampCheck ≤ e) :
    exec .lampCheckExpiry s = .next (s.setInd { s.ind with lampCheck := none }).evalAllLamps :=
  congrArg Host.Outcome.next ((live_running hr _).trans (if_pos (reached_iff.mpr ⟨e, hc, he⟩)))

end

theorem endLampCheck_keeps (s : State) : KeepsBut [.lampCheck] s (s.setInd { s.ind with lampCheck := none }) := fun p hp => by
  cases p with
  | lampCheck => exact absurd (by decide) hp
  | _ => simp [Part.Same]

end Sys2Proof.Machine

open Sys2Proof Sys2Proof.Machine

/-- Settles O32: a request word taken awake and in PARKED, and the lamp check's end. -/
theorem lampRequests : Obligations.LampRequests := by
  refine fun s => ⟨fun upper word h hm hs => ?_, fun upper word h hm => ?_, fun e hr hc he => ?_⟩
  · have hkeeps := (forwardWord_evolves (s.takeRequest upper word) (if upper then 0x0684 else 0x0680) word).keeps
    have hind : ((s.takeRequest upper word).forwardWord (if upper then 0x0684 else 0x0680) word).ind =
        (s.takeRequest upper word).ind := by
      unfold State.forwardWord State.forward
      split <;> rfl
    obtain ⟨hhigh, hlow⟩ := takeRequest_requests (s := s) (upper := upper) (word := word)
    refine ⟨_, (exec_lampRequestWrite h).trans (congrArg _ (writeRequest_awake hm)), ?_, ?_, ?_, takeRequest_forwards hs _,
      fun k hq hb => ?_⟩
    · exact ((takeRequest_evolves s upper word).keeps.mono (by decide)).trans (hkeeps.mono (by decide))
    · rw [hind, hhigh]
    · rw [hind, hlow]
    · rw [hind] at hb ⊢
      rw [commanded_of_keeps hkeeps (by decide), takeRequest_evaluates hq hb]
  · rw [exec_lampRequestWrite h, writeRequest_parked hm]
  · refine ⟨_, exec_lampCheckExpiry hr hc he, ?_, rfl, evalAllLamps_settled _⟩
    exact ((endLampCheck_keeps s).mono (by decide)).trans ((evalAllLamps_evolves _).keeps.mono (by decide))

end

section
/-! The position of a BOUND gauge: the quotient of the scaled distance, truncated and clamped (05, R107). -/

namespace Sys2Proof.Machine

/-- The part `a` of a span `d` scaled to full scale, truncated towards zero and clamped to 0 to full scale. -/
def scaled (full : Nat) (a d : Int) : Nat := min (Int.tdiv ((full : Int) * a) d).toNat full

section

variable {full : Nat} {a d : Int}

theorem scaled_before (hd : 0 < d) (ha : a ≤ 0) : scaled full a d = 0 := by
  have hq : Int.tdiv ((full : Int) * a) d ≤ 0 := by
    rw [← Int.neg_nonneg, ← Int.neg_tdiv]
    rw [← Int.mul_neg]
    exact Int.tdiv_nonneg (Int.mul_nonneg (Int.natCast_nonneg full) (by omega)) (le_of_lt hd)
  rw [scaled, Int.toNat_of_nonpos hq, Nat.zero_min]

theorem scaled_beyond (hd : 0 < d) (ha : d ≤ a) : scaled full a d = full := by
  have hq : (full : Int) ≤ Int.tdiv ((full : Int) * a) d := by
    rw [Int.tdiv_eq_ediv_of_nonneg (Int.mul_nonneg (Int.natCast_nonneg full) (by omega))]
    exact Int.le_ediv_of_mul_le hd (Int.mul_le_mul_of_nonneg_left ha (Int.natCast_nonneg full))
  exact min_eq_right (by omega)

/-- Within the span the position is the whole number of steps that fit. -/
theorem scaled_within (hd : 0 < d) (h0 : 0 ≤ a) (ha : a ≤ d) :
    (scaled full a d : Int) * d ≤ full * a ∧ (full : Int) * a < (scaled full a d + 1) * d := by
  have hpos : 0 ≤ (full : Int) * a := Int.mul_nonneg (Int.natCast_nonneg full) h0
  have hle : (full : Int) * a / d ≤ full :=
    Int.ediv_le_of_le_mul hd (Int.mul_le_mul_of_nonneg_left ha (Int.natCast_nonneg full))
  have hq : (scaled full a d : Int) = full * a / d := by
    rw [scaled, Int.tdiv_eq_ediv_of_nonneg hpos]
    have := Int.ediv_nonneg hpos (le_of_lt hd)
    omega
  rw [hq]
  exact ⟨Int.ediv_mul_le _ (ne_of_gt hd), Int.lt_ediv_add_one_mul_self _ hd⟩

end

section

variable {full : Nat} {rawZero rawFull : BitVec 16}

theorem boundTarget_equal (h : rawZero = rawFull) (v : BitVec 16) :
    boundTarget full rawZero rawFull v = if v.toInt < rawZero.toInt then 0 else full := if_pos h

theorem boundTarget_rising (h : rawZero.toInt < rawFull.toInt) (v : BitVec 16) :
    boundTarget full rawZero rawFull v = scaled full (v.toInt - rawZero.toInt) (rawFull.toInt - rawZero.toInt) :=
  if_neg fun e => (ne_of_lt h) (congrArg BitVec.toInt e)

/-- A reversed scale is the rising one read from the other end: both distances change their sign. -/
theorem boundTarget_falling (h : rawFull.toInt < rawZero.toInt) (v : BitVec 16) :
    boundTarget full rawZero rawFull v = scaled full (rawZero.toInt - v.toInt) (rawZero.toInt - rawFull.toInt) := by
  refine (if_neg fun e => (ne_of_gt h) (congrArg BitVec.toInt e)).trans ?_
  rw [scaled, ← Int.neg_tdiv_neg, ← Int.mul_neg, Int.neg_sub, Int.neg_sub]

end

theorem boundTarget_le (full : Nat) (rawZero rawFull v : BitVec 16) : boundTarget full rawZero rawFull v ≤ full := by
  unfold boundTarget
  split
  · split
    · exact Nat.zero_le _
    · exact Nat.le_refl _
  · exact Nat.min_le_right _ _

end Sys2Proof.Machine

open Sys2Proof Sys2Proof.Machine

/-- Settles O34: equal ends, a rising scale, and a reversed one. -/
theorem boundGaugePosition : Obligations.BoundGaugePosition := by
  refine fun full rawZero rawFull v => ⟨boundTarget_le .., fun h => ?_, fun h => ?_, fun h => ?_⟩
  · rw [boundTarget_equal h]
    exact ⟨fun hv => if_pos hv, fun hv => if_neg (Int.not_lt.mpr hv)⟩
  · rw [boundTarget_rising h]
    have hd : 0 < rawFull.toInt - rawZero.toInt := by omega
    exact ⟨fun hv => scaled_before hd (by omega), fun hv => scaled_beyond hd (by omega),
      fun hlo hhi => scaled_within hd (by omega) (by omega)⟩
  · rw [boundTarget_falling h]
    have hd : 0 < rawZero.toInt - rawFull.toInt := by omega
    exact ⟨fun hv => scaled_before hd (by omega), fun hv => scaled_beyond hd (by omega),
      fun hlo hhi => scaled_within hd (by omega) (by omega)⟩

end

section
/-! Gauges that take a target: homing completed, an arrival, and the end of a sweep (05, R105, R106, R109, R110; 09, R175, R177). -/

namespace Sys2Proof.Machine

/-! ## A gauge that enters a state (R106) -/

theorem aim_eq (t : Nat) (x : Gauge) :
    x.aim t = ({ x with target := t, moving := decide (t ≠ x.position) }, decide (t = x.position) && x.moving) := by
  unfold Gauge.aim
  split
  · next h => simp [h]
  · next h => simp [h]

/-- A gauge with its target taken, from the position that it has reached. -/
def Gauge.aimed (t : Nat) (x : Gauge) : Gauge :=
  { x with target := t, moving := decide (t ≠ x.position), shown := x.position }

/-- What a gauge is once it has entered a state: its target taken, an arrival at once in the first phase of a sweep included. -/
def Gauge.entered (cfg : GaugeCfg) (x : Gauge) : Gauge :=
  let r := x.aim (x.wanted cfg)
  let y :=
    if r.2 && r.1.state = .test && r.1.sweep = some .down then
      (({ r.1 with sweep := some .up } : Gauge).aim cfg.full).1
    else r.1
  { y with shown := y.position }

theorem enterGauge_gauges (s : State) (g : Fin 12) (x : Gauge) :
    (s.enterGauge g x).ind.gauges = s.ind.gauges.set g (x.entered (s.profile.gauges.get g)) := rfl

/-- A gauge that moves no more, or enters no sweep, takes its target and no more. -/
theorem entered_calm {cfg : GaugeCfg} {x : Gauge} (h : x.state ≠ .test ∨ x.moving = false ∨ x.position ≠ x.wanted cfg) :
    x.entered cfg = x.aimed (x.wanted cfg) := by
  unfold Gauge.entered
  rw [aim_eq]
  dsimp only
  rw [if_neg]
  · rfl
  · simp only [Bool.and_eq_true, decide_eq_true_eq]
    rintro ⟨⟨⟨hp, hm⟩, hs⟩, -⟩
    rcases h with h | h | h
    · exact h hs
    · exact absurd (hm.symm.trans h) (by decide)
    · exact h hp.symm

/-- A moving gauge that has reached 0 enters the sweep in its second phase. -/
theorem entered_up {cfg : GaugeCfg} {x : Gauge} (hs : x.state = .test) (hd : x.sweep = some .down) (hm : x.moving = true)
    (hp : x.position = 0) : x.entered cfg = ({ x with sweep := some .up } : Gauge).aimed cfg.full := by
  have hw : x.wanted cfg = 0 := by simp [Gauge.wanted, hs, hd]
  unfold Gauge.entered
  rw [aim_eq, hw]
  dsimp only
  rw [if_pos (by simp [hp, hm, hs, hd]), aim_eq]
  rfl

/-- READY and PARKED take their own target. -/
theorem wanted_settled (cfg : GaugeCfg) {x : Gauge} (h : x.state = .ready ∨ x.state = .parked) :
    x.wanted cfg = if x.state = .ready then x.requested else cfg.park := by
  unfold Gauge.wanted
  rcases h with h | h <;> rw [h] <;> rfl

theorem homedState_homed (s : State) (g : Fin 12) : s.homedState g = .ready ∨ s.homedState g = .parked := by
  unfold State.homedState
  split
  · exact .inl rfl
  · split
    · exact .inl rfl
    · exact .inr rfl
  · split
    · exact .inr rfl
    · exact .inl rfl

/-- READY or PARKED by the cause of the gauge's mode: a signal that cannot be used, or a host that is LOST (R109). -/
theorem homedState_eq (s : State) (g : Fin 12) :
    s.homedState g =
      (match (s.profile.gauges.get g).mode with
        | .off => .ready
        | .bound n _ _ => if s.quality n = .good ∨ s.quality n = .substituted then .ready else .parked
        | .host => if s.sup.state = .lost then .parked else .ready) := by
  unfold State.homedState
  cases (s.profile.gauges.get g).mode with
  | bound n rawZero rawFull => exact if_congr (usable_iff _) rfl rfl
  | _ => rfl

/-- A gauge comes to READY or PARKED, and takes the target of that state at once (R105, R110). -/
theorem entered_homed (s : State) (g : Fin 12) (x : Gauge) :
    ({ x with state := s.homedState g } : Gauge).entered (s.profile.gauges.get g) =
      ({ x with state := s.homedState g } : Gauge).aimed
        (if s.homedState g = .ready then x.requested else (s.profile.gauges.get g).park) := by
  have hh := homedState_homed s g
  rw [entered_calm (.inl (by rcases hh with hh | hh <;> simp [hh])), wanted_settled _ hh]

/-! ## Homing completed (R105, R109) -/

section

variable {s : State} {g : Fin 12}

theorem exec_homingCompletion {e : Nat} (hr : s.running) (hs : (s.ind.gauges.get g).state = .homing)
    (hh : (s.ind.gauges.get g).homing = some e) (he : stepsTime (s.profile.gauges.get g) ≤ e) :
    exec (.homingCompletion g) s = .next (s.completeHoming g) := by
  have hdue : s.due (.homingCompletion g) = true := by
    simp only [due_homingCompletion, hs, homingTime_eq, decide_true, Bool.true_and]
    exact reached_iff.mpr ⟨e, hh, he⟩
  exact congrArg Host.Outcome.next ((live_running hr _).trans (if_pos hdue))

/-- The gauge that its last homing step leaves. -/
def State.homedGauge (s : State) (g : Fin 12) : Gauge :=
  ({ s.ind.gauges.get g with state := s.homedState g, homing := none, position := 0, moving := false } : Gauge).aimed
    (if s.homedState g = .ready then (s.ind.gauges.get g).requested else (s.profile.gauges.get g).park)

theorem completeHoming_gauges (s : State) (g : Fin 12) :
    (s.completeHoming g).ind.gauges = s.ind.gauges.set g (s.homedGauge g) := by
  unfold State.completeHoming
  rw [enterGauge_gauges]
  exact congrArg _ (entered_homed s g { s.ind.gauges.get g with homing := none, position := 0, moving := false })

/-! ## Arrivals (R106, R110) -/

theorem exec_arrival_standing (h : (s.ind.gauges.get g).moving = false) : exec (.arrival g) s = .next s :=
  exec_undue (by simp [expiries, boundaryExpiries]) (by simp [Gauge.arrived, h])

theorem exec_arrival (hr : s.running) (hs : (s.ind.gauges.get g).state.homed = true) (hm : (s.ind.gauges.get g).moving = true)
    (hp : (s.ind.gauges.get g).position = (s.ind.gauges.get g).target) :
    exec (.arrival g) s = .next (s.takeArrival g).sweepCompletion := by
  have hdue : s.due (.arrival g) = true := by simp [Gauge.arrived, hs, hm, hp]
  exact congrArg Host.Outcome.next ((live_running hr _).trans (if_pos hdue))

/-- A gauge that stands at its target. -/
def Gauge.arrive (x : Gauge) : Gauge := { x with position := x.target, moving := false, shown := x.target }

/-- The arrival at the target, before a sweep goes on. -/
def State.arriveAt (s : State) (g : Fin 12) : State :=
  (s.setGauge g (s.ind.gauges.get g).arrive).offer (offGaugeActual g)

theorem arriveAt_gauges (s : State) (g : Fin 12) :
    (s.arriveAt g).ind.gauges = s.ind.gauges.set g (s.ind.gauges.get g).arrive := rfl

theorem takeArrival_settled (h : (s.ind.gauges.get g).state ≠ .test) : s.takeArrival g = s.arriveAt g := if_neg h

/-- A gauge that stands takes a new target without an arrival. -/
theorem retarget_standing {x : Gauge} (h : x.moving = false) :
    s.retarget g x =
      s.setGauge g { x with
        target := x.wanted (s.profile.gauges.get g)
        moving := decide (x.wanted (s.profile.gauges.get g) ≠ x.position) } := by
  unfold State.retarget
  rw [aim_eq, h, Bool.and_false]
  rfl

/-- The gauge in the sweep phase that an arrival begins. -/
def State.sweptTo (s : State) (g : Fin 12) (p : Sweep) (target : Nat) : Gauge :=
  { (s.ind.gauges.get g).arrive with
    sweep := some p
    target := target
    moving := decide (target ≠ (s.ind.gauges.get g).target) }

/-- What an arrival in TEST goes on with, phase by phase. -/
theorem takeArrival_test (hs : (s.ind.gauges.get g).state = .test) :
    ((s.ind.gauges.get g).sweep = some .down →
      s.takeArrival g = (s.arriveAt g).retarget g { (s.ind.gauges.get g).arrive with sweep := some .up }) ∧
    ((s.ind.gauges.get g).sweep = some .up →
      s.takeArrival g = (s.arriveAt g).retarget g { (s.ind.gauges.get g).arrive with sweep := some .back }) ∧
    ((s.ind.gauges.get g).sweep = some .back → s.takeArrival g = (s.arriveAt g).leaveSweep g) := by
  unfold State.takeArrival State.arriveAt
  dsimp only
  rw [if_pos hs]
  generalize s.ind.gauges.get g = x
  obtain ⟨_, _, _, _, sweep, _, _, _⟩ := x
  refine ⟨fun h => ?_, fun h => ?_, fun h => ?_⟩ <;> (obtain rfl : sweep = _ := h; rfl)

theorem retarget_sweep {p : Sweep} {target : Nat}
    (hw : Gauge.wanted (s.profile.gauges.get g) { (s.ind.gauges.get g).arrive with sweep := some p } = target) :
    (s.arriveAt g).retarget g { (s.ind.gauges.get g).arrive with sweep := some p } =
      (s.arriveAt g).setGauge g (s.sweptTo g p target) := by
  subst hw
  exact retarget_standing rfl

theorem takeArrival_down (hs : (s.ind.gauges.get g).state = .test) (hd : (s.ind.gauges.get g).sweep = some .down) :
    s.takeArrival g = (s.arriveAt g).setGauge g (s.sweptTo g .up (s.profile.gauges.get g).full) := by
  obtain ⟨hdown, -, -⟩ := takeArrival_test hs
  exact (hdown hd).trans (retarget_sweep (by simp [Gauge.wanted, Gauge.arrive, hs]))

theorem takeArrival_up (hs : (s.ind.gauges.get g).state = .test) (hu : (s.ind.gauges.get g).sweep = some .up) :
    s.takeArrival g = (s.arriveAt g).setGauge g (s.sweptTo g .back 0) := by
  obtain ⟨-, hup, -⟩ := takeArrival_test hs
  exact (hup hu).trans (retarget_sweep (by simp [Gauge.wanted, Gauge.arrive, hs]))

theorem takeArrival_back (hs : (s.ind.gauges.get g).state = .test) (hb : (s.ind.gauges.get g).sweep = some .back) :
    s.takeArrival g = (s.arriveAt g).leaveSweep g := by
  obtain ⟨-, -, hback⟩ := takeArrival_test hs
  exact hback hb

/-- The gauge that its last arrival of a sweep takes out of TEST. -/
def State.sweptGauge (s : State) (g : Fin 12) : Gauge :=
  ({ (s.ind.gauges.get g).arrive with state := s.homedState g, sweep := none } : Gauge).aimed
    (if s.homedState g = .ready then (s.ind.gauges.get g).requested else (s.profile.gauges.get g).park)

theorem takeArrival_back_gauges (hs : (s.ind.gauges.get g).state = .test) (hb : (s.ind.gauges.get g).sweep = some .back) :
    (s.takeArrival g).ind.gauges = s.ind.gauges.set g (s.sweptGauge g) := by
  have hget : (s.arriveAt g).ind.gauges.get g = (s.ind.gauges.get g).arrive := Table.get_set_self ..
  rw [takeArrival_back hs hb]
  unfold State.leaveSweep
  dsimp only
  rw [hget, if_pos (show (s.ind.gauges.get g).arrive.state = .test from hs), enterGauge_gauges, arriveAt_gauges, table_set_set]
  exact congrArg _ (entered_homed s g { (s.ind.gauges.get g).arrive with sweep := none })

theorem takeArrival_sweeping_gauges (x : Gauge) :
    ((s.arriveAt g).setGauge g x).ind.gauges = s.ind.gauges.set g x := table_set_set _ _ _ _

end

/-! ## The completion of a sweep (R110, R175) -/

theorem sweeping_iff (s : State) : s.sweeping = true ↔ ∃ g, (s.ind.gauges.get g).state = .test := by
  unfold State.sweeping
  rw [rows_any_iff]
  simp only [decide_eq_true_eq]

/-- The test over, before the indication that it held is handed back. -/
def State.testOver (s : State) (o : TestOutcome) : State :=
  s.offerStatus (s.setSvc { s.svc with test := .none, testDuration := 0, testTimer := none, lastOutcome := o })

theorem testOver_keeps (s : State) (o : TestOutcome) : KeepsBut (.test :: Part.images) s (s.testOver o) := by
  have hset := ((((setSvc_alone s
    { s.svc with test := .none, testDuration := 0, testTimer := none, lastOutcome := o }).keeps.drop
      ⟨rfl, rfl, rfl, rfl, rfl, rfl, rfl, rfl, rfl, rfl⟩).drop rfl).drop ⟨rfl, rfl⟩).drop ⟨rfl, rfl, rfl, rfl⟩
  exact (hset.mono (by decide)).trans ((offerStatus_evolves s _).keeps.mono (by decide))

theorem endTest_sweep {s : State} (h : s.svc.test = .gaugeSweep) (o : TestOutcome) :
    s.endTest o = (s.testOver o).forEach (List.finRange 12) State.leaveSweep := by
  unfold State.endTest
  rw [if_neg (by rw [h]; decide), h]
  rfl

theorem endTest_chime {s : State} (h : s.svc.test = .chime) (o : TestOutcome) :
    s.endTest o = (s.testOver o).endChimeTest := by
  unfold State.endTest
  rw [if_neg (by rw [h]; decide), h]
  rfl

theorem forEach_leaveSweep_resting (l : List (Fin 12)) {s : State} (h : s.sweeping = false) :
    s.forEach l State.leaveSweep = s := by
  have hrest : ∀ g, s.leaveSweep g = s := fun g =>
    if_neg fun ht => absurd ((sweeping_iff s).mpr ⟨g, ht⟩) (by rw [h]; decide)
  induction l with
  | nil => rfl
  | cons g l ih =>
    show (s.leaveSweep g).forEach l State.leaveSweep = s
    rw [hrest g, ih]

/-- The sweep that no gauge takes part in any more ends, and no gauge has a TEST to leave. -/
theorem sweepCompletion_ends {s : State} (ht : s.svc.test = .gaugeSweep) (h : s.sweeping = false) :
    s.sweepCompletion = s.testOver .completed := by
  have hover : (s.testOver .completed).sweeping = false := by
    unfold State.sweeping
    rw [testOver_keeps s .completed .gauges (by decide)]
    exact h
  unfold State.sweepCompletion
  rw [if_pos ⟨ht, h⟩, endTest_sweep ht, forEach_leaveSweep_resting _ hover]

theorem sweepCompletion_idle {s : State} (h : s.svc.test ≠ .gaugeSweep ∨ ∃ g, (s.ind.gauges.get g).state = .test) :
    s.sweepCompletion = s := by
  refine if_neg fun ⟨ht, hs⟩ => ?_
  rcases h with h | h
  · exact h ht
  · exact absurd ((sweeping_iff s).mpr h) (by rw [hs]; decide)

theorem sweepCompletion_keeps (s : State) : KeepsBut (.test :: Part.images) s s.sweepCompletion := by
  by_cases h : s.svc.test = .gaugeSweep ∧ s.sweeping = false
  · rw [sweepCompletion_ends h.1 h.2]
    exact testOver_keeps s _
  · unfold State.sweepCompletion
    rw [if_neg h]
    exact .refl

theorem sweepCompletion_gauges (s : State) : s.sweepCompletion.ind.gauges = s.ind.gauges :=
  sweepCompletion_keeps s .gauges (by decide)

theorem sweepCompletion_completed {s : State} (ht : s.svc.test = .gaugeSweep) (h : ∀ g, (s.ind.gauges.get g).state ≠ .test) :
    s.sweepCompletion.svc.test = .none ∧ s.sweepCompletion.svc.lastOutcome = .completed := by
  have hs : s.sweeping = false := Bool.eq_false_iff.mpr fun hs => by
    obtain ⟨g, hg⟩ := (sweeping_iff s).mp hs
    exact h g hg
  unfold State.sweepCompletion
  rw [if_pos ⟨ht, hs⟩]
  obtain ⟨hnone, -, houtcome⟩ := endTest_ended s .completed (by rw [ht]; decide)
  exact ⟨hnone, houtcome⟩

/-! ## What an arrival gives -/

section

variable {s : State} {g : Fin 12} {x : Gauge}

/-- An arrival that leaves the running test alone: gauge `g` becomes `x`. -/
theorem gives_arrival {P : State → Prop} (he : exec (.arrival g) s = .next (s.takeArrival g).sweepCompletion)
    (hx : (s.takeArrival g).ind.gauges = s.ind.gauges.set g x)
    (h : s.svc.test ≠ .gaugeSweep ∨ ∃ h, ((s.takeArrival g).ind.gauges.get h).state = .test)
    (hP : (s.takeArrival g).ind.gauges.get g = x → (∀ h, h ≠ g → (s.takeArrival g).ind.gauges.get h = s.ind.gauges.get h) →
      P (s.takeArrival g)) :
    Gives (.arrival g) s (.gauges :: Part.images) P := by
  have hkeeps := (takeArrival_evolves s g).keeps
  have htest : (s.takeArrival g).svc.test = s.svc.test := (hkeeps .test (by decide)).1
  obtain ⟨hself, hothers⟩ := get_of_eq_set hx
  rw [sweepCompletion_idle (by rw [htest]; exact h)] at he
  exact ⟨_, he, hkeeps, hP hself hothers⟩

theorem gives_sweepPhase {p : Sweep} {target : Nat} {P : State → Prop}
    (he : exec (.arrival g) s = .next (s.takeArrival g).sweepCompletion) (hs : (s.ind.gauges.get g).state = .test)
    (ha : s.takeArrival g = (s.arriveAt g).setGauge g (s.sweptTo g p target))
    (hP : (s.takeArrival g).ind.gauges.get g = s.sweptTo g p target →
      (∀ h, h ≠ g → (s.takeArrival g).ind.gauges.get h = s.ind.gauges.get h) → P (s.takeArrival g)) :
    Gives (.arrival g) s (.gauges :: Part.images) P := by
  have hx : (s.takeArrival g).ind.gauges = s.ind.gauges.set g (s.sweptTo g p target) := by
    rw [ha, takeArrival_sweeping_gauges]
  refine gives_arrival he hx (.inr ⟨g, ?_⟩) hP
  rw [hx, Table.get_set_self]
  exact hs

end

end Sys2Proof.Machine

open Sys2Proof Sys2Proof.Machine

/-- Settles O33: homing completed, no arrival of a gauge that stands, and an arrival by the gauge's state and sweep phase. -/
theorem gaugeEvents : Obligations.GaugeEvents := by
  refine ⟨fun g e s hr hs hh he => ?_, fun g s hm => exec_arrival_standing hm, fun g s hr hm hp =>
    ⟨fun hs htest => ?_, fun hs hd => ?_, fun hs hu => ?_, fun hs hb => ?_⟩⟩
  · obtain ⟨hself, hothers⟩ := get_of_eq_set (completeHoming_gauges s g)
    refine ⟨_, exec_homingCompletion hr hs hh he, (completeHoming_evolves s g).keeps, ?_⟩
    beta_reduce
    rw [hself]
    exact ⟨rfl, rfl, rfl, homedState_eq s g, rfl, rfl, hothers⟩
  · have hhomed := (homed_iff _).mpr (hs.imp_right .inl)
    have hne : (s.ind.gauges.get g).state ≠ .test := by rcases hs with hs | hs <;> rw [hs] <;> decide
    have ha := takeArrival_settled hne
    have hx : (s.takeArrival g).ind.gauges = s.ind.gauges.set g (s.ind.gauges.get g).arrive := by
      rw [ha, arriveAt_gauges]
    refine gives_arrival (exec_arrival hr hhomed hm hp) hx (htest.imp_right fun ⟨h, hh⟩ => ⟨h, ?_⟩)
      fun hself hothers => ⟨hself, hothers⟩
    have hhg : g ≠ h := fun e => hne (e ▸ hh)
    rw [hx, Table.get_set_ne _ hhg]
    exact hh
  · refine gives_sweepPhase (exec_arrival hr ((homed_iff _).mpr (.inr (.inr hs))) hm hp) hs (takeArrival_down hs hd)
      fun hself hothers => ?_
    rw [hself]
    exact ⟨hs, rfl, rfl, rfl, hothers⟩
  · refine gives_sweepPhase (exec_arrival hr ((homed_iff _).mpr (.inr (.inr hs))) hm hp) hs (takeArrival_up hs hu)
      fun hself hothers => ?_
    rw [hself]
    exact ⟨hs, rfl, rfl, rfl, hothers⟩
  · have hkeeps := (takeArrival_evolves s g).keeps
    obtain ⟨hself, hothers⟩ := get_of_eq_set (takeArrival_back_gauges hs hb)
    obtain ⟨htest, -, -, houtcome⟩ := hkeeps .test (by decide)
    have hout : ((s.takeArrival g).ind.gauges.get g).state ≠ .test := by
      rw [hself]
      intro e
      rcases homedState_homed s g with h | h <;> exact absurd (h.symm.trans e) (by decide)
    refine ⟨_, exec_arrival hr ((homed_iff _).mpr (.inr (.inr hs))) hm hp,
      (hkeeps.mono (by decide)).trans ((sweepCompletion_keeps _).mono (by decide)), ?_⟩
    beta_reduce
    rw [sweepCompletion_gauges, hself]
    refine ⟨homedState_eq s g, rfl, rfl, rfl, rfl, rfl, hothers, fun hsweep hlast => ?_, fun hgoes => ?_⟩
    · refine sweepCompletion_completed (htest.trans hsweep) fun h => ?_
      by_cases hg : h = g
      · rw [hg]
        exact hout
      · rw [hothers h hg]
        exact hlast h hg
    · have hidle : (s.takeArrival g).svc.test ≠ .gaugeSweep ∨ ∃ h, ((s.takeArrival g).ind.gauges.get h).state = .test :=
        hgoes.imp (fun h => by rw [htest]; exact h) fun ⟨h, hg, ht⟩ => ⟨h, by rw [hothers h hg]; exact ht⟩
      rw [sweepCompletion_idle hidle]
      exact ⟨htest, houtcome⟩

end

section
/-! The phases of the chime and of the CHIME test (05, R112 to R114; 09, R177). -/

namespace Sys2Proof.Machine

/-! ## The arbiter (R112, R113) -/

theorem beginPattern_selection (s : State) (sel : Option (Fin 96)) :
    (s.beginPattern sel).ind.chime.selection = sel ∧ (s.beginPattern sel).ind.chime.test = s.ind.chime.test := by
  unfold State.beginPattern
  cases sel with
  | none => exact ⟨rfl, rfl⟩
  | some w =>
    dsimp only
    split <;> exact ⟨rfl, rfl⟩

theorem beginPattern_none (s : State) : (s.beginPattern none).ind.chime.phase = .silent := rfl

theorem beginPattern_begun (s : State) (sel : Option (Fin 96)) : (s.beginPattern sel).PatternBegun := by
  have hp : (s.beginPattern sel).profile = s.profile := (beginPattern_evolves s sel).keeps .profile (by decide)
  unfold State.PatternBegun
  rw [(beginPattern_selection s sel).1, hp]
  cases sel with
  | none => rfl
  | some w =>
    unfold State.beginPattern
    dsimp only
    cases (s.profile.warnings.get w).pattern with
    | single => exact ⟨rfl, by simp [State.setChime, State.setChimed]⟩
    | _ => rfl

theorem silent_sounding {c : Chime} (ht : c.test = none) (hp : c.phase = .silent) : c.sounding = false := by
  unfold Chime.sounding
  rw [ht, hp]

/-- A silent chime takes its first candidate, and stays silent where there is none. -/
theorem evalChime_takes {s : State} (ht : s.ind.chime.test = none) (hp : s.ind.chime.phase = .silent) :
    s.evalChime.ind.chime.selection = s.firstCandidate ∧
      (s.evalChime.ind.chime.selection = none → s.evalChime.ind.chime.sounding = false) := by
  unfold State.evalChime
  rw [ht]
  dsimp only
  rw [if_neg (by decide)]
  split
  · next hc => exact ⟨hc.symm, fun _ => silent_sounding ht hp⟩
  · obtain ⟨hsel, htest⟩ := beginPattern_selection s s.firstCandidate
    refine ⟨hsel, fun hnone => silent_sounding (htest.trans ht) ?_⟩
    rw [hsel.symm.trans hnone, beginPattern_none]

/-- The first candidate is a matter of the warnings, the profile and the chime. -/
theorem firstCandidate_congr {s t : State} (hp : t.profile = s.profile) (hw : t.warn = s.warn)
    (hc : t.ind.chime = s.ind.chime) : t.firstCandidate = s.firstCandidate := by
  have hcand : t.candidate = s.candidate := by
    funext w
    unfold State.candidate
    rw [hp, hw, hc]
  have horder : t.displayOrder = s.displayOrder := by
    unfold State.displayOrder
    rw [hp, hw]
  unfold State.firstCandidate
  rw [hcand, horder]

/-! ## The commands (R113, R114) -/

section

variable {s : State} {ms : Nat}

theorem exec_toneEnd (hr : s.running) (h : s.ind.chime.phase.toneOver = true) : exec .toneEnd s = .next s.endTone :=
  congrArg Host.Outcome.next ((live_running hr _).trans (if_pos h))

theorem exec_repeatPeriodExpiry (hr : s.running) (h : s.ind.chime.phase.periodOver = true) :
    exec .repeatPeriodExpiry s = .next s.endRepeatPeriod := congrArg Host.Outcome.next ((live_running hr _).trans (if_pos h))

theorem exec_chimeTestPhaseEnd (hr : s.running) {c : ChimeTest} (hc : s.ind.chime.test = some c) (h : c.over = true) :
    exec .chimeTestPhaseEnd s = .next s.endChimePhase :=
  congrArg Host.Outcome.next ((live_running hr _).trans (if_pos (by rw [due_chimeTestPhaseEnd, hc]; exact h)))

theorem endTone_single (h : s.ind.chime.phase = .singleTone ms) :
    s.endTone = (s.setChime { s.ind.chime with phase := .silent }).evalChime := by
  unfold State.endTone
  rw [h]

theorem endTone_repeat (h : s.ind.chime.phase = .repeatTone ms) :
    s.endTone = s.setChime { s.ind.chime with phase := .repeatSilence ms } := by
  unfold State.endTone
  rw [h]

theorem endRepeatPeriod_silence (h : s.ind.chime.phase = .repeatSilence ms) :
    s.endRepeatPeriod = s.setChime { s.ind.chime with phase := .repeatTone 0 } := by
  unfold State.endRepeatPeriod
  rw [h]

theorem endChimePhase_tone (h : s.ind.chime.test = some (.tone ms)) :
    s.endChimePhase = s.setChime { s.ind.chime with test := some (.repeated 0) } := by
  unfold State.endChimePhase
  rw [h]

theorem endChimePhase_repeated (h : s.ind.chime.test = some (.repeated ms)) :
    s.endChimePhase = s.setChime { s.ind.chime with test := some (.steady 0) } := by
  unfold State.endChimePhase
  rw [h]

theorem endChimePhase_steady (h : s.ind.chime.test = some (.steady ms)) : s.endChimePhase = s.endTest .completed := by
  unfold State.endChimePhase
  rw [h]

end

theorem testOver_blocks (s : State) (o : TestOutcome) :
    (s.testOver o).warn = s.warn ∧ (s.testOver o).profile = s.profile := by
  unfold State.testOver State.offerStatus
  split <;> exact ⟨rfl, rfl⟩

/-- The end of the CHIME test begins the first candidate's pattern from its start (R114, R177). -/
theorem endTest_chime_leaves {s : State} (h : s.svc.test = .chime) (o : TestOutcome) :
    (s.endTest o).ind.chime.test = none ∧
      (s.endTest o).ind.chime.selection =
        (s.setChime { selection := none, phase := .silent, test := none }).firstCandidate ∧
      (s.endTest o).PatternBegun := by
  obtain ⟨hw, hp⟩ := testOver_blocks s o
  rw [endTest_chime h]
  unfold State.endChimeTest
  dsimp only
  generalize hu : (s.testOver o).setChime _ = u
  have hcand : u.firstCandidate = (s.setChime { selection := none, phase := .silent, test := none }).firstCandidate := by
    subst hu
    exact firstCandidate_congr hp hw rfl
  obtain ⟨hsel, htest⟩ := beginPattern_selection u u.firstCandidate
  exact ⟨htest.trans (by rw [← hu]; rfl), hsel.trans hcand, beginPattern_begun _ _⟩

end Sys2Proof.Machine

open Sys2Proof Sys2Proof.Machine

/-- Settles O35: the tone's end by the pattern, the period's end, and the three phases of the CHIME test. -/
theorem chimePhases : Obligations.ChimePhases := by
  refine fun ms s hr => ⟨fun hp hms ht => ?_, fun hp hms => ?_, fun hp hms => ?_, fun hc hms => ?_, fun hc hms => ?_,
    fun hc hms htest => ?_⟩
  · refine ⟨_, (exec_toneEnd hr ((toneOver_iff _).mpr ⟨ms, .inl hp, hms⟩)).trans (congrArg _ (endTone_single hp)), ?_,
      evalChime_takes ht rfl⟩
    exact ((setChime_evolves s _).keeps.mono (by decide)).trans (evalChime_evolves _).keeps
  · exact ⟨_, (exec_toneEnd hr ((toneOver_iff _).mpr ⟨ms, .inr hp, hms⟩)).trans (congrArg _ (endTone_repeat hp)),
      (setChime_evolves ..).keeps, rfl⟩
  · exact ⟨_, (exec_repeatPeriodExpiry hr ((periodOver_iff _).mpr ⟨ms, hp, hms⟩)).trans
      (congrArg _ (endRepeatPeriod_silence hp)), (setChime_evolves ..).keeps, rfl⟩
  · exact ⟨_, (exec_chimeTestPhaseEnd hr hc (decide_eq_true hms)).trans (congrArg _ (endChimePhase_tone hc)),
      (setChime_evolves ..).keeps, rfl⟩
  · exact ⟨_, (exec_chimeTestPhaseEnd hr hc (decide_eq_true hms)).trans (congrArg _ (endChimePhase_repeated hc)),
      (setChime_evolves ..).keeps, rfl⟩
  · obtain ⟨hnone, -, houtcome⟩ := endTest_ended s .completed (by rw [htest]; decide)
    exact ⟨_, (exec_chimeTestPhaseEnd hr hc (decide_eq_true hms)).trans (congrArg _ (endChimePhase_steady hc)),
      (endTest_evolves s _).keeps, hnone, houtcome, endTest_chime_leaves htest .completed⟩

end

section
/-! A request given whole, from its first start edge to the response that it gets (09, R165 to R167, R169, R170; log entry 13). -/

namespace Sys2Proof.Machine

/-! ## The frame (R166) -/

theorem xorAll_checked (f : List Byte) : xorAll (f ++ [xorAll f]) = 0 := by
  unfold xorAll
  rw [List.foldl_append]
  exact BitVec.xor_self

/-- The unit while it takes a request that has come whole: it waits for the next, and no waking character is on the wire of a unit
that was in IDLE. -/
def State.requestHeard (s : State) : State :=
  s.setSvc { s.svc.idle with wakeChar := s.svc.wakeChar && decide (s.svc.line ≠ .idle) }

theorem requestHeard_evolves (s : State) : Evolves [.service, .wakeChar] s s.requestHeard :=
  setSvc_evolves fun p hp => by
    cases p with
    | service => exact absurd (by decide) hp
    | wakeChar => exact absurd (by decide) hp
    | _ => simp [Part.Same, ServiceUnit.idle]

section

variable {s : State} {a tester : Byte} {params : List Byte} {r : Request}

theorem serviceEdge_heard (hm : s.mode.mode ≠ .parked) (hline : s.svc.line = .idle ∨ s.svc.line = .receiving) :
    s.serviceEdge.svc.line = s.svc.line ∧ s.serviceEdge.svc.address = s.svc.address ∧
      s.serviceEdge.setSvc s.serviceEdge.svc.idle = s.requestHeard := by
  unfold State.serviceEdge
  rw [if_neg hm]
  unfold State.requestHeard
  rcases hline with h | h
  · rw [h]
    exact ⟨h, rfl, by rw [decide_eq_false (by simp), Bool.and_false]; rfl⟩
  · rw [h]
    exact ⟨h, rfl, by rw [decide_eq_true (by decide), Bool.and_true]; rfl⟩

/-- The parts of a request's frame, and its check. -/
theorem frameComplete_request {t tester code length : Byte} {params : List Byte}
    (ht : t = Config.functionalAddress ∨ s.svc.address = some t) (hlo : 0x80 ≤ tester.toNat) (hhi : tester.toNat ≤ 0xFE) :
    s.frameComplete ([t, tester, length, code] ++ params ++ [xorAll ([t, tester, length, code] ++ params)]) =
      (s.setSvc s.svc.idle).takeRequestFrame (decide (t = Config.functionalAddress)) tester code params := by
  have hparams : (([t, tester, length, code] ++ params ++ [xorAll ([t, tester, length, code] ++ params)]).drop 4).dropLast =
      params := List.dropLast_concat
  unfold State.frameComplete
  dsimp only
  rw [hparams, if_pos ⟨xorAll_checked _, hlo, hhi⟩]
  by_cases hf : t = Config.functionalAddress
  · rw [decide_eq_true hf]
    exact if_pos hf
  · rw [decide_eq_false hf]
    exact (if_neg hf).trans (if_pos (ht.resolve_left hf))

theorem mode_of_listens (hl : s.serviceListens = true) : s.mode.mode = .run ∨ s.mode.mode = .parking := by
  simpa [State.serviceListens] using hl

/-- A request that a listening unit gets whole is taken at its check character (R166, R169). -/
theorem requestFrame_heard {target : Target} (hl : s.serviceListens = true)
    (hline : s.svc.line = .idle ∨ s.svc.line = .receiving) (ha : s.svc.address = some a) (hne : a ≠ 0x7F)
    (hlo : 0x80 ≤ tester.toNat) (hhi : tester.toNat ≤ 0xFE) (hp : params.length ≤ 15) :
    s.requestFrame r target tester params =
      s.requestHeard.takeRequestFrame (decide (target = .functional)) tester r.code params := by
  have hm : s.mode.mode ≠ .parked := by rcases mode_of_listens hl with h | h <;> rw [h] <;> decide
  obtain ⟨hedge, haddr, hheard⟩ := serviceEdge_heard hm hline
  have hframe : ∀ t, t = Config.functionalAddress ∨ s.serviceEdge.svc.address = some t →
      s.serviceEdge.frameComplete ([t, tester, BitVec.ofNat 8 (1 + params.length), r.code] ++ params ++
        [xorAll ([t, tester, BitVec.ofNat 8 (1 + params.length), r.code] ++ params)]) =
      s.requestHeard.takeRequestFrame (decide (t = Config.functionalAddress)) tester r.code params := fun t ht => by
    rw [frameComplete_request ht hlo hhi, hheard]
  have htarget : ∃ t, s.targetByte target = some t ∧ (t = Config.functionalAddress ∨ s.serviceEdge.svc.address = some t) ∧
      decide (t = Config.functionalAddress) = decide (target = .functional) := by
    cases target with
    | physical => exact ⟨a, ha, .inr (haddr.trans ha), by rw [decide_eq_false (show a ≠ Config.functionalAddress from hne)]; rfl⟩
    | functional => exact ⟨_, rfl, .inl rfl, by simp⟩
  obtain ⟨t, hbyte, hto, hfunctional⟩ := htarget
  rw [← hfunctional, ← hframe t hto]
  unfold State.requestFrame
  rw [if_pos hl]
  dsimp only
  rw [hedge, hbyte]
  rcases hline with h | h <;> rw [h] <;> exact if_pos hp

/-! ## The checks of a request (R169) -/

theorem ofCode_code (r : Request) : Request.ofCode r.code = some r := by cases r <;> rfl

theorem judgeRequest_performs (hc : r.countOk params = true) (hg : r.rangeOk params = true) :
    s.judgeRequest r.code params = s.perform r params := by
  unfold State.judgeRequest
  rw [ofCode_code]
  dsimp only
  rw [hc, hg]
  rfl

/-! ## The response (R167, R170) -/

/-- The state after a request to the physical address whose outcome is `p`. -/
def answered (tester code : Byte) (p : State × Answer) : State := p.1.testerSeen.reply tester (responseBody code p.2)

theorem exec_request (hr : s.running) (target : Target) :
    exec (r.row target tester params) s = .next (s.requestFrame r target tester params) := by
  rw [← live_running hr (fun s => s.requestFrame r target tester params)]
  cases r <;> rfl

theorem exec_answered (hr : s.running) (hl : s.serviceListens = true)
    (hline : s.svc.line = .idle ∨ s.svc.line = .receiving) (ha : s.svc.address = some a) (hne : a ≠ 0x7F)
    (hlo : 0x80 ≤ tester.toNat) (hhi : tester.toNat ≤ 0xFE) (hp : params.length ≤ 15)
    (hc : r.countOk params = true) (hg : r.rangeOk params = true) :
    exec (r.row .physical tester params) s = .next (answered tester r.code (s.requestHeard.perform r params)) := by
  rw [exec_request hr, requestFrame_heard hl hline ha hne hlo hhi hp, ← judgeRequest_performs hc hg]
  rfl

theorem address_of_keeps {l : List Part} {t u : State} (h : KeepsBut l t u) (hl : Part.service ∉ l) :
    u.svc.address = t.svc.address := by
  obtain ⟨-, -, -, -, -, -, -, haddr, -, -⟩ := h .service hl
  exact haddr

theorem answered_keeps (tester code : Byte) (p : State × Answer) :
    KeepsBut (.service :: .tester :: Part.images) p.1 (answered tester code p) :=
  ((testerSeen_evolves p.1).keeps.mono (by decide)).trans ((reply_evolves _ _ _).keeps.mono (by decide))

/-- The response of a unit with a physical address, character by character up to its check. -/
theorem answered_response {code : Byte} {p : State × Answer} (ha : p.1.svc.address = some a) :
    ∃ check, (answered tester code p).svc.response =
      [tester, a, BitVec.ofNat 8 (responseBody code p.2).length] ++ responseBody code p.2 ++ [check] := by
  have haddr : p.1.testerSeen.svc.address = some a :=
    (address_of_keeps (testerSeen_evolves p.1).keeps (by decide)).trans ha
  refine ⟨xorAll ([tester, a, BitVec.ofNat 8 (responseBody code p.2).length] ++ responseBody code p.2), ?_⟩
  unfold answered State.reply
  simp only [State.setSvc_svc, haddr, Option.getD_some]
  rfl

/-- What a request gives whose outcome, the state `u` with an answer, was reached by changing no part outside `l`. -/
theorem gives_answer {l L : List Part} {c : Instr} {u : State} {x : Answer} {code : Byte} {P : State → Prop}
    (he : exec c s = .next (answered tester code (u, x))) (hk : KeepsBut l s.requestHeard u) (hl : ∀ q ∈ l, q ∈ L)
    (hL : ∀ q ∈ Part.service :: .wakeChar :: .tester :: Part.images, q ∈ L)
    (hP : KeepsBut (.service :: .tester :: Part.images) u (answered tester code (u, x)) → P (answered tester code (u, x))) :
    Gives c s L P := by
  have hans := answered_keeps tester code (u, x)
  refine ⟨_, he, ?_, hP hans⟩
  have hheard := (requestHeard_evolves s).keeps.mono (k := .service :: .wakeChar :: .tester :: Part.images) (by decide)
  have hafter := hans.mono (k := .service :: .wakeChar :: .tester :: Part.images) (by decide)
  exact ((hheard.mono hL).trans (hk.mono hl)).trans (hafter.mono hL)

/-- A request that is refused: what it asks for is not done. -/
theorem gives_refusal {c : Instr} {code : Byte} {x : Refused} (ha : s.svc.address = some a)
    (he : exec c s = .next (answered tester code (s.requestHeard, .refusal x))) :
    Gives c s (.service :: .wakeChar :: .tester :: Part.images) (fun t =>
      ∃ check, t.svc.response = [tester, a, 3, 0x7F, code, x.code, check]) :=
  gives_answer (l := []) he .refl (by decide) (fun _ h => h) fun _ => answered_response (p := (s.requestHeard, .refusal x)) ha

end

/-- A positive answer without data: its response has the code alone. -/
theorem answered_positive {s : State} {a tester code : Byte} {l : List Part} {u : State} (ha : s.svc.address = some a)
    (hk : KeepsBut l s.requestHeard u) (hl : Part.service ∉ l) :
    ∃ check, (answered tester code (u, .positive [])).svc.response = [tester, a, 1, code + 0x40, check] :=
  answered_response (p := (u, .positive [])) ((address_of_keeps hk hl).trans ha)

end Sys2Proof.Machine
end

section
/-! The start of an output test (09, R175; 05, R106, R110, R114). -/

namespace Sys2Proof.Machine

/-! ## A test begun -/

/-- The test begun, before the indication that it takes over changes. -/
def State.testBegun (s : State) (k : TestKind) (d : Nat) : State :=
  s.offerStatus (s.setSvc
    { s.svc with
      test := k
      testDuration := d
      testTimer := if k = .lamp then some 0 else none })

theorem testBegun_evolves (s : State) (k : TestKind) (d : Nat) : Evolves (.test :: Part.images) s (s.testBegun k d) :=
  ((setTest_evolves s k d _).mono (by decide)).trans ((offerStatus_evolves s _).mono (by decide))

theorem testBegun_test (s : State) (k : TestKind) (d : Nat) :
    (s.testBegun k d).svc.test = k ∧ (s.testBegun k d).svc.testDuration = d ∧
      (s.testBegun k d).svc.testTimer = (if k = .lamp then some 0 else none) ∧
      (s.testBegun k d).svc.lastOutcome = s.svc.lastOutcome :=
  (offerStatus_evolves s (s.setSvc
    { s.svc with test := k, testDuration := d, testTimer := if k = .lamp then some 0 else none })).keeps .test (by decide)

/-! ## LAMP and CHIME (R97, R114) -/

theorem startTest_lamp (s : State) (d : Nat) : s.startTest .lamp d = (s.testBegun .lamp d).evalAllLamps := rfl

theorem startTest_lamp_leaves (s : State) (d : Nat) :
    (s.startTest .lamp d).svc.test = .lamp ∧ (s.startTest .lamp d).svc.testDuration = d ∧
      (s.startTest .lamp d).svc.testTimer = some 0 ∧
      (s.inForce = true → s.mode.mode = .run → ∀ k, ((s.startTest .lamp d).ind.lamps.get k).commanded = .on) := by
  obtain ⟨htest, hduration, htimer, -⟩ := testBegun_test s .lamp d
  have hbegun := (testBegun_evolves s .lamp d).keeps
  have hstatus : (s.testBegun .lamp d).profStatus = s.profStatus := hbegun .profStatus (by decide)
  have hmode : (s.testBegun .lamp d).mode.mode = s.mode.mode := hbegun .opMode (by decide)
  refine ⟨htest, hduration, htimer, fun hf hm k => ?_⟩
  rw [startTest_lamp, evalAllLamps_commanded]
  exact commanded_allOn ((inForce_iff _).mpr (hstatus.trans ((inForce_iff s).mp hf))) (hmode.trans hm) (.inr htest) k

theorem startTest_chime_leaves (s : State) (d : Nat) :
    (s.startTest .chime d).svc.test = .chime ∧ (s.startTest .chime d).ind.chime.test = some (.tone 0) ∧
      (s.startTest .chime d).ind.chime.sounding = true := ⟨(testBegun_test s .chime d).1, rfl, rfl⟩

/-! ## GAUGE_SWEEP (R106, R110) -/

/-- The gauge at the start of a sweep in which it takes part. -/
def Gauge.sweepBegun (x : Gauge) : Gauge := { x with state := .test, sweep := some .down }

/-- What a sweep makes of a gauge: READY and PARKED enter TEST, and every other gauge stays as it is. -/
def Gauge.swept (cfg : GaugeCfg) (x : Gauge) : Gauge :=
  if x.state = .ready ∨ x.state = .parked then x.sweepBegun.entered cfg else x

theorem enterSweep_gauges (s : State) (g : Fin 12) :
    (s.enterSweep g).ind.gauges = s.ind.gauges.set g ((s.ind.gauges.get g).swept (s.profile.gauges.get g)) := by
  unfold State.enterSweep Gauge.swept
  dsimp only
  split
  · rfl
  · exact (Table.set_get _ _).symm

theorem forEach_enterSweep_get (l : List (Fin 12)) (hl : l.Nodup) (s : State) (h : Fin 12) :
    (s.forEach l State.enterSweep).ind.gauges.get h =
      if h ∈ l then (s.ind.gauges.get h).swept (s.profile.gauges.get h) else s.ind.gauges.get h := by
  induction l generalizing s with
  | nil => rfl
  | cons g l ih =>
    obtain ⟨hg, hl⟩ := List.nodup_cons.mp hl
    have hp : (s.enterSweep g).profile = s.profile := (enterSweep_evolves s g).keeps .profile (by decide)
    obtain ⟨hself, hothers⟩ := get_of_eq_set (enterSweep_gauges s g)
    refine (ih hl (s.enterSweep g)).trans ?_
    rw [hp]
    by_cases hh : h = g
    · subst hh
      rw [if_neg hg, if_pos (List.mem_cons_self ..), hself]
    · rw [hothers h hh]
      simp only [List.mem_cons, hh, false_or]

theorem startTest_sweep (s : State) (d : Nat) : s.startTest .gaugeSweep d =
    ((s.testBegun .gaugeSweep d).forEach (List.finRange 12) State.enterSweep).sweepCompletion := rfl

/-- Every gauge of a started sweep, its completion included. -/
theorem startTest_sweep_get (s : State) (d : Nat) (g : Fin 12) :
    ((s.startTest .gaugeSweep d).ind.gauges.get g) = (s.ind.gauges.get g).swept (s.profile.gauges.get g) := by
  have hbegun := (testBegun_evolves s .gaugeSweep d).keeps
  have hp : (s.testBegun .gaugeSweep d).profile = s.profile := hbegun .profile (by decide)
  have hg : (s.testBegun .gaugeSweep d).ind.gauges = s.ind.gauges := hbegun .gauges (by decide)
  rw [startTest_sweep, sweepCompletion_gauges, forEach_enterSweep_get _ (List.nodup_finRange 12), if_pos (List.mem_finRange g), hp, hg]

/-- A gauge that takes part starts DOWN, or UP where it moves and has reached 0 already. -/
theorem swept_sweeps {x : Gauge} (h : x.state = .ready ∨ x.state = .parked) (cfg : GaugeCfg) :
    (x.swept cfg).SweepsFrom cfg.full x := by
  have hw : x.sweepBegun.wanted cfg = 0 := rfl
  have hcalm : x.moving = false ∨ x.position ≠ 0 → x.swept cfg = x.sweepBegun.aimed 0 := fun hc => by
    unfold Gauge.swept
    rw [if_pos h, entered_calm (x := x.sweepBegun) (.inr (hc.imp_right fun hp => by rw [hw]; exact hp)), hw]
  have hup : x.moving = true → x.position = 0 →
      x.swept cfg = ({ x.sweepBegun with sweep := some .up } : Gauge).aimed cfg.full := fun hm hp => by
    unfold Gauge.swept
    rw [if_pos h, entered_up (x := x.sweepBegun) rfl rfl hm hp]
  have hcases : (x.moving = false ∨ x.position ≠ 0) ∨ x.moving = true ∧ x.position = 0 := by
    cases x.moving <;> simp [ne_or_eq]
  have hkept : (x.swept cfg).state = .test ∧ (x.swept cfg).position = x.position ∧
      (x.swept cfg).requested = x.requested := by
    rcases hcases with hc | ⟨hm, hp⟩
    · rw [hcalm hc]
      exact ⟨rfl, rfl, rfl⟩
    · rw [hup hm hp]
      exact ⟨rfl, rfl, rfl⟩
  obtain ⟨hstate, hposition, hrequested⟩ := hkept
  refine ⟨hstate, hposition, hrequested, fun hc => ?_, fun hm hp => ?_⟩
  · rw [hcalm hc]
    exact ⟨rfl, rfl, decide_eq_decide.mpr ne_comm⟩
  · rw [hup hm hp]
    exact ⟨rfl, rfl, by simp [Gauge.aimed, Gauge.sweepBegun, hp]⟩

theorem swept_rests {x : Gauge} (hr : x.state ≠ .ready) (hp : x.state ≠ .parked) (cfg : GaugeCfg) : x.swept cfg = x :=
  if_neg fun h => h.elim hr hp

/-- While a gauge takes part the sweep is the running test. -/
theorem startTest_sweep_runs {s : State} (h : ∃ g, (s.ind.gauges.get g).state = .ready ∨ (s.ind.gauges.get g).state = .parked)
    (d : Nat) : (s.startTest .gaugeSweep d).svc.test = .gaugeSweep ∧
      (s.startTest .gaugeSweep d).svc.lastOutcome = s.svc.lastOutcome := by
  obtain ⟨g, hg⟩ := h
  have hin := (swept_sweeps hg (s.profile.gauges.get g)).state
  rw [← startTest_sweep_get s d g] at hin
  obtain ⟨htest, -, -, houtcome⟩ := testBegun_test s .gaugeSweep d
  obtain ⟨hsame, -, -, hlast⟩ :=
    (Evolves.forEach enterSweep_evolves (List.finRange 12) (s.testBegun .gaugeSweep d)).keeps .test (by decide)
  rw [startTest_sweep] at hin ⊢
  rw [sweepCompletion_gauges] at hin
  rw [sweepCompletion_idle (.inr ⟨g, hin⟩)]
  exact ⟨hsame.trans htest, hlast.trans houtcome⟩

/-- With no gauge homed the sweep is over as soon as it is begun. -/
theorem startTest_sweep_over {s : State} (h : ∀ g, (s.ind.gauges.get g).state.homed = false) (d : Nat) :
    (s.startTest .gaugeSweep d).svc.test = .none ∧ (s.startTest .gaugeSweep d).svc.lastOutcome = .completed := by
  obtain ⟨htest, -, -, -⟩ := testBegun_test s .gaugeSweep d
  obtain ⟨hsame, -, -, -⟩ :=
    (Evolves.forEach enterSweep_evolves (List.finRange 12) (s.testBegun .gaugeSweep d)).keeps .test (by decide)
  rw [startTest_sweep]
  refine sweepCompletion_completed (hsame.trans htest) fun g ht => ?_
  have hget := startTest_sweep_get s d g
  have hrest : ∀ x : GaugeState, x.homed = true → (s.ind.gauges.get g).state ≠ x := fun x hx e => by
    have := h g
    rw [e, hx] at this
    exact absurd this (by decide)
  rw [swept_rests (hrest .ready rfl) (hrest .parked rfl)] at hget
  refine hrest .test rfl ?_
  rw [← hget, startTest_sweep, sweepCompletion_gauges]
  exact ht

/-! ## The test once it is answered (R175) -/

section

variable {s t : State} {d : Nat}

theorem lampTest_stands (h : KeepsBut (.service :: .tester :: Part.images) (s.startTest .lamp d) t) :
    t.svc.test = .lamp ∧ t.svc.testDuration = d ∧ t.svc.testTimer = some 0 ∧
      (s.inForce = true → s.mode.mode = .run → ∀ k, (t.ind.lamps.get k).commanded = .on) := by
  obtain ⟨htest, hduration, htimer, -⟩ := h .test (by decide)
  obtain ⟨hlamps, -⟩ := h .lamps (by decide)
  obtain ⟨hlamp, hfor, hfrom, hon⟩ := startTest_lamp_leaves s d
  exact ⟨htest.trans hlamp, hduration.trans hfor, htimer.trans hfrom, fun hf hm k => by rw [hlamps]; exact hon hf hm k⟩

theorem sweepTest_stands (h : KeepsBut (.service :: .tester :: Part.images) (s.startTest .gaugeSweep d) t) :
    (∀ g, t.ind.gauges.get g = (s.ind.gauges.get g).swept (s.profile.gauges.get g)) ∧
      t.svc.test = (s.startTest .gaugeSweep d).svc.test ∧
      t.svc.lastOutcome = (s.startTest .gaugeSweep d).svc.lastOutcome := by
  obtain ⟨htest, -, -, houtcome⟩ := h .test (by decide)
  have hgauges : t.ind.gauges = (s.startTest .gaugeSweep d).ind.gauges := h .gauges (by decide)
  exact ⟨fun g => by rw [hgauges]; exact startTest_sweep_get s d g, htest, houtcome⟩

theorem chimeTest_stands (h : KeepsBut (.service :: .tester :: Part.images) (s.startTest .chime d) t) :
    t.svc.test = .chime ∧ t.ind.chime.test = some (.tone 0) ∧ t.ind.chime.sounding = true := by
  obtain ⟨htest, -⟩ := h .test (by decide)
  have hchime : t.ind.chime = (s.startTest .chime d).ind.chime := h .chime (by decide)
  obtain ⟨hrunning, hphase, hsounds⟩ := startTest_chime_leaves s d
  rw [hchime]
  exact ⟨htest.trans hrunning, hphase, hsounds⟩

end

/-! ## The conditions of OUTPUT_TEST (R175) -/

section

variable {s : State} {params : List Byte}

theorem outputTest_starts (hm : s.mode.mode = .run) (hl : s.svc.level = true) (hs : s.stopUnack = false)
    (ht : s.svc.test = .none) :
    s.outputTest params = (s.startTest (testKind (params.getD 0 0)) (params.getD 1 0).toNat, .positive []) := by
  unfold State.outputTest
  rw [if_neg (not_not_intro hm), hl, hs, if_neg (by decide), if_neg (not_not_intro ht)]

/-- The refusals of OUTPUT_TEST, in the order of its conditions. -/
def State.outputRefusal (s : State) : Refused → Prop
  | .notAllowed => s.mode.mode ≠ .run
  | .conditions => s.mode.mode = .run ∧ (s.svc.level = false ∨ s.stopUnack = true)
  | .busy => s.mode.mode = .run ∧ s.svc.level = true ∧ s.stopUnack = false ∧ s.svc.test ≠ .none
  | .badRequest => False
  | .outOfRange => False

theorem outputTest_refused {x : Refused} (h : s.outputRefusal x) : s.outputTest params = (s, .refusal x) := by
  unfold State.outputTest
  cases x with
  | notAllowed => exact if_pos h
  | conditions =>
    obtain ⟨hm, h⟩ := h
    rw [if_neg (not_not_intro hm), if_pos (by simpa using h)]
  | busy =>
    obtain ⟨hm, hl, hs, ht⟩ := h
    rw [if_neg (not_not_intro hm), hl, hs, if_neg (by decide), if_pos ht]
  | badRequest => exact h.elim
  | outOfRange => exact h.elim

theorem outputTest_params (h : Request.outputTest.countOk params = true) : params.length ≤ 15 := by
  unfold Request.countOk at h
  dsimp only at h
  split at h <;> (have := of_decide_eq_true h; omega)

end

end Sys2Proof.Machine
end

section
/-! The service request CLEAR_FAULTS, and the workshop level that the requests ask for (08, R149, R150, R160; 09, R173, R174, R177). -/

namespace Sys2Proof.Machine

/-! ## CLEAR_FAULTS (R160, R173) -/

section

variable {s : State}

theorem clearRequest_begins (hm : s.mode.mode = .run ∨ s.mode.mode = .parking) (hl : s.svc.level = true)
    (hc : s.fm.clearing = false) : s.clearRequest = ((s.takeClear .service).takeWork, .positive []) := by
  unfold State.clearRequest
  rw [if_neg (by tauto), hl, hc]
  rfl

theorem clearRequest_conditions (hm : s.mode.mode = .run ∨ s.mode.mode = .parking) (hl : s.svc.level = false) :
    s.clearRequest = (s, .refusal .conditions) := by
  unfold State.clearRequest
  rw [if_neg (by tauto), hl]
  rfl

theorem clearRequest_busy (hm : s.mode.mode = .run ∨ s.mode.mode = .parking) (hl : s.svc.level = true)
    (hc : s.fm.clearing = true) : s.clearRequest = (s, .refusal .busy) := by
  unfold State.clearRequest
  rw [if_neg (by tauto), hl, hc]
  rfl

end

/-- A clear stands as long as the fault memory's table does. -/
theorem ClearTaken.of_keeps {l : List Part} {s t u : State} (h : ClearTaken s t) (k : KeepsBut l t u)
    (hl : ∀ p ∈ [Part.present, .records, .fullness, .clear], p ∉ l) : ClearTaken s u := by
  obtain ⟨hclearing, houtstanding, -⟩ := k .clear (hl _ (by decide))
  obtain ⟨hoverflow, hfull⟩ := k .fullness (hl _ (by decide))
  have hpresent : u.fm.present = t.fm.present := k .present (hl _ (by decide))
  have hrecords : u.fm.records = t.fm.records := k .records (hl _ (by decide))
  exact ⟨hclearing.trans h.clearing, houtstanding.trans h.outstanding, hpresent.trans h.present,
    fun hc i => by rw [hrecords]; exact h.pending hc i, fun hc i => by rw [hrecords]; exact h.confirmed hc i,
    by rw [hoverflow]; exact h.overflow, by rw [hfull]; exact h.full⟩

/-- A clear is judged by the fault memory, the profile and the live state, whatever the service unit does. -/
theorem ClearTaken.of_service {s t : State} (h : ClearTaken s.requestHeard t) : ClearTaken s t :=
  ⟨h.clearing, h.outstanding, h.present, h.pending, h.confirmed, h.overflow, h.full⟩

/-! ## The level judged (R174, R177) -/

theorem level_of_keeps {l : List Part} {s t : State} (h : KeepsBut l s t) (hl : Part.level ∉ l) :
    t.svc.level = s.svc.level := by
  obtain ⟨-, -, -, hlevel⟩ := h .level hl
  exact hlevel

/-- The level that the three conditions give. -/
def State.levelNow (s : State) : Bool :=
  s.inForce && s.goodNonzero s.profile.serviceSwitch && decide (s.sig.motion = .stopped) &&
    s.goodNonzero s.profile.parkingBrake

/-- The level and its conditions taken, before a lapse ends a test. -/
def State.levelTakenNow (s : State) : State :=
  s.offerStatus (s.setSvc
    { s.svc with
      switchOn := s.goodNonzero s.profile.serviceSwitch
      standing := decide (s.sig.motion = .stopped)
      brakeOn := s.goodNonzero s.profile.parkingBrake
      level := s.levelNow })

theorem judgeLevel_eq (s : State) :
    s.judgeLevel = if s.svc.level && !s.levelNow then s.levelTakenNow.endTest .levelLost else s.levelTakenNow := rfl

theorem levelTakenNow_keeps (s : State) : KeepsBut (.level :: Part.images) s s.levelTakenNow := by
  refine KeepsBut.trans (fun p hp => ?_) ((offerStatus_evolves s _).keeps.mono (by decide))
  cases p with
  | level => exact absurd (by decide) hp
  | _ => simp [Part.Same]

theorem judgeLevel_level (s : State) : s.judgeLevel.svc.level = s.levelNow := by
  have htaken : s.levelTakenNow.svc.level = s.levelNow := level_of_keeps (offerStatus_evolves s _).keeps (by decide)
  rw [judgeLevel_eq]
  split
  · exact (level_of_keeps (endTest_evolves _ _).keeps (by decide)).trans htaken
  · exact htaken

/-- A level that does not lapse, or finds no test, changes no indication. -/
theorem judgeLevel_calm {s : State} (h : s.svc.level = false ∨ s.judgeLevel.svc.level = true ∨ s.svc.test = .none) :
    KeepsBut (.level :: Part.images) s s.judgeLevel := by
  rw [judgeLevel_level] at h
  rcases h with h | h | h
  · rw [judgeLevel_eq, h]
    exact levelTakenNow_keeps s
  · rw [judgeLevel_eq, h, Bool.not_true, Bool.and_false]
    exact levelTakenNow_keeps s
  · exact judgeLevel_noTest h

/-! ## An update that has the level judged (R7, R177) -/

/-- No test is started, and none runs on where the level has lapsed. -/
structure LapseEnds (s t : State) : Prop where
  quiet : Quiet s t
  ended : s.svc.level = true → t.svc.level = false → t.svc.test = .none

namespace LapseEnds

theorem refl {s : State} : LapseEnds s s := ⟨.refl, fun h g => absurd (h.symm.trans g) (by decide)⟩

/-- A lapse on the way to `t` has ended the test for good, and one after `t` ends it then. -/
theorem trans {s t u : State} (h : LapseEnds s t) (g : LapseEnds t u) : LapseEnds s u :=
  ⟨h.quiet.trans g.quiet, fun hs hu => by
    cases ht : t.svc.level with
    | true => exact g.ended ht hu
    | false => exact g.quiet.none (h.ended hs ht)⟩

/-- An operation that leaves the level alone and starts no test. -/
theorem of {l : List Part} {s t : State} (h : Evolves l s t) (hl : Part.level ∉ l) (q : Quiet s t) : LapseEnds s t :=
  ⟨q, fun hs ht => absurd (hs.symm.trans ((level_of_keeps h.keeps hl).symm.trans ht)) (by decide)⟩

/-- An operation that leaves the level and the test alone. -/
theorem alone {l : List Part} {s t : State} (h : Evolves l s t) (hl : Part.level ∉ l) (ht : Part.test ∉ l) : LapseEnds s t :=
  of h hl (.of h ht)

theorem ite {s t u : State} {c : Prop} [Decidable c] (h : LapseEnds s t) (g : LapseEnds s u) :
    LapseEnds s (if c then t else u) := by
  split <;> assumption

theorem iteThen {s t u : State} {c : Prop} [Decidable c] (h : LapseEnds s t) (g : LapseEnds t u) :
    LapseEnds s (if c then u else t) := ite (h.trans g) h

end LapseEnds

theorem judgeLevel_lapseEnds (s : State) : LapseEnds s s.judgeLevel := by
  refine ⟨judgeLevel_quiet s, fun h g => ?_⟩
  by_cases ht : s.svc.test = .none
  · exact (judgeLevel_quiet s).none ht
  · exact (judgeLevel_lapse s h g ht).1

theorem deriveMotion_lapseEnds (s : State) : LapseEnds s s.deriveMotion := by
  unfold State.deriveMotion State.takeMotion
  dsimp only
  have hset : ∀ m hold, LapseEnds s (s.setSig { s.sig with motion := m, hold := hold }) := fun _ _ =>
    ⟨.same rfl, fun h g => absurd (h.symm.trans g) (by decide)⟩
  refine .ite (hset _ _) (.trans ?_ (judgeLevel_lapseEnds _))
  refine .trans ?_ (.of (evalWarnings_evolves _ _) (by decide) (evalWarnings_quiet _ _))
  exact (hset _ _).trans (.alone (offerStatus_evolves _ _) (by decide) (by decide))

theorem handOn_lapseEnds (s : State) (n : Fin 256) : LapseEnds s (s.handOn n) := by
  unfold State.handOn
  dsimp only
  refine .iteThen ?_ (.of (judgeIgnition_evolves _) (by decide) (judgeIgnition_quiet _))
  refine .iteThen ?_ (judgeLevel_lapseEnds _)
  refine .trans ?_ (.alone (Evolves.forEach (fun t g => boundGauge_evolves t n g) _ _) (by decide) (by decide))
  refine .trans ?_ (.alone (evalLampsNaming_evolves _ _) (by decide) (by decide))
  refine .trans ?_ (.of (ackInput_evolves _ _) (by decide) (ackInput_quiet _ _))
  refine .trans ?_ (.of (evalWarnings_evolves _ _) (by decide) (evalWarnings_quiet _ _))
  refine .trans ?_ (.of (doorsHanded_evolves _ _) (by decide) (doorsHanded_quiet _ _))
  exact .iteThen .refl (deriveMotion_lapseEnds _)

/-- A change of the service switch or of the parking brake has the level judged (R177). -/
theorem handOn_levelJudged {s : State} {n : Fin 256}
    (h : s.profile.serviceSwitch = some n ∨ s.profile.parkingBrake = some n) : (s.handOn n).LevelJudged := by
  unfold State.handOn
  dsimp only
  generalize hx : (if s.profile.reference = some n then s.deriveMotion else s) = x
  have hreaders : Evolves Part.readers x
      (((((x.doorsHanded n).evalWarnings (namesSignal n)).ackInput n).evalLampsNaming (fun q => q = .signal n)).forEach
        (List.finRange 12) (fun t g => t.boundGauge n g)) := by
    refine .trans ?_ ((Evolves.forEach (fun t g => boundGauge_evolves t n g) _ _).mono (by decide))
    refine .trans ?_ ((evalLampsNaming_evolves _ _).mono (by decide))
    refine .trans ?_ ((ackInput_evolves _ _).mono (by decide))
    exact ((doorsHanded_evolves _ _).mono (by decide)).trans ((evalWarnings_evolves _ _).mono (by decide))
  have hprofile : x.profile = s.profile := by
    rw [← hx]
    exact (Evolves.iteThen .refl (deriveMotion_evolves s)).keeps .profile (by decide)
  have hread := hreaders.keeps .profile (by decide)
  generalize State.forEach _ _ _ = y at hread ⊢
  have hbound : y.profile.serviceSwitch = some n ∨ y.profile.parkingBrake = some n := by
    rw [show y.profile = s.profile from hread.trans hprofile]
    exact h
  rw [if_pos hbound]
  split
  · exact (judgeLevel_judged y).of_keeps (judgeIgnition_evolves _).keeps (by decide)
  · exact judgeLevel_judged y

theorem deliver_levelJudged {s : State} {n : Fin 256} {v : BitVec 16} (ht : s.takesUpdates = true)
    (hb : s.profile.serviceSwitch = some n ∨ s.profile.parkingBrake = some n)
    (hd : s.value n ≠ (s.deliver n v).value n ∨ s.quality n ≠ (s.deliver n v).quality n) :
    (s.deliver n v).LevelJudged ∧
      (s.svc.level = true → (s.deliver n v).svc.level = false → (s.deliver n v).svc.test = .none) := by
  obtain ⟨t, hdel, hkeeps⟩ := deliver_handOn s n v ht hd
  have hp : t.profile = s.profile := hkeeps .profile (by decide)
  have hlevel : t.svc.level = s.svc.level := level_of_keeps hkeeps (by decide)
  rw [hdel]
  exact ⟨handOn_levelJudged (by rw [hp]; exact hb), fun h => (handOn_lapseEnds t n).ended (hlevel.trans h)⟩

end Sys2Proof.Machine

open Sys2Proof Sys2Proof.Machine

/-- Settles O57: OUTPUT_TEST by its conditions and its kind, CLEAR_FAULTS by the level and a clear in progress, and the level judged. -/
theorem workshopRequests : Obligations.WorkshopRequests := by
  refine ⟨fun a tester params s hr hl hline ha hne hlo hhi hc hg => ?_, fun a tester s hr hl hline ha hne hlo hhi => ?_,
    fun s => ⟨judgeLevel_judged s, (judgeLevel_evolves s).keeps, judgeLevel_lapse s, judgeLevel_calm,
      fun n v ht hb hd => deliver_levelJudged ht hb hd⟩⟩
  · have he := exec_answered (r := .outputTest) hr hl hline ha hne hlo hhi (outputTest_params hc) hc hg
    refine ⟨fun hm hlevel hstop htest => ?_, fun reason hreason => ?_⟩
    · rw [show s.requestHeard.perform .outputTest params = _ from outputTest_starts hm hlevel hstop htest] at he
      have hkeeps := (startTest_evolves s.requestHeard (testKind (params.getD 0 0)) (params.getD 1 0).toNat).keeps
      refine gives_answer he hkeeps (by decide) (by decide) fun hans => ⟨answered_positive ha hkeeps (by decide), ?_⟩
      generalize answered _ _ _ = t at hans
      refine ⟨fun d hp => ?_, fun hp => ?_, fun hp => ?_⟩ <;> subst hp
      · rw [show testKind (([1, d] : List Byte).getD 0 0) = .lamp from rfl] at hans
        obtain ⟨hlamp, hfor, hfrom, hon⟩ := lampTest_stands hans
        exact ⟨hlamp, hfor, hfrom, fun hf => hon hf hm⟩
      · rw [show testKind (([2] : List Byte).getD 0 0) = .gaugeSweep from rfl] at hans
        obtain ⟨hget, hruns, hlast⟩ := sweepTest_stands hans
        rw [hruns, hlast]
        refine ⟨fun g hin => ?_, fun g hready hparked => ?_, fun hin => startTest_sweep_runs (s := s.requestHeard) hin _,
          fun hnone => startTest_sweep_over (s := s.requestHeard) hnone _⟩
        · rw [hget]
          exact swept_sweeps hin _
        · rw [hget]
          exact swept_rests hready hparked _
      · rw [show testKind (([3] : List Byte).getD 0 0) = .chime from rfl] at hans
        exact chimeTest_stands hans
    · have hrefused : ∀ x, s.requestHeard.outputRefusal x →
          Gives (.outputTest .physical tester params) s (.service :: .wakeChar :: .tester :: Part.images) (fun t =>
            ∃ check, t.svc.response = [tester, a, 3, 0x7F, 0x08, x.code, check]) := fun x hx => by
        rw [show s.requestHeard.perform .outputTest params = _ from outputTest_refused hx] at he
        exact gives_refusal ha he
      rcases hreason with ⟨rfl, h⟩ | ⟨rfl, h⟩ | ⟨rfl, h⟩
      · exact hrefused .notAllowed h
      · exact hrefused .conditions h
      · exact hrefused .busy h
  · have he := exec_answered (r := .clearFaults) (params := []) hr hl hline ha hne hlo hhi (by decide) rfl rfl
    have hm := mode_of_listens hl
    refine ⟨fun hlevel hclear => ?_, fun reason hreason => ?_⟩
    · rw [show s.requestHeard.perform .clearFaults [] = _ from clearRequest_begins hm hlevel hclear] at he
      obtain ⟨taken, requester⟩ := takeClear_taken s.requestHeard .service
      have hkeeps := keeps_takeWork (takeClear_evolves s.requestHeard .service).keeps
      refine gives_answer he hkeeps (by decide) (by decide) fun hans => ⟨?_, ?_, answered_positive ha hkeeps (by decide)⟩
      · exact (taken.takeWork.of_keeps hans (by decide)).of_service
      · obtain ⟨-, -, hwho⟩ := hans .clear (by decide)
        exact hwho.trans ((takeWork_requester _).trans requester)
    · rcases hreason with ⟨rfl, hlevel⟩ | ⟨rfl, hlevel, hclear⟩
      · rw [show s.requestHeard.perform .clearFaults [] = _ from clearRequest_conditions hm hlevel] at he
        exact gives_refusal ha he
      · rw [show s.requestHeard.perform .clearFaults [] = _ from clearRequest_busy hm hlevel hclear] at he
        exact gives_refusal ha he

end

section
/-! Offered image words: the four cases of R125, and the urgent flag (06, R125, R129). -/

namespace Sys2Proof.Machine

theorem queued_iff (q : List (Nat × Word)) (off : Nat) : q.any (fun e => e.1 = off) = true ↔ off ∈ q.map Prod.fst := by
  simp

/-- The offset stands in the queue: the newer word replaces the older one in its place. -/
theorem offer_coalesces {p : MemoryPath} {off : Nat} (h : off ∈ p.queue.map Prod.fst) (w : Word) :
    p.offer off w = { p with queue := coalesce p.queue off w } := if_pos ((queued_iff _ _).mpr h)

/-- The offset is marked: the mark stays. -/
theorem offer_marked {p : MemoryPath} {off : Nat} (h : off ∉ p.queue.map Prod.fst) (hr : off ∈ p.resync) (w : Word) :
    p.offer off w = p := by
  unfold MemoryPath.offer
  rw [if_neg fun e => h ((queued_iff _ _).mp e), if_pos (List.contains_iff_mem.mpr hr)]

/-- The offset stands nowhere and the queue has room: the word is appended. -/
theorem offer_appends {p : MemoryPath} {off : Nat} (h : off ∉ p.queue.map Prod.fst) (hr : off ∉ p.resync)
    (hl : p.queue.length < Config.queueMax) (w : Word) : p.offer off w = p.withQueue (p.queue ++ [(off, w)]) := by
  unfold MemoryPath.offer
  rw [if_neg fun e => h ((queued_iff _ _).mp e), if_neg fun e => hr (List.contains_iff_mem.mp e), if_pos hl]

/-- The offset stands nowhere and the queue is full: it is marked, in ascending order of the offsets. -/
theorem offer_marks {p : MemoryPath} {off : Nat} (h : off ∉ p.queue.map Prod.fst) (hr : off ∉ p.resync)
    (hl : ¬ p.queue.length < Config.queueMax) (w : Word) :
    p.offer off w =
      { p with
        resync := insertByKey id off p.resync
        attnPending := if p.windowOpen then p.attnPending ||| Cause.mask .updateOverflow else p.attnPending } := by
  unfold MemoryPath.offer
  rw [if_neg fun e => h ((queued_iff _ _).mp e), if_neg fun e => hr (List.contains_iff_mem.mp e), if_neg hl]
  dsimp only
  cases p.windowOpen <;> rfl

theorem mem_insertByKey {α : Type} (key : α → Nat) (x y : α) (l : List α) : y ∈ insertByKey key x l ↔ y = x ∨ y ∈ l := by
  rw [(insertByKey_perm key x l).mem_iff, List.mem_cons]

/-! ## The urgent flag (R129) -/

/-- The entry with which the queue reaches 24 sets the flag. -/
theorem urgentAfter_reaches {old : Nat} (h : 23 ≤ old) (u : Bool) : urgentAfter u old (old + 1) = true := by
  unfold urgentAfter
  rw [if_neg (Nat.succ_ne_self old), if_pos (show Config.urgentAt ≤ old + 1 from Nat.succ_le_succ h)]

/-- An entry below the 24th leaves the flag as it is, where it is clear with up to 8 entries. -/
theorem urgentAfter_below {old : Nat} {u : Bool} (h : old < 23) (h8 : 8 ≤ old ∨ u = false) : urgentAfter u old (old + 1) = u := by
  unfold urgentAfter
  rw [if_neg (Nat.succ_ne_self old), if_neg (show ¬ Config.urgentAt ≤ old + 1 by unfold Config.urgentAt; omega)]
  split
  · next hc =>
    have hc : old + 1 ≤ 8 := hc
    exact (h8.resolve_left (by omega)).symm
  · rfl

end Sys2Proof.Machine

open Sys2Proof Sys2Proof.Machine

/-- Settles O40: the four cases of an offered word, the appended one by the queue's length. -/
theorem offeredImages : Obligations.OfferedImages := by
  refine fun p off w => ⟨fun hq => ?_, fun hq hr => offer_marked hq hr w, fun hq hr hl => ?_, fun hq hr hl => ?_⟩
  · rw [offer_coalesces hq]
    exact ⟨rfl, rfl, rfl, rfl⟩
  · rw [offer_appends hq hr hl]
    have hlen : (p.queue ++ [(off, w)]).length = p.queue.length + 1 := List.length_append
    refine ⟨rfl, rfl, rfl, fun h => ?_, fun h h8 => ?_⟩
    · exact (congrArg (urgentAfter _ _) hlen).trans (urgentAfter_reaches h _)
    · exact (congrArg (urgentAfter _ _) hlen).trans (urgentAfter_below h h8)
  · rw [offer_marks hq hr (Nat.not_lt.mpr hl)]
    exact ⟨rfl, rfl, fun o => mem_insertByKey id off o p.resync, rfl⟩

end

section
/-! The image words of the window by the table and row that each shows, and which parts of the state they are composed of (06, R120;
12, Table 6-1). -/

namespace Sys2Proof.Machine

/-- An image word by what it shows (Table 6-1). -/
inductive Place where
  | signal (n : Fin 256)
  | door (d : Fin 6) (k : Fin 4)
  | warning (w : Fin 96)
  | display (k : Fin 8)
  | target (g : Fin 12)
  | actual (g : Fin 12)
  | result
  | status
  | countA
  | countB
  | line (l : Fin 3) (k : Fin 8)
  | ever (k : Fin 2)
  | reserved (k : Fin 6)
  | arrival (k : Fin 32)
  | record (i : Fin 32) (k : Fin 16)

/-- The window offset of an image word. -/
def Place.off : Place → Nat
  | .signal n => offSignal n
  | .door d k => offDoor d k.val
  | .warning w => offWarning w
  | .display k => offDisplay k.val
  | .target g => offGaugeTarget g
  | .actual g => offGaugeActual g
  | .result => offResult
  | .status => offStatus
  | .countA => offCountA
  | .countB => offCountB
  | .line l k => offLine l k.val
  | .ever k => 0x0760 + 4 * k.val
  | .reserved k => 0x0768 + 4 * k.val
  | .arrival k => 0x0780 + 4 * k.val
  | .record i k => offRecord i k.val

/-- The word that the owner of an image word composes. -/
def State.wordAt (s : State) : Place → Word
  | .signal n => signalWord (s.sig.entries.get n)
  | .door d k => doorWord (s.door.doors.get d) k.val
  | .warning w => warningWord (s.warn.rows.get w)
  | .display k => s.displayWord k.val
  | .target g => gaugeTargetWord (s.ind.gauges.get g)
  | .actual g => gaugeActualWord (s.ind.gauges.get g)
  | .result => resultWord s.path.result
  | .status => s.statusWord
  | .countA => s.countWordA
  | .countB => s.countWordB
  | .line l k => lineWord (s.rx.lines.get l) k.val
  | .ever k => s.rx.everWord (32 * k.val)
  | .reserved _ => 0
  | .arrival k => s.rx.arrivalWord k.val
  | .record i k => recordWord (s.fm.records.get i) k.val

theorem imageWord_off (s : State) (p : Place) : s.imageWord p.off = s.wordAt p := by
  cases p with
  | signal n => exact imageWord_signal s n
  | door d k => exact imageWord_door s d k.isLt
  | warning w => exact imageWord_warning s w
  | display k => exact imageWord_display s k.isLt
  | target g =>
    refine (imageWord_gaugeTarget s g).trans ?_
    simp [State.wordAt, gaugeTargetWord, field]
  | actual g => exact imageWord_gaugeActual s g
  | result => rfl
  | status => rfl
  | countA => rfl
  | countB => rfl
  | line l k => exact imageWord_line s l k.isLt
  | ever k =>
    rcases (by omega : k.val = 0 ∨ k.val = 1) with h | h <;> simp only [Place.off, State.wordAt, h] <;> rfl
  | reserved k => exact imageWord_reserved s (by simp [Place.off]) (by simp only [Place.off]; omega)
  | arrival k => exact imageWord_arrival s k
  | record i k => exact imageWord_record s i k.isLt

theorem isImageOffset_off (p : Place) : isImageOffset p.off = true := by
  rw [isImageOffset_iff]
  cases p with
  | result | status | countA | countB => decide
  | _ =>
    simp only [Place.off, offSignal, offDoor, offWarning, offDisplay, offGaugeTarget, offGaugeActual, offLine, offRecord]
    omega

/-- Every image word is one of the places: the regions of Table 6-1 leave none out. -/
theorem exists_place {off : Nat} (h : isImageOffset off = true) : ∃ p : Place, p.off = off := by
  obtain ⟨h4, hr⟩ := (isImageOffset_iff off).mp h
  rcases (by omega : off < 0x0400 ∨ 0x0400 ≤ off ∧ off < 0x0460 ∨ 0x0480 ≤ off ∧ off < 0x0600 ∨ 0x0600 ≤ off ∧ off < 0x0620 ∨
    0x0620 ≤ off ∧ off < 0x0680 ∧ off % 8 = 0 ∨ 0x0620 ≤ off ∧ off < 0x0680 ∧ off % 8 = 4 ∨ off = 0x0694 ∨ off = 0x06A4 ∨
    off = 0x06A8 ∨ off = 0x06AC ∨ 0x0700 ≤ off ∧ off < 0x0760 ∨ 0x0760 ≤ off ∧ off < 0x0768 ∨ 0x0768 ≤ off ∧ off < 0x0780 ∨
    0x0780 ≤ off ∧ off < 0x0800 ∨ 0x0800 ≤ off ∧ off < 0x1000) with
    r | r | r | r | r | r | r | r | r | r | r | r | r | r | r
  · exact ⟨.signal ⟨off / 4, by omega⟩, by simp only [Place.off, offSignal]; omega⟩
  · exact ⟨.door ⟨(off - 0x0400) / 16, by omega⟩ ⟨off % 16 / 4, by omega⟩, by simp only [Place.off, offDoor]; omega⟩
  · exact ⟨.warning ⟨(off - 0x0480) / 4, by omega⟩, by simp only [Place.off, offWarning]; omega⟩
  · exact ⟨.display ⟨(off - 0x0600) / 4, by omega⟩, by simp only [Place.off, offDisplay]; omega⟩
  · exact ⟨.target ⟨(off - 0x0620) / 8, by omega⟩, by simp only [Place.off, offGaugeTarget]; omega⟩
  · exact ⟨.actual ⟨(off - 0x0620) / 8, by omega⟩, by simp only [Place.off, offGaugeActual]; omega⟩
  · exact ⟨.result, r.symm⟩
  · exact ⟨.status, r.symm⟩
  · exact ⟨.countA, r.symm⟩
  · exact ⟨.countB, r.symm⟩
  · exact ⟨.line ⟨(off - 0x0700) / 32, by omega⟩ ⟨off % 32 / 4, by omega⟩, by simp only [Place.off, offLine]; omega⟩
  · exact ⟨.ever ⟨(off - 0x0760) / 4, by omega⟩, by simp only [Place.off]; omega⟩
  · exact ⟨.reserved ⟨(off - 0x0768) / 4, by omega⟩, by simp only [Place.off]; omega⟩
  · exact ⟨.arrival ⟨(off - 0x0780) / 4, by omega⟩, by simp only [Place.off]; omega⟩
  · exact ⟨.record ⟨(off - 0x0800) / 64, by omega⟩ ⟨off % 64 / 4, by omega⟩, by simp only [Place.off, offRecord]; omega⟩

/-- Two states compose the same words at the offsets that no list names, when the owners compose them so place by place. -/
theorem imageWord_congr {s t : State} {offs : List Nat} (h : ∀ p : Place, p.off ∉ offs → t.wordAt p = s.wordAt p) {off : Nat}
    (hi : isImageOffset off = true) (ho : off ∉ offs) : t.imageWord off = s.imageWord off := by
  obtain ⟨p, rfl⟩ := exists_place hi
  rw [imageWord_off, imageWord_off, h p ho]

/-! ## The parts that image words are composed of -/

/-- The parts of which the owners compose their image words. -/
def Part.imaged : List Part :=
  [.profile, .profStatus, .entries, .motion, .lines, .slots, .doors, .warnings, .voidAcks, .gauges, .window, .result, .violations,
    .overruns, .supervision, .records, .fullness, .clear, .tester, .level, .test, .opMode, .wake, .causes]

/-- The warning rows agree in all but the chimed flag, which no word shows. -/
def SameRows (s t : State) : Prop :=
  ∀ w, (t.warn.rows.get w).state = (s.warn.rows.get w).state ∧ (t.warn.rows.get w).present = (s.warn.rows.get w).present ∧
    (t.warn.rows.get w).latched = (s.warn.rows.get w).latched ∧ (t.warn.rows.get w).hostSet = (s.warn.rows.get w).hostSet ∧
    (t.warn.rows.get w).number = (s.warn.rows.get w).number ∧ (t.warn.rows.get w).time = (s.warn.rows.get w).time

theorem SameRows.warningWord {s t : State} (h : SameRows s t) (w : Fin 96) :
    Machine.warningWord (t.warn.rows.get w) = Machine.warningWord (s.warn.rows.get w) := by
  obtain ⟨h1, h2, h3, h4, h5, -⟩ := h w
  unfold Machine.warningWord
  rw [h1, h2, h3, h4, h5]

theorem SameRows.displayOrder {s t : State} (h : SameRows s t) (hp : t.profile = s.profile) : t.displayOrder = s.displayOrder := by
  have hkey : (fun i => displayKey (t.profile.warnings.get i) (t.warn.rows.get i) i) =
      fun i => displayKey (s.profile.warnings.get i) (s.warn.rows.get i) i := by
    funext i
    obtain ⟨h1, -, -, -, -, h6⟩ := h i
    unfold displayKey
    rw [hp, h1, h6]
  have hact : t.warn.rows.indices (fun w => w.state.isActive) = s.warn.rows.indices (fun w => w.state.isActive) := by
    unfold Table.indices
    exact List.filter_congr fun i _ => congrArg WarnState.isActive (h i).1
  unfold State.displayOrder
  rw [hkey, hact]

theorem SameRows.displayWord {s t : State} (h : SameRows s t) (hp : t.profile = s.profile) (k : Nat) :
    t.displayWord k = s.displayWord k := by
  unfold State.displayWord
  rw [h.displayOrder hp]
  split
  · rfl
  · next i _ =>
    obtain ⟨h1, h2, -⟩ := h i
    simp only [hp, h1, h2]

theorem sameRows_of_keeps {l : List Part} {s t : State} (k : KeepsBut l s t) (hl : Part.warnings ∉ l) : SameRows s t := fun w => by
  have e {α : Type} (f : Warning → α) := congrArg f (k .warnings hl w)
  exact ⟨e Warning.state, e Warning.present, e Warning.latched, e Warning.hostSet, e Warning.number, e Warning.time⟩

/-- The status word is composed of these parts (Tables 6-4 and 12-3). -/
theorem statusWord_of_keeps {l : List Part} {s t : State} (k : KeepsBut l s t) (hl : ∀ p ∈ Part.imaged, p ∉ l) :
    t.statusWord = s.statusWord := by
  have same (p : Part) (hp : p ∈ Part.imaged) : p.Same s t := k p (hl p hp)
  have hprof : t.profStatus = s.profStatus := same .profStatus (by decide)
  have hopen : t.path.windowOpen = s.path.windowOpen := same .window (by decide)
  have hmode : t.mode.mode = s.mode.mode := same .opMode (by decide)
  have hdoor : t.door = s.door := same .doors (by decide)
  have hsup : t.sup = s.sup := same .supervision (by decide)
  have hcauses : t.mode.causes = s.mode.causes := same .causes (by decide)
  obtain ⟨hmotion, -⟩ := same .motion (by decide)
  obtain ⟨htester, -⟩ := same .tester (by decide)
  obtain ⟨-, -, -, hlevel⟩ := same .level (by decide)
  obtain ⟨htest, -⟩ := same .test (by decide)
  obtain ⟨-, hfull⟩ := same .fullness (by decide)
  obtain ⟨hclearing, -⟩ := same .clear (by decide)
  obtain ⟨-, hwake⟩ := same .wake (by decide)
  simp only [State.statusWord, State.inForce, hprof, hopen, hmode, hdoor, hsup, hcauses, hmotion, htester, hlevel, htest, hfull,
    hclearing, hwake]

/-- An operation that leaves these parts alone changes no image word. -/
theorem wordAt_of_keeps {l : List Part} {s t : State} (k : KeepsBut l s t) (hl : ∀ p ∈ Part.imaged, p ∉ l) (p : Place) :
    t.wordAt p = s.wordAt p := by
  have same (p : Part) (hp : p ∈ Part.imaged) : p.Same s t := k p (hl p hp)
  have hrows : SameRows s t := sameRows_of_keeps k (hl .warnings (by decide))
  have hprofile : t.profile = s.profile := same .profile (by decide)
  have hentries : t.sig.entries = s.sig.entries := same .entries (by decide)
  have hdoor : t.door = s.door := same .doors (by decide)
  have hgauges : t.ind.gauges = s.ind.gauges := same .gauges (by decide)
  have hresult : t.path.result = s.path.result := same .result (by decide)
  have hviolations : t.path.violations = s.path.violations := same .violations (by decide)
  have hvoid : t.warn.voidAcks = s.warn.voidAcks := same .voidAcks (by decide)
  have hoverruns : t.path.overruns = s.path.overruns := same .overruns (by decide)
  have hlines : t.rx.lines = s.rx.lines := same .lines (by decide)
  have hslots : t.rx.slots = s.rx.slots := same .slots (by decide)
  have hrecords : t.fm.records = s.fm.records := same .records (by decide)
  obtain ⟨hoverflow, -⟩ := same .fullness (by decide)
  cases p with
  | warning w => exact hrows.warningWord w
  | display k => exact hrows.displayWord hprofile k
  | status => exact statusWord_of_keeps k hl
  | _ =>
    simp only [State.wordAt, State.countWordA, State.countWordB, LineUnit.everWord, LineUnit.arrivalWord, hentries, hdoor,
      hgauges, hresult, hviolations, hvoid, hoverruns, hlines, hslots, hrecords, hoverflow]

end Sys2Proof.Machine

end

section
/-! What host reads of image words find while words are still owed to the window, and that an offer pays one of them (06, R120, R125). -/

namespace Sys2Proof.Machine

/-- The START sequence's reads, or the reset before them, keep the window closed (R128, R191). -/
def State.starting (s : State) : Prop :=
  s.mode.inReset = true ∨ s.ctrl.operation = .startProfileRead ∨ s.ctrl.operation = .startCountersRead ∨
    s.ctrl.operation = .startSlotsRead

/-- A host read finds every image word as the owners compose it, but for the words of `D`; with what that rests on: queue and resync
set hold image words, the word in flight is in SRAM, and the write that waits for the M-port goes to no image word. -/
structure State.Shows (D : Nat → Prop) (s : State) : Prop where
  places : ∀ o ∈ s.path.queue.map Prod.fst ++ s.path.resync, isImageOffset o = true
  written : ∀ e, s.path.inFlight = some e → isImageOffset e.1 = true ∧ s.sramWord (s.windowAddr e.1) = e.2
  waiting : ∀ a w lanes, s.path.held = some (.forwarded (.write a w lanes)) →
    ∀ o, isImageOffset o = true → a + 4 ≤ s.windowAddr o ∨ s.windowAddr o + 4 ≤ a
  memory : Memory.wf Config.sramErased s.sram = true
  latest : ∀ o, isImageOffset o = true → ¬ D o → s.latestWord o = s.imageWord o

/-- The window's queue, marks and memory are the same, whatever the owners hold. -/
structure SameWindow (s t : State) : Prop where
  queue : t.path.queue = s.path.queue
  resync : t.path.resync = s.path.resync
  inFlight : t.path.inFlight = s.path.inFlight
  held : t.path.held = s.path.held
  straps : t.path.straps = s.path.straps
  sram : t.sram = s.sram

theorem SameWindow.of_keeps {l : List Part} {s t : State} (k : KeepsBut l s t)
    (hl : ∀ p ∈ [Part.queue, .inFlight, .held, .straps, .sram], p ∉ l) : SameWindow s t := by
  obtain ⟨hq, hr, -⟩ := k .queue (hl _ (by decide))
  exact ⟨hq, hr, k .inFlight (hl _ (by decide)), k .held (hl _ (by decide)), k .straps (hl _ (by decide)), k .sram (hl _ (by decide))⟩

/-- What an owner's replacement leaves of the memory path and SRAM, whatever the owners hold. -/
def State.windowView (s : State) :=
  (s.path.queue, s.path.resync, s.path.inFlight, s.path.held, s.path.straps, s.sram, s.path.windowOpen, s.path.awaited.isSome)

section

variable {s t : State}

theorem windowView_eq (w : SameWindow s t) (ho : t.path.windowOpen = s.path.windowOpen)
    (ha : t.path.awaited.isSome = s.path.awaited.isSome) : t.windowView = s.windowView := by
  unfold State.windowView
  rw [w.queue, w.resync, w.inFlight, w.held, w.straps, w.sram, ho, ha]

theorem sameWindow_of_view (h : t.windowView = s.windowView) : SameWindow s t := by
  simp only [State.windowView, Prod.mk.injEq] at h
  obtain ⟨hq, hr, hf, hh, hp, hm, -, -⟩ := h
  exact ⟨hq, hr, hf, hh, hp, hm⟩

theorem windowOpen_of_view (h : t.windowView = s.windowView) : t.path.windowOpen = s.path.windowOpen :=
  congrArg (fun v => v.2.2.2.2.2.2.1) h

theorem awaited_of_view (h : t.windowView = s.windowView) : t.path.awaited.isSome = s.path.awaited.isSome :=
  congrArg (fun v => v.2.2.2.2.2.2.2) h

end

/-! ## Words in SRAM -/

theorem windowAddr_of_straps {s t : State} (h : t.path.straps = s.path.straps) (off : Nat) : t.windowAddr off = s.windowAddr off :=
  congrArg (fun x => Config.windowBase x + off) h

theorem sramWord_of_sram {s t : State} (h : t.sram = s.sram) (a : Nat) : t.sramWord a = s.sramWord a := by
  unfold State.sramWord State.sramByte
  rw [h]

/-- A word stored leaves every word that lies beside it. -/
theorem sramWord_beside {s t : State} {a : Nat} {w : Word} {lanes : BitVec 4}
    (h : StoresWord Config.sramErased s.sram t.sram a w lanes) {b : Nat} (hb : a + 4 ≤ b ∨ b + 4 ≤ a) :
    t.sramWord b = s.sramWord b := by
  have byte (i : Nat) (hi : i < 4) : t.sramByte (b + i) = s.sramByte (b + i) := by
    refine (h (b + i)).trans (if_neg fun e => ?_)
    simp only [laneAt, Bool.and_eq_true, decide_eq_true_eq] at e
    omega
  unfold State.sramWord
  rw [byte 1 (by decide), byte 2 (by decide), byte 3 (by decide), show t.sramByte b = s.sramByte b from byte 0 (by decide)]

theorem bytesWord_toNat (b0 b1 b2 b3 : Byte) :
    (bytesWord b0 b1 b2 b3).toNat = b0.toNat + 2 ^ 8 * b1.toNat + 2 ^ 16 * b2.toNat + 2 ^ 24 * b3.toNat :=
  ((((reads_field b0.isLt).or b1.isLt).or b2.isLt).or b3.isLt).value

/-- A word is the word of its four bytes. -/
theorem bytesWord_bytes (w : Word) :
    bytesWord (w.setWidth 8) ((w >>> (8 * 1)).setWidth 8) ((w >>> (8 * 2)).setWidth 8) ((w >>> (8 * 3)).setWidth 8) = w := by
  have hw := w.isLt
  refine BitVec.eq_of_toNat_eq ((bytesWord_toNat _ _ _ _).trans ?_)
  simp only [BitVec.toNat_setWidth, BitVec.toNat_ushiftRight, Nat.shiftRight_eq_div_pow]
  omega

/-- A whole word stored is read back. -/
theorem sramWord_stored {s t : State} {a : Nat} {w : Word} (h : StoresWord Config.sramErased s.sram t.sram a w 0xF) :
    t.sramWord a = w := by
  have byte (i : Nat) (hi : i < 4) : t.sramByte (a + i) = (w >>> (8 * i)).setWidth 8 := by
    refine (h (a + i)).trans ((if_pos ?_).trans (by rw [Nat.add_sub_cancel_left]))
    simp only [laneAt, Bool.and_eq_true, decide_eq_true_eq, Nat.add_sub_cancel_left]
    exact ⟨⟨by omega, by omega⟩, by interval_cases i <;> rfl⟩
  unfold State.sramWord
  rw [byte 1 (by decide), byte 2 (by decide), byte 3 (by decide), show t.sramByte a = w.setWidth 8 from byte 0 (by decide)]
  exact bytesWord_bytes w

/-- Image words lie on word boundaries, so two of them are the same or beside each other. -/
theorem image_beside (s : State) {o off : Nat} (ho : isImageOffset o = true) (hi : isImageOffset off = true) (h : o ≠ off) :
    s.windowAddr off + 4 ≤ s.windowAddr o ∨ s.windowAddr o + 4 ≤ s.windowAddr off := by
  obtain ⟨h4, -⟩ := (isImageOffset_iff o).mp ho
  obtain ⟨k4, -⟩ := (isImageOffset_iff off).mp hi
  unfold State.windowAddr
  omega

/-! ## The latest word (R120) -/

theorem latestWord_find {s : State} {o : Nat} {e : Nat × Word} (h : s.path.queue.find? (fun e => e.1 = o) = some e) :
    s.latestWord o = e.2 := by
  unfold State.latestWord
  rw [h]

/-- The latest word is that of the queue, the owners or SRAM, and the same where they are. -/
theorem latestWord_congr {s t : State} {o : Nat}
    (hq : t.path.queue.find? (fun e => e.1 = o) = s.path.queue.find? (fun e => e.1 = o))
    (hr : o ∈ t.path.resync ↔ o ∈ s.path.resync) (hi : o ∈ s.path.resync → t.imageWord o = s.imageWord o)
    (hm : t.sramWord (t.windowAddr o) = s.sramWord (s.windowAddr o)) : t.latestWord o = s.latestWord o := by
  unfold State.latestWord
  rw [hq, hm]
  split
  · rfl
  · simp only [List.contains_iff_mem, hr]
    split
    · next h => exact hi h
    · rfl

/-- A marked word that no entry holds is composed when it is read. -/
theorem latestWord_marked {s : State} {o : Nat} (hf : s.path.queue.find? (fun e => e.1 = o) = none) (hr : o ∈ s.path.resync) :
    s.latestWord o = s.imageWord o := by
  unfold State.latestWord
  rw [hf]
  exact if_pos (List.contains_iff_mem.mpr hr)

/-- A word that is neither queued nor marked stands in SRAM. -/
theorem latestWord_stored {s : State} {o : Nat} (hf : s.path.queue.find? (fun e => e.1 = o) = none) (hr : o ∉ s.path.resync) :
    s.latestWord o = s.sramWord (s.windowAddr o) := by
  unfold State.latestWord
  rw [hf]
  exact if_neg fun h => hr (List.contains_iff_mem.mp h)

namespace State.Shows

variable {D E : Nat → Prop} {s t : State}

theorem mono (h : s.Shows D) (hd : ∀ o, isImageOffset o = true → D o → E o) : s.Shows E :=
  ⟨h.places, h.written, h.waiting, h.memory, fun o hi he => h.latest o hi fun d => he (hd o hi d)⟩

/-- Owners that change some words owe them to the window, whatever else of the state changes. -/
theorem owe (h : s.Shows D) (w : SameWindow s t) (hd : ∀ o, isImageOffset o = true → D o → E o)
    (hw : ∀ o, isImageOffset o = true → ¬ E o → t.imageWord o = s.imageWord o) : t.Shows E where
  places := by
    rw [w.queue, w.resync]
    exact h.places
  written e he := by
    rw [w.inFlight] at he
    rw [windowAddr_of_straps w.straps, sramWord_of_sram w.sram]
    exact h.written e he
  waiting a x lanes he o ho := by
    rw [w.held] at he
    rw [windowAddr_of_straps w.straps]
    exact h.waiting a x lanes he o ho
  memory := by
    rw [w.sram]
    exact h.memory
  latest o hi he := by
    rw [hw o hi he, ← h.latest o hi fun d => he (hd o hi d)]
    refine latestWord_congr (by rw [w.queue]) (by rw [w.resync]) (fun _ => hw o hi he) ?_
    rw [windowAddr_of_straps w.straps, sramWord_of_sram w.sram]

end State.Shows

/-! ## An offer (R125) -/

theorem imageWord_of_keeps {l : List Part} {s t : State} (k : KeepsBut l s t) (hl : ∀ p ∈ Part.imaged, p ∉ l) {off : Nat}
    (hi : isImageOffset off = true) : t.imageWord off = s.imageWord off :=
  imageWord_congr (offs := []) (fun p _ => wordAt_of_keeps k hl p) hi List.not_mem_nil

theorem imageWord_offer (s : State) (o : Nat) {off : Nat} (hi : isImageOffset off = true) :
    (s.offer o).imageWord off = s.imageWord off := imageWord_of_keeps (offer_evolves s o).keeps (by decide) hi

theorem find_coalesce_other (q : List (Nat × Word)) {off o : Nat} (h : o ≠ off) (w : Word) :
    (coalesce q off w).find? (fun e => e.1 = o) = q.find? (fun e => e.1 = o) := by
  induction q with
  | nil => rfl
  | cons e q ih =>
    show ((if e.1 = off then (off, w) else e) :: coalesce q off w).find? _ = _
    by_cases he : e.1 = off
    · rw [if_pos he, List.find?_cons_of_neg (by simpa using h.symm), List.find?_cons_of_neg (by simpa [he] using h.symm), ih]
    · rw [if_neg he, List.find?_cons, List.find?_cons, ih]

theorem find_coalesce_self {q : List (Nat × Word)} {off : Nat} (h : off ∈ q.map Prod.fst) (w : Word) :
    (coalesce q off w).find? (fun e => e.1 = off) = some (off, w) := by
  induction q with
  | nil => exact absurd h List.not_mem_nil
  | cons e q ih =>
    show ((if e.1 = off then (off, w) else e) :: coalesce q off w).find? _ = _
    by_cases he : e.1 = off
    · rw [if_pos he, List.find?_cons_of_pos (by simp)]
    · rw [if_neg he, List.find?_cons_of_neg (by simpa using he)]
      exact ih ((List.mem_cons.mp h).resolve_left fun x => he x.symm)

theorem find_none {q : List (Nat × Word)} {off : Nat} (h : off ∉ q.map Prod.fst) : q.find? (fun e => e.1 = off) = none :=
  List.find?_eq_none.mpr fun _ he hx => h (of_decide_eq_true hx ▸ List.mem_map_of_mem he)

/-- An offer leaves what the queue and the marks hold of every other word. -/
theorem offer_others (p : MemoryPath) {off o : Nat} (h : o ≠ off) (w : Word) :
    (p.offer off w).queue.find? (fun e => e.1 = o) = p.queue.find? (fun e => e.1 = o) ∧
      (o ∈ (p.offer off w).resync ↔ o ∈ p.resync) := by
  by_cases hq : off ∈ p.queue.map Prod.fst
  · rw [offer_coalesces hq]
    exact ⟨find_coalesce_other _ h w, .rfl⟩
  by_cases hr : off ∈ p.resync
  · rw [offer_marked hq hr]
    exact ⟨rfl, .rfl⟩
  by_cases hl : p.queue.length < Config.queueMax
  · rw [offer_appends hq hr hl]
    refine ⟨?_, .rfl⟩
    show (p.queue ++ [(off, w)]).find? _ = _
    rw [List.find?_append, List.find?_cons_of_neg (by simpa using h.symm), List.find?_nil, Option.or_none]
  · rw [offer_marks hq hr hl]
    exact ⟨rfl, (mem_insertByKey id off o p.resync).trans (or_iff_right h)⟩

/-- An offered word stands in the queue, or its offset is marked. -/
theorem offer_takes (p : MemoryPath) (off : Nat) (w : Word) :
    (p.offer off w).queue.find? (fun e => e.1 = off) = some (off, w) ∨
      (p.offer off w).queue.find? (fun e => e.1 = off) = none ∧ off ∈ (p.offer off w).resync := by
  by_cases hq : off ∈ p.queue.map Prod.fst
  · rw [offer_coalesces hq]
    exact .inl (find_coalesce_self hq w)
  by_cases hr : off ∈ p.resync
  · rw [offer_marked hq hr]
    exact .inr ⟨find_none hq, hr⟩
  by_cases hl : p.queue.length < Config.queueMax
  · rw [offer_appends hq hr hl]
    refine .inl ?_
    show (p.queue ++ [(off, w)]).find? _ = _
    rw [List.find?_append, find_none hq, Option.none_or, List.find?_cons_of_pos (by simp)]
  · rw [offer_marks hq hr hl]
    exact .inr ⟨find_none hq, (mem_insertByKey id off off p.resync).mpr (.inl rfl)⟩

/-- An offer adds no other offset to queue and marks. -/
theorem offer_places (p : MemoryPath) (off : Nat) (w : Word) {o : Nat}
    (h : o ∈ (p.offer off w).queue.map Prod.fst ++ (p.offer off w).resync) :
    o = off ∨ o ∈ p.queue.map Prod.fst ++ p.resync := by
  by_cases ho : o = off
  · exact .inl ho
  obtain ⟨hf, hr⟩ := offer_others p ho w
  refine .inr ((List.mem_append.mp h).elim (fun hq => ?_) fun hm => List.mem_append_right _ (hr.mp hm))
  by_cases hn : o ∈ p.queue.map Prod.fst
  · exact List.mem_append_left _ hn
  · rw [find_none hn] at hf
    obtain ⟨e, he, rfl⟩ := List.mem_map.mp hq
    exact absurd (List.find?_eq_none.mp hf e he) (by simp)

/-- An offer pays the word that it offers. -/
theorem State.Shows.offer {D : Nat → Prop} {s : State} (h : s.Shows D) {off : Nat} (hi : isImageOffset off = true) :
    (s.offer off).Shows (fun o => D o ∧ o ≠ off) := by
  have k := (offer_evolves s off).keeps
  have hflight : (s.offer off).path.inFlight = s.path.inFlight := k .inFlight (by decide)
  have hheld : (s.offer off).path.held = s.path.held := k .held (by decide)
  have haddr (o : Nat) : (s.offer off).windowAddr o = s.windowAddr o := windowAddr_of_straps (k .straps (by decide)) o
  have hsram : (s.offer off).sram = s.sram := k .sram (by decide)
  refine ⟨fun o ho => ?_, fun e he => ?_, fun a w lanes he o ho => ?_, ?_, fun o ho hd => ?_⟩
  · rcases offer_places s.path off _ ho with rfl | ho
    · exact hi
    · exact h.places o ho
  · rw [haddr, sramWord_of_sram hsram]
    exact h.written e (hflight ▸ he)
  · rw [haddr]
    exact h.waiting a w lanes (hheld ▸ he) o ho
  · rw [hsram]
    exact h.memory
  · rw [imageWord_offer s off ho]
    by_cases hoff : o = off
    · subst hoff
      rcases offer_takes s.path o (s.imageWord o) with hf | ⟨hf, hm⟩
      · exact latestWord_find (s := s.offer o) hf
      · exact (latestWord_marked (s := s.offer o) hf hm).trans (imageWord_offer s o ho)
    · obtain ⟨hf, hr⟩ := offer_others s.path hoff (s.imageWord off)
      refine (latestWord_congr (t := s.offer off) hf hr (fun _ => imageWord_offer s off ho) ?_).trans
        (h.latest o ho fun d => hd ⟨d, hoff⟩)
      rw [haddr, sramWord_of_sram hsram]

end Sys2Proof.Machine
end

section
/-! What an operation owes to the window: the words that its owner changed and has not offered yet; an operation that offers all of
them tells the window (06, R120, R125). -/

namespace Sys2Proof.Machine

/-- From `s` to `t` no image word but those of `offs` may have changed without the window's finding the new word; the window stays as
open as it was, and no read of the START sequence begins. -/
structure Owes (offs : List Nat) (s t : State) : Prop where
  shows : ∀ D, s.Shows D → t.Shows (fun o => D o ∨ o ∈ offs)
  starting : t.starting → s.starting
  windowOpen : t.path.windowOpen = s.path.windowOpen
  awaited : t.path.awaited.isSome = s.path.awaited.isSome

/-- From `s` to `t` every image word that changed is found by a host read. -/
abbrev Tells (s t : State) : Prop := Owes [] s t

theorem Tells.shows_same {s t : State} (h : Tells s t) {D : Nat → Prop} (hs : s.Shows D) : t.Shows D :=
  (h.shows D hs).mono fun _ _ hd => hd.resolve_right List.not_mem_nil

/-- The START sequence's reads are no operation that begins or ends between `s` and `t`. -/
theorem starting_of_keeps {l : List Part} {s t : State} (k : KeepsBut l s t) (hl : ∀ p ∈ [Part.inReset, .operation], p ∉ l)
    (h : t.starting) : s.starting := by
  have hr : t.mode.inReset = s.mode.inReset := k .inReset (hl _ (by decide))
  have ho : t.ctrl.operation = s.ctrl.operation := k .operation (hl _ (by decide))
  unfold State.starting at h ⊢
  rwa [hr, ho] at h

namespace Owes

variable {offs : List Nat} {s t u : State}

theorem refl : Owes offs s s := ⟨fun _ h => h.mono fun _ _ => .inl, id, rfl, rfl⟩

theorem mono {offs' : List Nat} (h : Owes offs s t) (ho : ∀ o ∈ offs, o ∈ offs') : Owes offs' s t :=
  ⟨fun D hs => (h.shows D hs).mono fun o _ => Or.imp_right (ho o), h.starting, h.windowOpen, h.awaited⟩

/-- An operation that tells the window owes no more than any other. -/
theorem tells (h : Tells s t) : Owes offs s t := h.mono fun _ ho => absurd ho List.not_mem_nil

theorem trans (h : Owes offs s t) (g : Owes offs t u) : Owes offs s u :=
  ⟨fun D hs => (g.shows _ (h.shows D hs)).mono fun _ _ hd => hd.elim id .inr, fun x => h.starting (g.starting x),
    g.windowOpen.trans h.windowOpen, g.awaited.trans h.awaited⟩

theorem ite {c : Prop} [Decidable c] (h : Owes offs s t) (g : Owes offs s u) : Owes offs s (if c then t else u) := by
  split <;> assumption

/-- An operation done on a condition. -/
theorem iteThen {c : Prop} [Decidable c] (h : Owes offs s t) (g : Owes offs t u) : Owes offs s (if c then u else t) :=
  ite (h.trans g) h

theorem forEach {α : Type} {f : State → α → State} (h : ∀ t a, Owes offs t (f t a)) (xs : List α) (s : State) :
    Owes offs s (s.forEach xs f) := by
  induction xs generalizing s with
  | nil => exact .refl
  | cons x xs ih => exact (h s x).trans (ih (f s x))

/-- A replacement of owners' blocks owes the words that the owners now compose anew. -/
theorem replaced (w : t.windowView = s.windowView) (hs : t.starting → s.starting)
    (hc : ∀ p : Place, p.off ∉ offs → t.wordAt p = s.wordAt p) : Owes offs s t :=
  ⟨fun _ h => h.owe (sameWindow_of_view w) (fun _ _ => .inl) fun _ hi ho => imageWord_congr hc hi fun hm => ho (.inr hm), hs,
    windowOpen_of_view w, awaited_of_view w⟩

/-- The offer of one word that is owed. -/
theorem pay {off : Nat} (h : Owes (off :: offs) s t) (hi : isImageOffset off = true) : Owes offs s (t.offer off) where
  shows D hs := ((h.shows D hs).offer hi).mono fun _ _ ⟨hd, hne⟩ => hd.imp_right fun hm => (List.mem_cons.mp hm).resolve_left hne
  starting x := h.starting (starting_of_keeps (offer_evolves t off).keeps (by decide) x)
  windowOpen := ((offer_evolves t off).keeps .window (by decide)).trans h.windowOpen
  awaited := (congrArg Option.isSome ((offer_evolves t off).keeps .awaited (by decide))).trans h.awaited

end Owes

/-- The parts that an operation must leave alone to be none of the window's business. -/
def Part.told : List Part := [.queue, .inFlight, .held, .straps, .sram, .awaited, .inReset, .operation] ++ Part.imaged

namespace Tells

variable {s t u : State}

theorem of_keeps {l : List Part} (k : KeepsBut l s t) (hl : ∀ p ∈ Part.told, p ∉ l) : Tells s t := by
  have out (m : List Part) (hm : ∀ p ∈ m, p ∈ Part.told) : ∀ p ∈ m, p ∉ l := fun p hp => hl p (hm p hp)
  have view : t.windowView = s.windowView := windowView_eq (.of_keeps k (out _ (by decide))) (k .window (hl _ (by decide)))
    (congrArg Option.isSome (k .awaited (hl _ (by decide))))
  exact .replaced view (starting_of_keeps k (out _ (by decide))) fun p _ => wordAt_of_keeps k (out _ (by decide)) p

/-- An operation that touches nothing that a read finds. -/
theorem of {l : List Part} (h : Evolves l s t) (hl : ∀ p ∈ Part.told, p ∉ l) : Tells s t := of_keeps h.keeps hl

end Tells

/-- The words that an event changed, offered one after another (R125). -/
theorem offerChanged_shows {D : Nat → Prop} {old s t : State} {offs : List Nat} (hi : ∀ o ∈ offs, isImageOffset o = true)
    (ht : ∀ o, isImageOffset o = true → t.imageWord o = s.imageWord o)
    (h : t.Shows (fun o => D o ∨ old.imageWord o ≠ s.imageWord o ∧ o ∈ offs)) :
    State.Shows D (offs.foldl (fun t o => if old.imageWord o = s.imageWord o then t else t.offer o) t) := by
  induction offs generalizing t with
  | nil => exact h.mono fun _ _ hd => hd.resolve_right fun x => List.not_mem_nil x.2
  | cons a offs ih =>
    have hia := hi a List.mem_cons_self
    have hrest : ∀ o ∈ offs, isImageOffset o = true := fun o ho => hi o (List.mem_cons_of_mem _ ho)
    rw [List.foldl_cons]
    split
    · next he =>
      refine ih hrest ht (h.mono fun o _ hd => hd.imp_right fun ⟨hne, hm⟩ => ⟨hne, (List.mem_cons.mp hm).resolve_left ?_⟩)
      exact fun ho => hne (ho ▸ he)
    · refine ih hrest (fun o ho => (imageWord_offer t a ho).trans (ht o ho)) ((h.offer hia).mono fun o _ ⟨hd, hoa⟩ => ?_)
      exact hd.imp_right fun ⟨hne, hm⟩ => ⟨hne, (List.mem_cons.mp hm).resolve_left hoa⟩

/-- An event that offers the words that it changed owes no other. -/
theorem State.Shows.offerChanged {D : Nat → Prop} {old s : State} {offs : List Nat} (h : old.Shows D) (w : SameWindow old s)
    (hi : ∀ o ∈ offs, isImageOffset o = true) (hc : ∀ p : Place, p.off ∉ offs → s.wordAt p = old.wordAt p) :
    State.Shows D (old.offerChanged s offs) := by
  refine offerChanged_shows hi (fun _ _ => rfl) (h.owe w (fun _ _ hd => .inl hd) fun o ho hd => ?_)
  by_cases hm : o ∈ offs
  · by_contra hne
    exact hd (.inr ⟨fun x => hne x.symm, hm⟩)
  · exact imageWord_congr hc ho hm

theorem offerChanged_tells {old s : State} {offs : List Nat} (w : s.windowView = old.windowView)
    (hs : s.starting → old.starting) (hi : ∀ o ∈ offs, isImageOffset o = true)
    (hc : ∀ p : Place, p.off ∉ offs → s.wordAt p = old.wordAt p) : Tells old (old.offerChanged s offs) where
  shows D h := (h.offerChanged (sameWindow_of_view w) hi hc).mono fun _ _ => .inl
  starting x := hs (starting_of_keeps (offerChanged_evolves old s offs).keeps (by decide) x)
  windowOpen := ((offerChanged_evolves old s offs).keeps .window (by decide)).trans (windowOpen_of_view w)
  awaited := (congrArg Option.isSome ((offerChanged_evolves old s offs).keeps .awaited (by decide))).trans (awaited_of_view w)

/-- An event that changed one word and offers it, whether or not it differs. -/
theorem offer_tells {s t : State} {p : Place} (w : t.windowView = s.windowView) (hs : t.starting → s.starting)
    (hc : ∀ q : Place, q ≠ p → t.wordAt q = s.wordAt q) : Tells s (t.offer p.off) :=
  .pay (.replaced w hs fun q hq => hc q fun e => hq (e ▸ List.mem_singleton_self _)) (isImageOffset_off p)

/-- The status word after the other words of an event is one more word of it. -/
theorem offerStatus_offerChanged (old s : State) (offs : List Nat) :
    old.offerStatus (old.offerChanged s offs) = old.offerChanged s (offs ++ [offStatus]) := by
  have hst : (old.offerChanged s offs).statusWord = s.statusWord :=
    statusWord_of_keeps (offerChanged_evolves old s offs).keeps (by decide)
  have hold : old.imageWord offStatus = old.statusWord := rfl
  have hs : s.imageWord offStatus = s.statusWord := rfl
  unfold State.offerStatus
  rw [hst]
  conv_rhs => unfold State.offerChanged
  rw [List.foldl_append, List.foldl_cons, List.foldl_nil, hold, hs]
  rfl

theorem statusOffset_image : ∀ o ∈ [offStatus], isImageOffset o = true := fun _ ho =>
  List.mem_singleton.mp ho ▸ isImageOffset_off .status

theorem offerStatus_offers (old s : State) : old.offerStatus s = old.offerChanged s [offStatus] := offerStatus_offerChanged old s []

/-- A new status word offered when it differs (R135). -/
theorem offerStatus_tells {old s : State} (w : s.windowView = old.windowView) (hs : s.starting → old.starting)
    (hc : ∀ p : Place, p ≠ .status → s.wordAt p = old.wordAt p) : Tells old (old.offerStatus s) := by
  rw [offerStatus_offers]
  exact offerChanged_tells w hs statusOffset_image fun p hp => hc p fun e => hp (e ▸ List.mem_singleton_self _)

/-! ## The words of a state with one block replaced -/

section

variable (s : State)

theorem wordAt_setMode (x : ModeUnit) {p : Place} (h : p ≠ .status) : (s.setMode x).wordAt p = s.wordAt p := by
  cases p with
  | status => exact absurd rfl h
  | _ => rfl

theorem wordAt_setSvc (x : ServiceUnit) {p : Place} (h : p ≠ .status) : (s.setSvc x).wordAt p = s.wordAt p := by
  cases p with
  | status => exact absurd rfl h
  | _ => rfl

theorem wordAt_setSup (x : Supervision) {p : Place} (h : p ≠ .status) : (s.setSup x).wordAt p = s.wordAt p := by
  cases p with
  | status => exact absurd rfl h
  | _ => rfl

theorem wordAt_setSig (x : SignalUnit) {p : Place} (h : p ≠ .status) (hn : ∀ n, p ≠ .signal n) :
    (s.setSig x).wordAt p = s.wordAt p := by
  cases p with
  | status => exact absurd rfl h
  | signal => exact absurd rfl (hn _)
  | _ => rfl

theorem wordAt_setDoor (x : DoorUnit) {p : Place} (h : p ≠ .status) (hd : ∀ d k, p ≠ .door d k) :
    (s.setDoor x).wordAt p = s.wordAt p := by
  cases p with
  | status => exact absurd rfl h
  | door => exact absurd rfl (hd _ _)
  | _ => rfl

theorem wordAt_setInd (x : IndicationUnit) {p : Place} (ht : ∀ g, p ≠ .target g) (ha : ∀ g, p ≠ .actual g) :
    (s.setInd x).wordAt p = s.wordAt p := by
  cases p with
  | target => exact absurd rfl (ht _)
  | actual => exact absurd rfl (ha _)
  | _ => rfl

theorem wordAt_setWarn (x : WarningUnit) {p : Place} (hc : p ≠ .countA) (hw : ∀ w, p ≠ .warning w) (hd : ∀ k, p ≠ .display k) :
    (s.setWarn x).wordAt p = s.wordAt p := by
  cases p with
  | countA => exact absurd rfl hc
  | warning => exact absurd rfl (hw _)
  | display => exact absurd rfl (hd _)
  | _ => rfl

theorem wordAt_setFm (x : FaultMemory) {p : Place} (hs : p ≠ .status) (hc : p ≠ .countB) (hr : ∀ i k, p ≠ .record i k) :
    (s.setFm x).wordAt p = s.wordAt p := by
  cases p with
  | status => exact absurd rfl hs
  | countB => exact absurd rfl hc
  | record => exact absurd rfl (hr _ _)
  | _ => rfl

theorem wordAt_setRx (x : LineUnit) {p : Place} (hl : ∀ l k, p ≠ .line l k) (he : ∀ k, p ≠ .ever k) (ha : ∀ k, p ≠ .arrival k) :
    (s.setRx x).wordAt p = s.wordAt p := by
  cases p with
  | line => exact absurd rfl (hl _ _)
  | ever => exact absurd rfl (he _)
  | arrival => exact absurd rfl (ha _)
  | _ => rfl

end

end Sys2Proof.Machine
end

section
/-! Gauges, chime, tests, warnings and fault records tell the window what they change (05, R111; 04, R89; 08, R156). -/

namespace Sys2Proof.Machine

/-! ## Gauges (R104 to R111) -/

theorem wordAt_setGauge (s : State) (g : Fin 12) (x : Gauge) {p : Place}
    (ht : p = .target g → gaugeTargetWord x = gaugeTargetWord (s.ind.gauges.get g))
    (ha : p = .actual g → gaugeActualWord x = gaugeActualWord (s.ind.gauges.get g)) : (s.setGauge g x).wordAt p = s.wordAt p := by
  cases p with
  | target h =>
    by_cases e : g = h
    · subst e
      exact (congrArg gaugeTargetWord (Table.get_set_self ..)).trans (ht rfl)
    · exact congrArg gaugeTargetWord (Table.get_set_ne _ e _)
  | actual h =>
    by_cases e : g = h
    · subst e
      exact (congrArg gaugeActualWord (Table.get_set_self ..)).trans (ha rfl)
    · exact congrArg gaugeActualWord (Table.get_set_ne _ e _)
  | _ => exact wordAt_setInd s _ nofun nofun

/-- A gauge whose target word is unchanged, its actual word offered. -/
theorem setGauge_offer_tells (s : State) (g : Fin 12) {x : Gauge} (h : x.requested = (s.ind.gauges.get g).requested) :
    Tells s ((s.setGauge g x).offer (offGaugeActual g)) :=
  offer_tells (p := .actual g) rfl id fun _ hq => wordAt_setGauge s g x (fun _ => congrArg (field 0) h) fun e => absurd e hq

/-- A gauge none of whose words changed. -/
theorem setGauge_tells (s : State) (g : Fin 12) {x : Gauge} (h : x.requested = (s.ind.gauges.get g).requested)
    (ha : gaugeActualWord x = gaugeActualWord (s.ind.gauges.get g)) : Tells s (s.setGauge g x) :=
  .replaced rfl id fun _ _ => wordAt_setGauge s g x (fun _ => congrArg (field 0) h) fun _ => ha

theorem enterGauge_tells (s : State) (g : Fin 12) {x : Gauge} (h : x.requested = (s.ind.gauges.get g).requested) :
    Tells s (s.enterGauge g x) := by
  obtain ⟨y, hy, he⟩ := enterGauge_eq s g x
  rw [he]
  exact setGauge_offer_tells s g (hy.trans h)

theorem aim_actual (t : Nat) (x : Gauge) : gaugeActualWord (x.aim t).1 = gaugeActualWord x := by
  unfold Gauge.aim
  split <;> rfl

/-- A gauge that follows a new target shows its arrival; its target word is owed where the request is new. -/
theorem retarget_owes {offs : List Nat} (s : State) (g : Fin 12) {x : Gauge}
    (ha : gaugeActualWord x = gaugeActualWord (s.ind.gauges.get g))
    (ht : offGaugeTarget g ∈ offs ∨ x.requested = (s.ind.gauges.get g).requested) : Owes offs s (s.retarget g x) := by
  have target {p : Place} (hp : p.off ∉ offs) (y : Gauge) (hy : y.requested = x.requested) (e : p = .target g) :
      gaugeTargetWord y = gaugeTargetWord (s.ind.gauges.get g) := by
    subst e
    exact congrArg (field 0) (hy.trans (ht.resolve_left hp))
  unfold State.retarget
  dsimp only
  split
  · refine .pay (.replaced rfl id fun p hp => wordAt_setGauge s g _ (target (fun h => hp (List.mem_cons_of_mem _ h)) _ ?_) fun e => ?_)
      (isImageOffset_off (.actual g))
    · exact aim_requested _ x
    · subst e
      exact absurd List.mem_cons_self hp
  · exact .replaced rfl id fun p hp => wordAt_setGauge s g _ (target hp _ (aim_requested _ x)) fun _ => (aim_actual _ x).trans ha

theorem parkDecision_tells (s : State) (g : Fin 12) : Tells s (s.parkDecision g) := .ite (enterGauge_tells s g rfl) .refl

theorem parkHostGauge_tells (s : State) (g : Fin 12) : Tells s (s.parkHostGauge g) := .ite (parkDecision_tells s g) .refl

/-- A new request owes the target word until it is offered or written (R107, R108). -/
theorem setRequested_owes (s : State) (g : Fin 12) (r : Nat) : Owes [offGaugeTarget g] s (s.setRequested g r) :=
  .ite (retarget_owes s g rfl (.inl List.mem_cons_self)) <| .replaced rfl id fun _ hp =>
    wordAt_setGauge s g _ (fun e => absurd (e ▸ List.mem_cons_self) hp) fun _ => rfl

theorem boundGauge_tells (s : State) (n : Fin 256) (g : Fin 12) : Tells s (s.boundGauge n g) := by
  unfold State.boundGauge
  dsimp only
  split
  · refine .ite (.trans ?_ (parkDecision_tells _ g)) .refl
    exact .ite (.ite .refl (.pay (setRequested_owes s g _) (isImageOffset_off (.target g)))) .refl
  · exact .refl
  · exact .refl

theorem startHoming_tells (s : State) (g : Fin 12) : Tells s (s.startHoming g) := by
  unfold State.startHoming
  refine .ite ?_ .refl
  dsimp only
  split
  · next h =>
    refine setGauge_tells s g rfl ?_
    simp [gaugeActualWord, h, GaugeState.homed]
  · exact setGauge_offer_tells s g rfl

theorem homeAll_tells (s : State) : Tells s s.homeAll := .forEach startHoming_tells _ s

theorem unhome_tells (s : State) (g : Fin 12) : Tells s (s.unhome g) := .ite .refl (setGauge_offer_tells s g rfl)

theorem enterSweep_tells (s : State) (g : Fin 12) : Tells s (s.enterSweep g) := .ite (enterGauge_tells s g rfl) .refl

theorem leaveSweep_tells (s : State) (g : Fin 12) : Tells s (s.leaveSweep g) := .ite (enterGauge_tells s g rfl) .refl

theorem completeHoming_tells (s : State) (g : Fin 12) : Tells s (s.completeHoming g) := enterGauge_tells s g rfl

/-- An arrival shows the position reached, and a sweep that goes on what its next phase reaches at once. -/
theorem takeArrival_tells (s : State) (g : Fin 12) : Tells s (s.takeArrival g) := by
  have sweeps (t : State) (x y : Gauge) (hx : t.ind.gauges.get g = x) (hr : y.requested = x.requested)
      (ha : gaugeActualWord y = gaugeActualWord x) : Tells t (t.retarget g y) := by
    subst hx
    exact retarget_owes t g ha (.inr hr)
  have stands (t : State) (x : Gauge) (off : Nat) : ((t.setGauge g x).offer off).ind.gauges.get g = x := Table.get_set_self ..
  unfold State.takeArrival
  dsimp only
  refine .iteThen ?_ ?_
  · exact setGauge_offer_tells s g rfl
  split
  · exact sweeps _ _ _ (stands s _ _) rfl rfl
  · exact sweeps _ _ _ (stands s _ _) rfl rfl
  · exact leaveSweep_tells _ g
  · exact leaveSweep_tells _ g

/-! ## The end of a test, and the status word of the service unit (R135, R177) -/

theorem offerStatus_setSvc_tells (s : State) (x : ServiceUnit) : Tells s (s.offerStatus (s.setSvc x)) :=
  offerStatus_tells rfl id fun _ hp => wordAt_setSvc s x hp

theorem offerStatus_setMode_tells (s : State) {x : ModeUnit} (h : x.inReset = s.mode.inReset) :
    Tells s (s.offerStatus (s.setMode x)) :=
  offerStatus_tells rfl (fun e => e.imp_left fun r => h ▸ r) fun _ hp => wordAt_setMode s x hp

theorem setCause_tells (s : State) (c : Cause) : Tells s (s.setCause c) := .of (setCause_evolves s c) (by decide)

theorem evalLampsNaming_tells (s : State) (q : LampSource → Bool) : Tells s (s.evalLampsNaming q) :=
  .of (evalLampsNaming_evolves s q) (by decide)

theorem evalAllLamps_tells (s : State) : Tells s s.evalAllLamps := .of (evalAllLamps_evolves s) (by decide)

theorem evalChime_tells (s : State) : Tells s s.evalChime := .of (evalChime_evolves s) (by decide)

theorem endTest_tells (s : State) (o : TestOutcome) : Tells s (s.endTest o) := by
  unfold State.endTest
  refine .ite .refl ?_
  dsimp only
  split
  · exact offerStatus_setSvc_tells s _
  · exact (offerStatus_setSvc_tells s _).trans (evalAllLamps_tells _)
  · exact (offerStatus_setSvc_tells s _).trans (.forEach leaveSweep_tells _ _)
  · exact (offerStatus_setSvc_tells s _).trans (Tells.of (endChimeTest_evolves _) (by decide))

/-! ## Warnings (R89) -/

theorem mem_displayOffsets (k : Fin 8) : offDisplay k.val ∈ displayOffsets :=
  List.mem_map_of_mem (List.mem_range.mpr k.isLt)

theorem warningOffsets_image (l : List (Fin 96)) : ∀ o ∈ l.map offWarning ++ displayOffsets, isImageOffset o = true := fun o ho => by
  rcases List.mem_append.mp ho with h | h
  · obtain ⟨w, -, rfl⟩ := List.mem_map.mp h
    exact isImageOffset_off (.warning w)
  · obtain ⟨k, hk, rfl⟩ := List.mem_map.mp h
    exact isImageOffset_off (.display ⟨k, List.mem_range.mp hk⟩)

/-- A new warning table: the words of the warnings that differ and of the display list are offered. -/
theorem commitWarnings_tells (s : State) (rows : Table 96 Warning) : Tells s (s.commitWarnings rows) := by
  unfold State.commitWarnings
  dsimp only
  refine .trans ?_ (evalChime_tells _)
  refine .trans ?_ (evalLampsNaming_tells _ _)
  refine .iteThen ?_ (endTest_tells _ _)
  refine .iteThen ?_ (setCause_tells _ _)
  refine offerChanged_tells rfl id (warningOffsets_image _) fun p hp => ?_
  cases p with
  | warning w =>
    have hw : w ∉ (List.finRange 96).filter fun w => rows.get w ≠ s.warn.rows.get w := fun hm =>
      hp (List.mem_append_left _ (List.mem_map_of_mem hm))
    have he : rows.get w = s.warn.rows.get w := by
      simpa using hw
    exact congrArg warningWord he
  | display k => exact absurd (List.mem_append_right _ (mem_displayOffsets k)) hp
  | countA => rfl
  | _ => exact wordAt_setWarn s _ nofun nofun nofun

theorem commitWarning_tells (s : State) (w : Fin 96) (x : Warning) : Tells s (s.commitWarning w x) := commitWarnings_tells ..

theorem evalWarnings_tells (s : State) (p : WarnCfg → Bool) : Tells s (s.evalWarnings p) := .ite (commitWarnings_tells ..) .refl

theorem setAckLevel_tells (s : State) (x : AckLevel) : Tells s (s.setWarn { s.warn with ackLevel := x }) :=
  .replaced rfl id fun p _ => by cases p <;> rfl

theorem ackInput_tells (s : State) (n : Fin 256) : Tells s (s.ackInput n) := by
  unfold State.ackInput
  refine .ite ?_ .refl
  dsimp only
  refine .iteThen (setAckLevel_tells s _) ?_
  split
  · exact .refl
  · exact commitWarning_tells ..

theorem parkWarnings_tells (s : State) : Tells s s.parkWarnings :=
  (commitWarnings_tells s _).trans (.replaced rfl id fun p _ => by cases p <;> rfl)

theorem resumeWarnings_tells (s : State) : Tells s s.resumeWarnings := (setAckLevel_tells s _).trans (evalWarnings_tells ..)

/-! ## Fault records (R156) -/

/-- Outside some slots the record table is the same. -/
def FaultMemory.SameRecordsBut (slots : List (Fin 32)) (a b : FaultMemory) : Prop :=
  ∀ i, i ∉ slots → b.records.get i = a.records.get i

namespace FaultMemory.SameRecordsBut

variable {slots : List (Fin 32)} {a b : FaultMemory}

theorem of_eq (h : b.records = a.records) : SameRecordsBut slots a b := fun i _ => congrArg (fun t => t.get i) h

theorem queueFor (h : SameRecordsBut slots a b) (i : Fin 32) (k : FaultKind) : SameRecordsBut slots a (b.queueFor i k) := by
  unfold FaultMemory.queueFor
  split
  · exact h
  · intro j hj
    obtain ⟨-, e, -⟩ := queue_keeps b i
    rw [e]
    exact h j hj

theorem put (h : SameRecordsBut slots a b) {i : Fin 32} (hi : i ∈ slots) (r : Record) : SameRecordsBut slots a (b.put i r) :=
  fun j hj => (Table.get_set_ne _ (fun (e : i = j) => hj (e ▸ hi)) _).trans (h j hj)

theorem empty (h : SameRecordsBut slots a b) {i : Fin 32} (hi : i ∈ slots) : SameRecordsBut slots a (b.empty i) :=
  fun j hj => (Table.get_set_ne _ (fun (e : i = j) => hj (e ▸ hi)) _).trans (h j hj)

theorem putOne (h : SameRecordsBut [] a b) (i : Fin 32) (r : Record) (k : FaultKind) :
    SameRecordsBut [i] a ((b.put i r).queueFor i k) :=
  .queueFor (.put (fun j _ => h j List.not_mem_nil) List.mem_cons_self r) i k

theorem all : SameRecordsBut (List.finRange 32) a b := fun i hi => absurd (List.mem_finRange i) hi

/-- A record is placed in the slot named, or nowhere. -/
theorem place (fm : FaultMemory) (r : Record) : SameRecordsBut (fm.place r).2.toList fm (fm.place r).1 := by
  unfold FaultMemory.place
  split
  · exact .put (fun _ _ => rfl) (by simp) r
  · split
    · intro j hj
      obtain ⟨-, e, -⟩ := queue_keeps ((fm.empty _).put _ r) _
      rw [e]
      exact (SameRecordsBut.put (.empty (fun _ _ => rfl) (by simp)) (by simp) r) j hj
    · exact fun _ _ => rfl

theorem create (fm : FaultMemory) (c : FaultCode) (confirm : Nat) (now : Moment) (frame : Option Frame) :
    SameRecordsBut (fm.create c confirm now frame).2.toList fm (fm.create c confirm now frame).1 := by
  have hp := place fm { code := c, timer := some 0 }
  unfold FaultMemory.create
  dsimp only
  split
  · next fm1 he =>
    rw [he] at hp
    exact hp
  · next fm1 i he =>
    rw [he] at hp
    split
    · exact .queueFor (.put hp (by simp) _) i _
    · exact hp

end FaultMemory.SameRecordsBut

theorem faultOffsets_image (slots : List (Fin 32)) :
    ∀ o ∈ recordOffsets slots ++ [offCountB, offStatus], isImageOffset o = true := fun o ho => by
  rcases List.mem_append.mp ho with h | h
  · obtain ⟨i, -, h⟩ := List.mem_flatMap.mp h
    obtain ⟨k, hk, rfl⟩ := List.mem_map.mp h
    exact isImageOffset_off (.record i ⟨k, List.mem_range.mp hk⟩)
  · rcases List.mem_cons.mp h with rfl | h
    · exact isImageOffset_off .countB
    · exact List.mem_singleton.mp h ▸ isImageOffset_off .status

/-- A new fault memory: the words of the slots that differ, of the overflow count and of the status cell are offered. -/
theorem commitFaults_tells (s : State) {fm : FaultMemory} {slots : List (Fin 32)} {b : Bool}
    (h : s.fm.SameRecordsBut slots fm) : Tells s (s.commitFaults fm slots b) := by
  have offered (c : Prop) [Decidable c] :
      Tells s (if c then (s.offerChanged (s.setFm fm) (recordOffsets slots ++ [offCountB, offStatus])).setCause .fault
        else s.offerChanged (s.setFm fm) (recordOffsets slots ++ [offCountB, offStatus])) := by
    refine .iteThen (offerChanged_tells rfl id (faultOffsets_image slots) fun p hp => ?_) (setCause_tells _ _)
    cases p with
    | record i k =>
      have hi : i ∉ slots := fun hm => hp <| List.mem_append_left _ <|
        List.mem_flatMap.mpr ⟨i, hm, List.mem_map_of_mem (List.mem_range.mpr k.isLt)⟩
      exact congrArg (recordWord · k.val) (h i hi)
    | countB => exact absurd (List.mem_append_right _ List.mem_cons_self) hp
    | status => exact absurd (List.mem_append_right _ (List.mem_cons_of_mem _ List.mem_cons_self)) hp
    | _ => exact wordAt_setFm s fm nofun nofun nofun
  unfold State.commitFaults
  exact .ite (offered _) ((offered _).trans (evalWarnings_tells _ _))

/-- A fault memory whose record table and flags stand is none of the window's business. -/
theorem setPresent_tells (s : State) (l : List FaultCode) : Tells s (s.setFm { s.fm with present := l }) :=
  .replaced rfl id fun p _ => by cases p <;> rfl

theorem appear_tells (s : State) (c : FaultCode) : Tells s (s.appear c) := by
  unfold State.appear
  refine .ite .refl (.ite ?_ ?_)
  · exact commitFaults_tells s (.of_eq rfl)
  dsimp only
  split
  · split
    · exact setPresent_tells s _
    · refine .ite ?_ (setPresent_tells s _)
      exact commitFaults_tells s (.putOne (.of_eq rfl) _ _ _)
  · exact commitFaults_tells s (.create { s.fm with present := s.fm.present ++ [c] } c _ _ _)

theorem disappear_tells (s : State) (c : FaultCode) : Tells s (s.disappear c) := by
  unfold State.disappear
  refine .ite ?_ .refl
  dsimp only
  split
  · exact setPresent_tells s _
  · split
    · exact setPresent_tells s _
    · split
      · exact commitFaults_tells s (.empty (.of_eq rfl) List.mem_cons_self)
      · exact commitFaults_tells s (.putOne (.of_eq rfl) _ _ _)
      · exact setPresent_tells s _

theorem reportChange_tells (s : State) (a b : Option FaultCode) : Tells s (s.reportChange a b) := by
  unfold State.reportChange
  refine .ite .refl ?_
  cases a with
  | none =>
    cases b with
    | none => exact .refl
    | some c => exact appear_tells s c
  | some d =>
    cases b with
    | none => exact disappear_tells s d
    | some c => exact (disappear_tells s d).trans (appear_tells _ c)

theorem takeMomentary_tells (s : State) (k : FaultKind) : Tells s (s.takeMomentary k) := by
  unfold State.takeMomentary
  dsimp only
  split
  · split
    · exact .refl
    · exact commitFaults_tells s (.putOne (.of_eq rfl) _ _ _)
  · have hp := FaultMemory.SameRecordsBut.place s.fm { code := { kind := k, subject := 0 } }
    split
    · next fm he =>
      rw [he] at hp
      exact commitFaults_tells s hp
    · next fm i he =>
      rw [he] at hp
      exact commitFaults_tells s (.queueFor (.put hp List.mem_cons_self _) i k)

theorem momentary_tells (s : State) (k : FaultKind) : Tells s (s.momentary k) :=
  .ite (takeMomentary_tells s k) (.replaced rfl id fun p _ => by cases p <;> rfl)

theorem confirmSlot_tells (s : State) (i : Fin 32) : Tells s (s.confirmSlot i) := by
  unfold State.confirmSlot
  split
  · exact .refl
  · exact .ite (commitFaults_tells s (.putOne (.of_eq rfl) _ _ _)) .refl

theorem healingPass_tells (s : State) : Tells s s.healingPass := commitFaults_tells s .all

theorem restartFaults_tells (s : State) : Tells s s.restartFaults := commitFaults_tells s .all

end Sys2Proof.Machine
end

section
/-! Motion, doors, supervision, modes and signals tell the window what they change (01, 03, 07, 10; 06, R125, R135). -/

namespace Sys2Proof.Machine

/-! ## Replacements that no word shows -/

/-- What the window shows of the mode unit, and the reset that keeps it closed. -/
def ModeUnit.shown (x : ModeUnit) := (x.inReset, x.mode, x.wakeCause, x.causes)

theorem setMode_tells (s : State) {x : ModeUnit} (h : x.shown = s.mode.shown) : Tells s (s.setMode x) := by
  simp only [ModeUnit.shown, Prod.mk.injEq] at h
  obtain ⟨hr, hm, hw, hc⟩ := h
  refine .replaced rfl (fun h => h.imp_left fun e => hr ▸ e) fun p _ => ?_
  cases p with
  | status => simp only [State.wordAt, State.statusWord, State.setMode_mode, hm, hw, hc]; rfl
  | _ => exact wordAt_setMode s x nofun

theorem setSup_tells (s : State) {u : Supervision} (h : u.state = s.sup.state) : Tells s (s.setSup u) := by
  refine .replaced rfl id fun p _ => ?_
  cases p with
  | status => simp only [State.wordAt, State.statusWord, State.setSup_sup, h]; rfl
  | _ => exact wordAt_setSup s u nofun

theorem setInp_tells (s : State) (x : InputUnit) : Tells s (s.setInp x) := Tells.of (setInp_alone s x) (by decide)

theorem setCountersPending_tells (s : State) : Tells s (s.setCtrl { s.ctrl with countersPending := true }) :=
  Tells.of (setCountersPending_evolves s) (by decide)

/-! ## Motion and workshop level (R18, R174) -/

theorem judgeLevel_tells (s : State) : Tells s s.judgeLevel := .iteThen (offerStatus_setSvc_tells s _) (endTest_tells _ _)

theorem takeMotion_tells (s : State) (m : Motion) (hold : Option Nat) : Tells s (s.takeMotion m hold) := by
  unfold State.takeMotion
  dsimp only
  split
  · next h =>
    subst h
    exact .replaced rfl id fun p _ => by cases p <;> rfl
  · refine .trans ?_ (judgeLevel_tells _)
    refine .trans ?_ (evalWarnings_tells _ _)
    refine offerStatus_tells rfl id fun p hp => ?_
    cases p with
    | status => exact absurd rfl hp
    | signal n => rfl
    | _ => exact wordAt_setSig s _ hp nofun

theorem deriveMotion_tells (s : State) : Tells s s.deriveMotion := takeMotion_tells ..

/-! ## Doors (R64) -/

theorem doorOffsets_image (ds : List (Fin 6)) : ∀ o ∈ ds.flatMap doorOffsets ++ [offStatus], isImageOffset o = true := fun o ho => by
  rcases List.mem_append.mp ho with h | h
  · obtain ⟨d, -, h⟩ := List.mem_flatMap.mp h
    obtain ⟨k, hk, rfl⟩ := List.mem_map.mp h
    exact isImageOffset_off (.door d ⟨k, List.mem_range.mp hk⟩)
  · exact List.mem_singleton.mp h ▸ isImageOffset_off .status

/-- A door event offers the words of its doors, and then the status word. -/
theorem handDoors_tells (s : State) {u : DoorUnit} {ds : List (Fin 6)} (h : ∀ d, d ∉ ds → u.doors.get d = s.door.doors.get d)
    (passed : Bool) {report : State → Fin 6 → State} (hr : ∀ t d, Tells t (report t d)) :
    Tells s (State.handDoors s (s.setDoor u) ds passed report) := by
  unfold State.handDoors
  dsimp only
  rw [offerStatus_offerChanged]
  refine .iteThen ?_ (evalLampsNaming_tells _ _)
  refine .trans (t := State.forEach _ ds report) ?_ (.ite .refl (evalWarnings_tells _ _))
  refine .trans ?_ (.forEach hr _ _)
  refine .iteThen ?_ (setCause_tells _ _)
  refine offerChanged_tells rfl id (doorOffsets_image ds) fun p hp => ?_
  cases p with
  | door d k =>
    have hd : d ∉ ds := fun hm => hp <| List.mem_append_left _ <|
      List.mem_flatMap.mpr ⟨d, hm, List.mem_map_of_mem (List.mem_range.mpr k.isLt)⟩
    exact congrArg (doorWord · k.val) (h d hd)
  | status => exact absurd (List.mem_append_right _ List.mem_cons_self) hp
  | _ => exact wordAt_setDoor s u nofun nofun

theorem commitDoor_tells (s : State) (d : Fin 6) (x : Door) : Tells s (s.commitDoor d x) :=
  handDoors_tells s (fun _ he => Table.get_set_ne _ (fun e => he (List.mem_singleton.mpr e.symm)) _) _ fun _ _ => reportChange_tells ..

theorem expireDoorAtOnce_tells (s : State) (d : Fin 6) : Tells s (s.expireDoorAtOnce d) := .ite (commitDoor_tells s d _) .refl

theorem doorsHanded_tells (s : State) (n : Fin 256) : Tells s (s.doorsHanded n) :=
  .forEach (fun t d => .ite ((commitDoor_tells t d _).trans (expireDoorAtOnce_tells _ d)) .refl) _ s

theorem resumeDoors_tells (s : State) : Tells s s.resumeDoors := by
  unfold State.resumeDoors
  refine .trans ?_ (.forEach expireDoorAtOnce_tells _ _)
  refine handDoors_tells s (fun d hd => ?_) _ fun _ _ => (reportChange_tells ..).trans (reportChange_tells ..)
  have hp : (s.profile.doors.get d).present = false := by
    simpa [State.presentDoors] using hd
  refine (Table.get_ofFn _ d).trans ?_
  unfold State.resumedDoor
  simp only [hp]
  rfl

/-! ## Supervision (R143) -/

/-- A change of the supervision state owes the status word until the end of its hand-over. -/
theorem commitSup_tells (s : State) (u : Supervision) : Tells s (s.commitSup u) := by
  unfold State.commitSup
  dsimp only
  split
  · next h => exact setSup_tells s h.symm
  · refine .trans (.pay (off := offStatus) ?_ (isImageOffset_off .status)) (setCause_tells _ _)
    refine .trans ?_ (.tells (reportChange_tells _ _ _))
    refine .trans ?_ (.forEach (fun t g => .tells (parkHostGauge_tells t g)) _ _)
    refine .trans ?_ (.tells (evalLampsNaming_tells _ _))
    exact .replaced rfl id fun p hp => wordAt_setSup s u fun e => hp (e ▸ List.mem_cons_self)

theorem aliveWrite_tells (s : State) (k : Byte) : Tells s (s.aliveWrite k) :=
  .ite .refl (.ite (setSup_tells s rfl) (commitSup_tells s _))

theorem resumeSup_tells (s : State) : Tells s s.resumeSup := commitSup_tells ..

theorem startGrace_tells (s : State) : Tells s s.startGrace := .ite (setSup_tells s rfl) .refl

/-! ## Ignition and drive cycles (R180, R181) -/

theorem startCycle_tells (s : State) : Tells s s.startCycle := by
  unfold State.startCycle
  dsimp only
  refine .trans ?_ (homeAll_tells _)
  have counted : Tells s ((s.setMode { s.mode with cycleOpen := true, cycle := satInc s.mode.cycle, time := 0 }).setCtrl
      { s.ctrl with countersPending := true }) := (setMode_tells s (by rfl)).trans (setCountersPending_tells _)
  exact .ite counted (counted.trans (.trans (Tells.of (setLampCheck_evolves _ _) (by decide)) (evalAllLamps_tells _)))

theorem parkIndication_tells (s : State) : Tells s s.parkIndication := by
  unfold State.parkIndication
  refine .trans ?_ (evalAllLamps_tells _)
  refine .trans ?_ (.forEach unhome_tells _ _)
  refine .trans ?_ (Tells.of (silenceChime_evolves _) (by decide))
  exact Tells.of (setLampCheck_evolves s _) (by decide)

theorem enterParking_tells (s : State) : Tells s s.enterParking := by
  unfold State.enterParking
  dsimp only
  refine .trans ?_ (parkIndication_tells _)
  refine .trans ?_ (endTest_tells _ _)
  refine .trans ?_ (parkWarnings_tells _)
  refine .trans ?_ (setCountersPending_tells _)
  exact .iteThen (offerStatus_setMode_tells s rfl) (healingPass_tells _)

theorem startOffTimer_tells (s : State) : Tells s s.startOffTimer := .ite (enterParking_tells s) (setMode_tells s rfl)

theorem judgeIgnition_tells (s : State) : Tells s s.judgeIgnition := by
  have judged (i : Ignition) (e : Option Nat) : Tells s (s.setMode { s.mode with ignition := i, offTimer := e }) :=
    setMode_tells s rfl
  unfold State.judgeIgnition
  dsimp only
  refine .ite ?_ (judged _ _)
  split
  · exact .ite (judged _ _) ((judged _ _).trans (startCycle_tells _))
  · exact judged _ _
  · exact .ite (judged _ _) ((judged _ _).trans (startOffTimer_tells _))

theorem judgeIgnitionAtRun_tells (s : State) : Tells s s.judgeIgnitionAtRun :=
  (setMode_tells s (by rfl)).trans (judgeIgnition_tells _)

/-! ## Returns to RUN and PARKED (R184, R185) -/

theorem takeWakeCause_tells (s : State) : Tells s s.takeWakeCause := (offerStatus_setMode_tells s (by rfl)).trans (setCause_tells _ _)

theorem enterRunIndication_tells (s : State) : Tells s s.enterRunIndication :=
  ((evalAllLamps_tells s).trans (homeAll_tells _)).trans (evalChime_tells _)

theorem returnToRun_tells (s : State) : Tells s s.returnToRun :=
  (((takeWakeCause_tells s).trans (resumeWarnings_tells _)).trans (enterRunIndication_tells _)).trans (judgeIgnitionAtRun_tells _)

theorem resumeSignals_tells (s : State) : Tells s s.resumeSignals := by
  unfold State.resumeSignals
  dsimp only
  refine .trans ?_ (deriveMotion_tells _)
  refine .trans ?_ (.forEach (fun t n => reportChange_tells t _ _) _ _)
  refine offerChanged_tells rfl id (fun o ho => ?_) fun p hp => ?_
  · obtain ⟨n, -, rfl⟩ := List.mem_map.mp ho
    exact isImageOffset_off (.signal n)
  · cases p with
    | signal n => exact absurd (List.mem_map_of_mem (List.mem_finRange n)) hp
    | status => rfl
    | _ => exact wordAt_setSig s _ nofun nofun

theorem lineOffsets_image (l : Fin 3) : ∀ o ∈ lineOffsets l, isImageOffset o = true := fun o ho => by
  obtain ⟨k, hk, rfl⟩ := List.mem_map.mp ho
  exact isImageOffset_off (.line l ⟨k, List.mem_range.mp hk⟩)

theorem mem_lineOffsets (l : Fin 3) (k : Fin 8) : (Place.line l k).off ∈ lineOffsets l :=
  List.mem_map_of_mem (List.mem_range.mpr k.isLt)

theorem resumeLines_tells (s : State) : Tells s s.resumeLines := by
  unfold State.resumeLines
  dsimp only
  refine .trans ?_ (.forEach (fun t l => reportChange_tells t _ _) _ _)
  refine offerChanged_tells rfl id (fun o ho => ?_) fun p hp => ?_
  · obtain ⟨l, -, h⟩ := List.mem_flatMap.mp ho
    exact lineOffsets_image l o h
  · cases p with
    | line l k => exact absurd (List.mem_flatMap.mpr ⟨l, List.mem_finRange l, mem_lineOffsets l k⟩) hp
    | ever k => rfl
    | arrival k => rfl
    | _ => exact wordAt_setRx s _ nofun nofun nofun

theorem resumeUnits_tells (s : State) : Tells s s.resumeUnits :=
  .ite ((((resumeSignals_tells s).trans (setInp_tells _ _)).trans (resumeLines_tells _)).trans (resumeDoors_tells _)) .refl

theorem wakeResume_tells (s : State) : Tells s s.wakeResume := by
  rw [wakeResume_eq]
  refine .trans ?_ (judgeIgnitionAtRun_tells _)
  refine .trans ?_ (judgeLevel_tells _)
  refine .trans ?_ (enterRunIndication_tells _)
  refine .trans ?_ (resumeWarnings_tells _)
  refine .trans ?_ (resumeSup_tells _)
  exact (takeWakeCause_tells s).trans (resumeUnits_tells _)

theorem wake_tells (s : State) (k : WakeSet) : Tells s (s.wake k) :=
  .ite ((setMode_tells s (by rfl)).trans (wakeResume_tells _)) .refl

theorem wakeEdge_tells (s : State) : Tells s s.wakeEdge := .ite (setMode_tells s rfl) (wake_tells s _)

theorem parkDoors_word (s : State) {p : Place} (h : p ≠ .status) : (s.setDoor s.door.freeze).wordAt p = s.wordAt p := by
  cases p with
  | door d k =>
    refine congrArg (doorWord · k.val) (Table.get_map _ _ d) |>.trans ?_
    unfold doorWord
    rfl
  | _ => exact wordAt_setDoor s _ h nofun

/-- The receive states and reply data that the entry into PARKED takes from the lines are in no word. -/
theorem parkLines_word (s : State) (p : Place) : (s.setRx
    { s.rx with lines := s.rx.lines.map LineRx.park, owner := .none, collision := false, firstChar := false }).wordAt p = s.wordAt p := by
  cases p with
  | line l k =>
    refine congrArg (lineWord · k.val) (Table.get_map _ _ l) |>.trans ?_
    unfold lineWord
    rfl
  | ever k => rfl
  | arrival k => rfl
  | _ => exact wordAt_setRx s _ nofun nofun nofun

theorem enterParked_tells (s : State) : Tells s s.enterParked := by
  unfold State.enterParked
  dsimp only
  refine .iteThen (offerStatus_tells rfl id fun p hp => ?_) (setCause_tells _ _)
  refine (wordAt_setSvc _ _ hp).trans <| (wordAt_setSup _ _ hp).trans <| (parkDoors_word _ hp).trans <|
    (parkLines_word _ p).trans ?_
  cases p with
  | status => exact absurd rfl hp
  | _ => rfl

theorem checkFlush_tells (s : State) : Tells s s.checkFlush := by
  unfold State.checkFlush
  refine .ite ?_ .refl
  dsimp only
  exact .ite (enterParked_tells s) ((setMode_tells s (by rfl)).trans (returnToRun_tells _))

/-! ## Updates (R6 to R8) -/

theorem handOn_tells (s : State) (n : Fin 256) : Tells s (s.handOn n) := by
  unfold State.handOn
  dsimp only
  refine .iteThen ?_ (judgeIgnition_tells _)
  refine .iteThen ?_ (judgeLevel_tells _)
  refine .trans ?_ (.forEach (fun t g => boundGauge_tells t n g) _ _)
  refine .trans ?_ (evalLampsNaming_tells _ _)
  refine .trans ?_ (ackInput_tells _ n)
  refine .trans ?_ (evalWarnings_tells _ _)
  refine .trans ?_ (doorsHanded_tells _ n)
  exact .ite (deriveMotion_tells s) .refl

theorem signalWord_congr {a b : Signal} (hv : a.value = b.value) (hq : a.quality = b.quality) (hs : a.sequence = b.sequence) :
    signalWord a = signalWord b := by
  unfold signalWord
  rw [hv, hq, hs]

/-- An entry taken tells its cell's word where its image does; without an image the word is as it was. -/
theorem commitSignal_tells (s : State) (n : Fin 256) {e : Signal} (always : Bool) {emit : State → State}
    (hseq : e.sequence = (s.sig.entries.get n).sequence)
    (he : ∀ x : SignalUnit, Owes [offSignal n] s (s.setSig x) → Tells s (emit (s.setSig x))) :
    Tells s (s.commitSignal n e always emit) := by
  have word (x : Signal) {p : Place} (h : p = .signal n → signalWord x = signalWord (s.sig.entries.get n)) :
      (s.setSig { s.sig with entries := s.sig.entries.set n x }).wordAt p = s.wordAt p := by
    cases p with
    | signal m =>
      by_cases hm : n = m
      · subst hm
        exact (congrArg signalWord (Table.get_set_self ..)).trans (h rfl)
      · exact congrArg signalWord (Table.get_set_ne _ hm _)
    | status => rfl
    | _ => exact wordAt_setSig s _ nofun nofun
  unfold State.commitSignal
  dsimp only
  refine .iteThen ?_ (handOn_tells _ n)
  refine .trans ?_ (reportChange_tells _ _ _)
  split
  · exact he _ (.replaced rfl id fun p hp => word _ fun e => absurd (e ▸ List.mem_cons_self) hp)
  · next h =>
    have hd : (s.sig.entries.get n).value = e.value ∧ (s.sig.entries.get n).quality = e.quality := by
      simpa [Signal.differs] using (Bool.or_eq_false_iff.mp (Bool.eq_false_iff.mpr h)).2
    exact .replaced rfl id fun p _ => word _ fun _ => signalWord_congr hd.1.symm hd.2.symm hseq

theorem update_sequence (c : SignalCfg) (v : BitVec 16) (e : Signal) : (e.update c v).sequence = e.sequence := by
  unfold Signal.update
  split <;> rfl

theorem deliver_tells (s : State) (n : Fin 256) (v : BitVec 16) : Tells s (s.deliver n v) := by
  unfold State.deliver
  refine .ite ?_ .refl
  exact commitSignal_tells s n _ (update_sequence ..) fun _ h => h.pay (isImageOffset_off (.signal n))

theorem takeExpiry_tells (s : State) (n : Fin 256) : Tells s (s.takeExpiry n) :=
  commitSignal_tells s n _ rfl fun _ h => h.pay (isImageOffset_off (.signal n))

/-! ## Inputs (R10 to R15) -/

theorem deliverInput_tells (s : State) (i : Fin 24) (f : Filtered) : Tells s (s.deliverInput i f) :=
  .forEach (fun t n => deliver_tells t n _) _ s

theorem settle_tells (s : State) (i : Fin 24) : Tells s (s.settle i) := by
  unfold State.settle
  dsimp only
  refine .iteThen ?_ (wakeEdge_tells _)
  refine .iteThen ?_ (wake_tells _ _)
  exact .iteThen (setInp_tells s _) (deliverInput_tells _ i _)

theorem changeLevel_tells (s : State) (i : Fin 24) : Tells s (s.changeLevel i) := by
  unfold State.changeLevel
  dsimp only
  exact .ite (.iteThen (setInp_tells s _) (settle_tells _ i)) (setInp_tells s _)

theorem deliverSpeed_tells (s : State) (v : BitVec 16) : Tells s (s.deliverSpeed v) := .forEach (fun t n => deliver_tells t n v) _ s

theorem speedOverflow_tells (s : State) : Tells s s.speedOverflow := (setInp_tells s _).trans (deliverSpeed_tells _ 0)

theorem takeEdge_tells (s : State) (k : Nat) : Tells s (s.takeEdge k) := .iteThen (setInp_tells s _) (deliverSpeed_tells _ _)

theorem speedEdge_tells (s : State) (k : Nat) : Tells s (s.speedEdge k) :=
  .trans (.ite (speedOverflow_tells s) .refl) (takeEdge_tells _ k)

end Sys2Proof.Machine
end

section
/-! Body-line events tell the window what they change: the cell of their line, and the slot words of an accepted frame (02, R37, R43,
R45; 06, R125). -/

namespace Sys2Proof.Machine

/-- An event of a line offers the words of its cell; those of the slots that it names come before them. -/
theorem commitLine_tells (s : State) {u : LineUnit} {l : Line} {w : List Nat} (hw : ∀ o ∈ w, isImageOffset o = true)
    (hl : ∀ m, m ≠ l.toFin → u.lines.get m = s.rx.lines.get m)
    (he : ∀ k : Fin 2, (Place.ever k).off ∉ w → u.everWord (32 * k.val) = s.rx.everWord (32 * k.val))
    (ha : ∀ k : Fin 32, (Place.arrival k).off ∉ w → u.arrivalWord k.val = s.rx.arrivalWord k.val) :
    Tells s (s.commitLine u l w) := by
  unfold State.commitLine
  refine .trans ?_ (reportChange_tells _ _ _)
  refine offerChanged_tells rfl id (fun o ho => ?_) fun p hp => ?_
  · exact (List.mem_append.mp ho).elim (hw o) (lineOffsets_image _ o)
  · have ⟨hp1, hp2⟩ := not_or.mp (fun h => hp (List.mem_append.mpr h))
    cases p with
    | line m k => exact congrArg (lineWord · k.val) (hl m fun e => hp2 (e ▸ mem_lineOffsets m k))
    | ever k => exact he k hp1
    | arrival k => exact ha k hp1
    | _ => exact wordAt_setRx s u nofun nofun nofun

theorem put_other (u : LineUnit) {l : Line} (x : LineRx) {m : Fin 3} (h : m ≠ l.toFin) : (u.put l x).lines.get m = u.lines.get m :=
  Table.get_set_ne _ (Ne.symm h) x

/-- An event that replaces one line and no slot. -/
theorem commitLine_put_tells (s : State) {u : LineUnit} {l : Line} {x : LineRx} (hl : u.lines = (s.rx.put l x).lines)
    (hs : u.slots = s.rx.slots) : Tells s (s.commitLine u l []) := by
  refine commitLine_tells s (fun _ h => absurd h List.not_mem_nil) (fun m hm => ?_) (fun k _ => ?_) fun k _ => ?_
  · rw [hl]
    exact put_other _ x hm
  · unfold LineUnit.everWord
    rw [hs]
  · unfold LineUnit.arrivalWord
    rw [hs]

theorem commitLine_released_tells (s : State) (l : Line) (x : LineRx) : Tells s (s.commitLine ((s.rx.put l x).release l) l []) :=
  commitLine_put_tells s (release_lines ..) (release_slots ..)

theorem commitLine_kept_tells (s : State) (l : Line) (x : LineRx) : Tells s (s.commitLine (s.rx.put l x) l []) :=
  commitLine_put_tells s rfl rfl

theorem lineWord_congr {a b : LineRx} (hs : a.state = b.state) (hh : a.hunting = b.hunting) (hc : a.counts = b.counts) (k : Nat) :
    lineWord a k = lineWord b k := by
  unfold lineWord
  rw [hs, hh, hc]

/-- A line whose state, hunting flag and counts stand shows the same words. -/
theorem setRx_tells (s : State) {u : LineUnit} (l : Line) {x : LineRx} (hl : u.lines = (s.rx.put l x).lines)
    (hu : u.slots = s.rx.slots) (hs : x.state = (s.line l).state) (hh : x.hunting = (s.line l).hunting)
    (hc : x.counts = (s.line l).counts) : Tells s (s.setRx u) := by
  refine .replaced rfl id fun p _ => ?_
  cases p with
  | line m k =>
    show lineWord (u.lines.get m) k.val = _
    rw [hl]
    by_cases hm : m = l.toFin
    · subst hm
      exact (congrArg (lineWord · k.val) (Table.get_set_self ..)).trans (lineWord_congr hs hh hc _)
    · exact congrArg (lineWord · k.val) (put_other _ x hm)
  | ever k =>
    show u.everWord _ = s.rx.everWord _
    unfold LineUnit.everWord
    rw [hu]
  | arrival k =>
    show u.arrivalWord _ = s.rx.arrivalWord _
    unfold LineUnit.arrivalWord
    rw [hu]
  | _ => exact wordAt_setRx s u nofun nofun nofun

theorem falseStart_tells (s : State) (l : Line) : Tells s (s.falseStart l) := by
  have lines (u : LineUnit) : (if u.firstChar = true then u.release l else u).lines = u.lines := by
    split
    · exact release_lines ..
    · rfl
  have slots (u : LineUnit) : (if u.firstChar = true then u.release l else u).slots = u.slots := by
    split
    · exact release_slots ..
    · rfl
  exact setRx_tells s l (lines _) (slots _) rfl rfl rfl

theorem startEdge_tells (s : State) (l : Line) : Tells s (s.startEdge l) := by
  unfold State.startEdge
  refine .ite (.ite .refl ?_) (.ite ?_ (.ite .refl ?_))
  · exact setRx_tells s l rfl rfl rfl rfl rfl
  · exact setRx_tells s l rfl rfl rfl rfl rfl
  · exact commitLine_put_tells s rfl rfl

/-! ## Accepted frames (R37 to R39) -/

theorem deliverSlot_tells (s : State) (i : Fin 64) : Tells s (s.deliverSlot i) := by
  refine .forEach (fun t n => ?_) _ s
  split
  · exact .ite (deliver_tells t n _) .refl
  all_goals exact .refl

theorem offArrival_off (i : Fin 64) : offArrival i = (Place.arrival ⟨i.val / 2, by omega⟩).off := rfl

theorem offEver_off (i : Fin 64) : offEver i = (Place.ever ⟨i.val / 32, by omega⟩).off := by
  show (if i.val < 32 then 0x0760 else 0x0764) = 0x0760 + 4 * (i.val / 32)
  split <;> omega

theorem slotOffsets_image (i : Fin 64) : ∀ o ∈ [offArrival i, offEver i], isImageOffset o = true := fun o ho => by
  rcases List.mem_cons.mp ho with rfl | h
  · exact isImageOffset_off (.arrival ⟨i.val / 2, by omega⟩)
  · rw [List.mem_singleton.mp h, offEver_off]
    exact isImageOffset_off _

/-- The slots beside one that changes: what a table lookup finds by number. -/
theorem get?_modify_ne (t : Table 64 Slot) {i : Fin 64} {k : Nat} (h : k ≠ i.val) (f : Slot → Slot) :
    (t.modify i f).get? k = t.get? k := by
  by_cases hk : k < 64
  · rw [get?_val _ ⟨k, hk⟩, get?_val _ ⟨k, hk⟩, Table.get_modify_ne _ fun e => h (congrArg Fin.val e).symm]
  · have out (t : Table 64 Slot) : t.get? k = none := List.getElem?_eq_none (by rw [t.size]; omega)
    rw [out, out]

theorem everWord_modify (u : LineUnit) {i : Fin 64} {k : Fin 2} (h : (Place.ever k).off ≠ offEver i) (f : Slot → Slot) :
    LineUnit.everWord { u with slots := u.slots.modify i f } (32 * k.val) = u.everWord (32 * k.val) := by
  have hk : k.val ≠ i.val / 32 := fun e => h ((offEver_off i).trans (congrArg (fun x => 0x0760 + 4 * x) e.symm)).symm
  refine BitVec.eq_of_getLsbD_eq fun j hj => ?_
  rw [everWord_getLsbD _ _ hj, everWord_getLsbD _ _ hj, get?_modify_ne _ (by omega)]

theorem arrivalWord_modify (u : LineUnit) {i : Fin 64} {k : Fin 32} (h : (Place.arrival k).off ≠ offArrival i) (f : Slot → Slot) :
    LineUnit.arrivalWord { u with slots := u.slots.modify i f } k.val = u.arrivalWord k.val := by
  have hk : k.val ≠ i.val / 2 := fun e => h (congrArg (fun x => 0x0780 + 4 * x) e)
  unfold LineUnit.arrivalWord
  rw [get?_modify_ne _ (by omega), get?_modify_ne _ (by omega)]

/-- The words of a slot that an accepted frame changes are the arrival word and the ever-received word of that slot. -/
theorem acceptFrame_tells (s : State) (l : Line) (x : LineRx) : Tells s (s.acceptFrame l x) := by
  unfold State.acceptFrame
  split
  · exact commitLine_released_tells s l _
  · next i _ =>
    refine .ite ?_ (commitLine_released_tells s l _)
    refine .trans ?_ (deliverSlot_tells _ i)
    have hslots (y : LineRx) : ((s.rx.put l y).release l).slots = s.rx.slots := release_slots ..
    refine commitLine_tells s (slotOffsets_image i) (fun m hm => ?_) (fun k hk => ?_) fun k hk => ?_
    · exact (congrArg (·.get m) (release_lines ..)).trans (put_other _ _ hm)
    · refine (everWord_modify _ (fun e => hk (e ▸ List.mem_cons_of_mem _ List.mem_cons_self)) _).trans ?_
      unfold LineUnit.everWord
      rw [hslots]
    · refine (arrivalWord_modify _ (fun e => hk (e ▸ List.mem_cons_self)) _).trans ?_
      unfold LineUnit.arrivalWord
      rw [hslots]

theorem takeCharacter_tells (s : State) (l : Line) (x : LineRx) (b : Byte) : Tells s (s.takeCharacter l x b) := by
  unfold State.takeCharacter
  dsimp only
  split
  · exact .ite (commitLine_released_tells s l _) (commitLine_kept_tells s l _)
  · exact commitLine_kept_tells s l _
  · exact .ite (acceptFrame_tells s l _) (commitLine_released_tells s l _)
  · exact .refl
  · exact .refl

theorem character_tells (s : State) (l : Line) (c : CharSamples) : Tells s (s.character l c) := by
  unfold State.character
  dsimp only
  refine .ite ?_ (.ite (commitLine_released_tells s l _) (.ite (commitLine_released_tells s l _)
    (.ite (commitLine_released_tells s l _) (takeCharacter_tells s l _ _))))
  split
  · exact commitLine_kept_tells s l _
  · exact commitLine_put_tells s rfl rfl

theorem takeBreak_tells (s : State) (l : Line) : Tells s (s.takeBreak l) := commitLine_released_tells s l _

theorem setBroken_tells (s : State) (l : Line) (b : Bool) : Tells s (s.setBroken l b) := commitLine_kept_tells s l _

theorem takeGap_tells (s : State) (l : Line) : Tells s (s.takeGap l) := commitLine_released_tells s l _

theorem takeSilence_tells (s : State) (l : Line) : Tells s (s.takeSilence l) := commitLine_kept_tells s l _

/-- The line statistics region: the 64 words from 0x0700 on. -/
theorem mem_statistics {k : Nat} (h : k < 64) : 0x0700 + 4 * k ∈ (List.range 64).map fun k => 0x0700 + 4 * k :=
  List.mem_map_of_mem (List.mem_range.mpr h)

theorem clearStats_tells (s : State) : Tells s s.clearStats := by
  refine offerChanged_tells rfl id (fun o ho => ?_) fun p hp => ?_
  · obtain ⟨k, hk, rfl⟩ := List.mem_map.mp ho
    have := List.mem_range.mp hk
    exact (isImageOffset_iff _).mpr (by omega)
  · have out (k : Nat) (h : k < 64) : p.off ≠ 0x0700 + 4 * k := fun e => hp (e ▸ mem_statistics h)
    cases p with
    | line l k => exact absurd (by simp only [Place.off, offLine]; omega) (out (8 * l.val + k.val) (by omega))
    | ever k => exact absurd (by simp only [Place.off]; omega) (out (24 + k.val) (by omega))
    | arrival k => exact absurd (by simp only [Place.off]; omega) (out (32 + k.val) (by omega))
    | _ => exact wordAt_setRx s _ nofun nofun nofun

end Sys2Proof.Machine
end

section
/-! Commands, the memory controller and the service unit tell the window what they change (06, R130; 11, R187; 09). -/

namespace Sys2Proof.Machine

/-! ## Replacements of the controller and of the fault memory's queue -/

/-- An operation that is no read of the START sequence. -/
def Operation.notStart : Operation → Prop
  | .startProfileRead | .startCountersRead | .startSlotsRead => False
  | .none | .restartRead | .slotWrite _ _ _ _ | .countersWrite _ _ | .storeRead _ _ _ | .storeWrite _ _ _ _ _ | .storeAbort _ => True

theorem not_starting {s : State} (hr : s.mode.inReset = false) (h : s.ctrl.operation.notStart) : ¬ s.starting := by
  rintro (e | e | e | e)
  · exact absurd (hr.symm.trans e) nofun
  all_goals
    rw [e] at h
    exact h

/-- The controller takes an operation that is no read of the START sequence. -/
theorem operation_tells (s : State) {c : Controller} (h : c.operation.notStart) : Tells s (s.setCtrl c) := by
  refine .replaced rfl (fun x => x.imp_right fun e => ?_) fun p _ => by cases p <;> rfl
  rcases e with e | e | e
  all_goals
    change c.operation = _ at e
    rw [e] at h
    exact h.elim

/-- The controller keeps its operation. -/
theorem setCtrl_tells (s : State) {c : Controller} (h : c.operation = s.ctrl.operation) : Tells s (s.setCtrl c) := by
  refine .replaced rfl (fun x => ?_) fun p _ => by cases p <;> rfl
  unfold State.starting at x ⊢
  rwa [← h]

/-- What the window shows of the fault memory. -/
def FaultMemory.shown (f : FaultMemory) := (f.records, f.overflow, f.full, f.clearing)

theorem setFm_tells (s : State) {f : FaultMemory} (h : f.shown = s.fm.shown) : Tells s (s.setFm f) := by
  simp only [FaultMemory.shown, Prod.mk.injEq] at h
  obtain ⟨hr, ho, hf, hc⟩ := h
  refine .replaced rfl id fun p _ => ?_
  cases p with
  | record i k => exact congrArg (fun t => recordWord (t.get i) k.val) hr
  | countB => exact congrArg (fun x : BitVec 16 => field 0 s.path.overruns.toNat ||| field 16 x.toNat) ho
  | status => simp only [State.wordAt, State.statusWord, State.setFm_fm, hf, hc]; rfl
  | _ => exact wordAt_setFm s f nofun nofun nofun

/-! ## The ranks (R187) -/

theorem takeSlot_tells (s : State) : Tells s s.takeSlot := by
  unfold State.takeSlot
  split
  · exact .refl
  · exact (setFm_tells s (by rfl)).trans (operation_tells _ (by trivial))

theorem nextWork_tells (s : State) : Tells s s.nextWork := by
  unfold State.nextWork
  refine .ite ?_ .refl
  split
  · exact operation_tells s (by trivial)
  all_goals exact .ite (operation_tells s (by trivial)) (.ite (operation_tells s (by trivial)) (takeSlot_tells s))

theorem serveReader_tells (s : State) : Tells s s.serveReader := by
  unfold State.serveReader
  split
  · exact .ite (operation_tells s (by trivial)) .refl
  all_goals exact .refl

theorem takeWork_tells (s : State) : Tells s s.takeWork := (nextWork_tells s).trans (serveReader_tells _)

theorem workAndFlush_tells (s : State) : Tells s s.workAndFlush :=
  ((takeWork_tells s).trans (checkFlush_tells _)).trans (takeWork_tells _)

/-! ## The end of a command (R130) -/

theorem finishCommand_tells (s : State) (v : ResultValue) (r : Reason) : Tells s (s.finishCommand v r) := by
  refine .trans ?_ (setCause_tells _ _)
  refine offer_tells (p := .result) rfl id fun q hq => ?_
  cases q with
  | result => exact absurd rfl hq
  | _ => rfl

theorem refuse_tells (s : State) (r : Reason) : Tells s (s.refuse r) := finishCommand_tells ..

theorem complete_tells (s : State) : Tells s s.complete := finishCommand_tells ..

theorem inProgress_tells (s : State) : Tells s s.inProgress := by
  refine offer_tells (p := .result) rfl id fun q hq => ?_
  cases q with
  | result => exact absurd rfl hq
  | _ => rfl

/-! ## Fault slots, the clear, and the counters block -/

theorem excluded_notStart_or (o : Operation) : o.excluded = o ∨ o.excluded.notStart := by
  cases o with
  | slotWrite => exact .inr trivial
  | _ => exact .inl rfl

theorem takeClear_tells (s : State) (who : Requester) : Tells s (s.takeClear who) := by
  refine .trans ?_ (commitFaults_tells _ .all)
  rcases excluded_notStart_or s.ctrl.operation with h | h
  · exact setCtrl_tells s h
  · exact operation_tells s h

theorem endClear_tells (s : State) : Tells s s.endClear := by
  unfold State.endClear
  refine .ite (.iteThen (offerStatus_tells rfl id fun p hp => ?_) (complete_tells _)) .refl
  cases p with
  | status => exact absurd rfl hp
  | _ => rfl

theorem writePage_tells (s : State) (page : Nat) (bytes : List Byte) : Tells s (s.writePage page bytes) :=
  .trans (t := s.setCfg (writeBytes Config.cfgErased s.cfg (64 * page) bytes))
    (.replaced rfl id fun p _ => by cases p <;> rfl) (setCtrl_tells _ rfl)

theorem slotWritten_tells (s : State) (i : Fin 32) (counts : Bool) : Tells s (s.slotWritten i counts) :=
  .trans (.iteThen (operation_tells s (by trivial)) (setFm_tells _ (by rfl))) (endClear_tells _)

theorem slotWriteDone_tells (s : State) (i : Fin 32) (snapshot : List Byte) (retried counts : Bool) (o : PageOutcome) :
    Tells s (s.slotWriteDone i snapshot retried counts o) := by
  unfold State.slotWriteDone
  have page := writePage_tells s (slotPageNo i) (writtenBytes snapshot o)
  have done := page.trans (slotWritten_tells _ i counts)
  exact .ite done (.ite (done.trans (momentary_tells _ _)) (page.trans (operation_tells _ (by trivial))))

theorem countersWriteDone_tells (s : State) (snapshot : List Byte) (retried : Bool) (o : PageOutcome) :
    Tells s (s.countersWriteDone snapshot retried o) := by
  unfold State.countersWriteDone
  have page := writePage_tells s countersPageNo (writtenBytes snapshot o)
  have done := page.trans (operation_tells _ (h := by trivial) (c := { (s.writePage countersPageNo (writtenBytes snapshot o)).ctrl with
    operation := .none }))
  exact .ite done (.ite (done.trans (momentary_tells _ _)) (page.trans (operation_tells _ (by trivial))))

theorem validateStore_tells (s : State) : Tells s s.validateStore :=
  .ite (setCtrl_tells s (by rfl)) ((setCtrl_tells s (by rfl)).trans (refuse_tells _ _))

theorem abortStore_tells (s : State) : Tells s s.abortStore :=
  ((operation_tells s (by trivial)).trans (refuse_tells _ _)).trans (momentary_tells _ _)

/-! ## The commands that a code begins (R131) -/

theorem beginClearFaults_tells (s : State) : Tells s s.beginClearFaults :=
  .ite (refuse_tells s _) (.ite (refuse_tells s _) (((inProgress_tells s).trans (takeClear_tells _ _)).trans (takeWork_tells _)))

theorem beginStore_tells (s : State) : Tells s s.beginStore := .ite ((inProgress_tells s).trans (setCtrl_tells _ rfl)) (refuse_tells s _)

theorem beginReload_tells (s : State) : Tells s s.beginReload :=
  .ite (((inProgress_tells s).trans (setCtrl_tells _ (by rfl))).trans (takeWork_tells _)) (refuse_tells s _)

theorem beginClearCauses_tells (s : State) : Tells s s.beginClearCauses :=
  .ite (refuse_tells s _) ((offerStatus_setMode_tells s (by rfl)).trans (complete_tells _))

theorem beginClearStats_tells (s : State) : Tells s s.beginClearStats :=
  .ite (refuse_tells s _) ((clearStats_tells s).trans (complete_tells _))

theorem beginPark_tells (s : State) : Tells s s.beginPark :=
  .ite (((enterParking_tells s).trans (complete_tells _)).trans (takeWork_tells _)) (refuse_tells s _)

theorem beginCommand_tells (s : State) (code : Byte) : Tells s (s.beginCommand code) := by
  unfold State.beginCommand
  split
  · exact beginClearFaults_tells s
  · exact beginStore_tells s
  · exact beginReload_tells s
  · exact beginClearCauses_tells s
  · exact beginClearStats_tells s
  · exact beginPark_tells s
  · exact refuse_tells s _

/-! ## The service unit (09) -/

/-- What the window shows of the service unit. -/
def ServiceUnit.shown (x : ServiceUnit) := (x.testerActive, x.level, x.test)

theorem setSvc_tells (s : State) {x : ServiceUnit} (h : x.shown = s.svc.shown) : Tells s (s.setSvc x) := by
  simp only [ServiceUnit.shown, Prod.mk.injEq] at h
  obtain ⟨ha, hl, ht⟩ := h
  refine .replaced rfl id fun p _ => ?_
  cases p with
  | status => simp only [State.wordAt, State.statusWord, State.setSvc_svc, ha, hl, ht]; rfl
  | _ => exact wordAt_setSvc s x nofun

theorem testerSeen_tells (s : State) : Tells s s.testerSeen := by
  unfold State.testerSeen
  dsimp only
  split
  · next h => exact setSvc_tells s (congrArg (·, s.svc.level, s.svc.test) h.symm)
  · exact (offerStatus_setSvc_tells s _).trans (setCause_tells _ _)

theorem reply_tells (s : State) (tester : Byte) (body : List Byte) : Tells s (s.reply tester body) := setSvc_tells s rfl

theorem setChime_tells (s : State) (c : Chime) : Tells s (s.setChime c) := .of (setChime_evolves s c) (by decide)

theorem sweepCompletion_tells (s : State) : Tells s s.sweepCompletion := .ite (endTest_tells s _) .refl

theorem startTest_tells (s : State) (k : TestKind) (duration : Nat) : Tells s (s.startTest k duration) := by
  unfold State.startTest
  dsimp only
  split
  · exact offerStatus_setSvc_tells s _
  · exact (offerStatus_setSvc_tells s _).trans (evalAllLamps_tells _)
  · exact ((offerStatus_setSvc_tells s _).trans (.forEach enterSweep_tells _ _)).trans (sweepCompletion_tells _)
  · exact (offerStatus_setSvc_tells s _).trans (setChime_tells _ _)

theorem outputTest_tells (s : State) (params : List Byte) : Tells s (s.outputTest params).1 := by
  unfold State.outputTest
  split
  · exact .refl
  · split
    · exact .refl
    · split
      · exact .refl
      · exact startTest_tells s _ _

theorem stopTest_tells (s : State) : Tells s s.stopTest.1 := by
  unfold State.stopTest
  split
  · exact .refl
  · exact endTest_tells s _

theorem clearRequest_tells (s : State) : Tells s s.clearRequest.1 := by
  unfold State.clearRequest
  split
  · exact .refl
  · split
    · exact .refl
    · split
      · exact .refl
      · exact (takeClear_tells s _).trans (takeWork_tells _)

theorem perform_tells (s : State) (r : Request) (params : List Byte) : Tells s (s.perform r params).1 := by
  cases r with
  | clearFaults => exact clearRequest_tells s
  | outputTest => exact outputTest_tells s params
  | stopTest => exact stopTest_tells s
  | readFreeze =>
    unfold State.perform
    dsimp only
    split <;> exact .refl
  | readLines =>
    unfold State.perform
    dsimp only
    split <;> exact .refl
  | _ => exact .refl

theorem judgeRequest_tells (s : State) (code : Byte) (params : List Byte) : Tells s (s.judgeRequest code params).1 := by
  unfold State.judgeRequest
  split
  · exact .refl
  · split
    · exact .refl
    · split
      · exact .refl
      · exact perform_tells s _ params

theorem takeRequestFrame_tells (s : State) (functional : Bool) (tester code : Byte) (params : List Byte) :
    Tells s (s.takeRequestFrame functional tester code params) := by
  unfold State.takeRequestFrame
  split
  · split
    · exact (testerSeen_tells s).trans (reply_tells _ _ _)
    · exact testerSeen_tells s
  · exact ((judgeRequest_tells s code params).trans (testerSeen_tells _)).trans (reply_tells _ _ _)

theorem frameComplete_tells (s : State) (frame : List Byte) : Tells s (s.frameComplete frame) := by
  have idle : Tells s (s.setSvc s.svc.idle) := setSvc_tells s rfl
  exact .ite (.ite (idle.trans (takeRequestFrame_tells _ _ _ _ _)) (.ite (idle.trans (takeRequestFrame_tells _ _ _ _ _)) idle)) idle

theorem firstCharacter_tells (s : State) (c : ServiceChar) : Tells s (s.firstCharacter c) := .ite (setSvc_tells s rfl) (setSvc_tells s rfl)

theorem laterCharacter_tells (s : State) (c : ServiceChar) : Tells s (s.laterCharacter c) :=
  .ite (setSvc_tells s rfl) (.ite (setSvc_tells s rfl) (.ite (frameComplete_tells s _) (setSvc_tells s rfl)))

theorem serviceCharacter_tells (s : State) (c : ServiceChar) : Tells s (s.serviceCharacter c) := by
  unfold State.serviceCharacter
  refine .ite ?_ .refl
  split
  · exact .ite (setSvc_tells s rfl) (firstCharacter_tells s c)
  · exact .ite (firstCharacter_tells s c) (laterCharacter_tells s c)
  · exact setSvc_tells s rfl
  · exact .refl

theorem serviceWake_tells (s : State) : Tells s s.serviceWake := (wake_tells s _).trans (setSvc_tells _ rfl)

theorem serviceEdge_tells (s : State) : Tells s s.serviceEdge := by
  unfold State.serviceEdge
  refine .ite (serviceWake_tells s) ?_
  split
  · exact .ite (setSvc_tells s rfl) .refl
  · exact setSvc_tells s rfl
  · exact setSvc_tells s rfl
  · exact .refl

theorem requestFrame_tells (s : State) (r : Request) (target : Target) (tester : Byte) (params : List Byte) :
    Tells s (s.requestFrame r target tester params) := by
  unfold State.requestFrame
  refine .ite (.trans (serviceEdge_tells s) ?_) (.ite ?_ .refl)
  · dsimp only
    split
    · exact setSvc_tells _ rfl
    · exact .refl
    · exact .refl
    · exact setSvc_tells _ rfl
    · exact .ite (frameComplete_tells _ _) (setSvc_tells _ rfl)
    · exact .ite (frameComplete_tells _ _) (setSvc_tells _ rfl)
  · exact ((serviceWake_tells s).trans (setSvc_tells _ (by rfl))).trans (takeWork_tells _)

theorem readBack_tells (s : State) (c : ServiceChar) : Tells s (s.readBack c) := by
  unfold State.readBack
  split
  · exact .ite (.ite (setSvc_tells s rfl) (setSvc_tells s rfl)) (setSvc_tells s rfl)
  · exact .refl
  · exact .refl

theorem testerExpiry_tells (s : State) : Tells s s.testerExpiry := (offerStatus_setSvc_tells s _).trans (setCause_tells _ _)

/-! ## Doors, telltales and supervision at their expiries -/

theorem failDoor_tells (s : State) (d : Fin 6) (c : DoorCause) : Tells s (s.failDoor d c) :=
  (commitDoor_tells s d _).trans (takeWork_tells _)

theorem setLamp_tells (s : State) (t : Fin 48) (l : Lamp) : Tells s (s.setLamp t l) := .of (setLamp_evolves s t l) (by decide)

theorem withLamps_tells (s : State) (lamps : Table 48 Lamp) (b : Blink) : Tells s (s.withLamps lamps b) :=
  .of (withLamps_evolves s lamps b) (by decide)

theorem endBlinkPhase_tells (s : State) : Tells s s.endBlinkPhase := by
  unfold State.endBlinkPhase
  split
  · exact .refl
  · exact withLamps_tells s _ _
  · exact withLamps_tells s _ _

theorem senseChange_tells (s : State) (t : Fin 48) (o : Bool) : Tells s (s.senseChange t o) :=
  .ite .refl (.ite (setLamp_tells s t _) (setLamp_tells s t _))

theorem openLoadExpiry_tells (s : State) (t : Fin 48) : Tells s (s.openLoadExpiry t) :=
  .ite (setLamp_tells s t _) ((setLamp_tells s t _).trans (appear_tells _ _))

theorem clearExpiry_tells (s : State) (t : Fin 48) : Tells s (s.clearExpiry t) :=
  .ite ((setLamp_tells s t _).trans (disappear_tells _ _)) (setLamp_tells s t _)

theorem endTone_tells (s : State) : Tells s s.endTone := by
  unfold State.endTone
  split
  · exact (setChime_tells s _).trans (evalChime_tells _)
  · exact setChime_tells s _
  all_goals exact .refl

theorem endRepeatPeriod_tells (s : State) : Tells s s.endRepeatPeriod := by
  unfold State.endRepeatPeriod
  split
  · exact setChime_tells s _
  all_goals exact .refl

theorem endChimePhase_tells (s : State) : Tells s s.endChimePhase := by
  unfold State.endChimePhase
  split
  · exact .refl
  · exact setChime_tells s _
  · exact setChime_tells s _
  · exact endTest_tells s _

theorem enterLost_tells (s : State) : Tells s s.enterLost := (commitSup_tells s _).trans (takeWork_tells _)

end Sys2Proof.Machine
end

section
/-! Host accesses, captured writes and the image writer: what they store lies beside the image words or is the word that the owners
compose, so that no read finds another word (06, R119 to R129). -/

namespace Sys2Proof.Machine

/-! ## Stores beside the image words (R119, R121) -/

/-- A word address that no image word shares. -/
def State.beside (s : State) (a : Nat) : Prop :=
  ∀ o, isImageOffset o = true → a + 4 ≤ s.windowAddr o ∨ s.windowAddr o + 4 ≤ a

/-- A window offset that is no image word's. -/
theorem beside_window (s : State) {off : Nat} (h4 : off % 4 = 0) (hn : ¬ isImageOffset off = true) : s.beside (s.windowAddr off) := by
  intro o ho
  obtain ⟨k4, -⟩ := (isImageOffset_iff o).mp ho
  have hne : o ≠ off := fun e => hn (e ▸ ho)
  unfold State.windowAddr
  omega

theorem windowBase_aligned (k : BitVec 2) : Config.windowBase k % 4 = 0 := by
  have := k.isLt
  unfold Config.windowBase
  omega

/-- A word address outside the window. -/
theorem beside_outside {s : State} {a : BitVec 22} (h : s.windowOffset a = none) : s.beside (a.toNat * 4) := by
  intro o ho
  obtain ⟨-, ho⟩ := (isImageOffset_iff o).mp ho
  have hout : ¬ (Config.windowBase s.path.straps ≤ a.toNat * 4 ∧
      a.toNat * 4 < Config.windowBase s.path.straps + Config.windowSize) := fun e => by
    unfold State.windowOffset at h
    dsimp only at h
    rw [if_pos e] at h
    exact absurd h nofun
  unfold Config.windowSize at hout
  have := windowBase_aligned s.path.straps
  unfold State.windowAddr
  omega

/-- The offset of a word address inside the window lies on a word boundary. -/
theorem windowOffset_aligned {s : State} {a : BitVec 22} {off : Nat} (h : s.windowOffset a = some off) : off % 4 = 0 := by
  have hb := windowBase_aligned s.path.straps
  unfold State.windowOffset at h
  dsimp only at h
  split at h
  · have := Option.some.inj h
    omega
  · exact absurd h nofun

/-- A word stored beside the image words is found by no read of them. -/
theorem writeSram_tells (s : State) {a : Nat} (h : s.beside a) (w : Word) (lanes : BitVec 4) : Tells s (s.writeSram a w lanes) where
  shows D hs := by
    have st : StoresWord Config.sramErased s.sram (s.writeSram a w lanes).sram a w lanes := writeLanes_stores hs.memory a w lanes
    have sram {o : Nat} (ho : isImageOffset o = true) : (s.writeSram a w lanes).sramWord (s.windowAddr o) = s.sramWord (s.windowAddr o) :=
      sramWord_beside st (h o ho)
    have image {o : Nat} (ho : isImageOffset o = true) : (s.writeSram a w lanes).imageWord o = s.imageWord o :=
      imageWord_of_keeps (writeSram_evolves s a w lanes).keeps (by decide) ho
    refine ⟨hs.places, fun e he => ?_, hs.waiting, writeLanes_wf hs.memory a w lanes, fun o ho hd => ?_⟩
    · obtain ⟨hi, hw⟩ := hs.written e he
      exact ⟨hi, (sram hi).trans hw⟩
    · rw [image ho, ← hs.latest o ho fun d => hd (.inl d)]
      exact latestWord_congr rfl .rfl (fun _ => image ho) (sram ho)
  starting := id
  windowOpen := rfl
  awaited := rfl

/-- The P-port holds another access: a forwarded write among them goes beside the image words. -/
theorem hold_tells (s : State) {x : Option HeldAccess}
    (h : ∀ a w lanes, x = some (.forwarded (.write a w lanes)) → s.beside a) :
    Tells s (s.setPath { s.path with held := x }) where
  shows _ hs :=
    { places := hs.places
      written := hs.written
      waiting := h
      memory := hs.memory
      latest := fun o hi hd => by
        have image : (s.setPath { s.path with held := x }).imageWord o = s.imageWord o :=
          imageWord_of_keeps (setHeld_evolves s x).keeps (by decide) hi
        rw [image, ← hs.latest o hi fun d => hd (.inl d)]
        exact latestWord_congr rfl .rfl (fun _ => image) rfl }
  starting := id
  windowOpen := rfl
  awaited := rfl

theorem release_tells (s : State) : Tells s (s.setPath { s.path with held := none }) := hold_tells s nofun

theorem answer_tells (s : State) (w : Word) : Tells s (s.answer w) := .of (answer_evolves s w) (by decide)

theorem forwardRead_tells (s : State) (w : Word) : Tells s (s.forward (.read w)) := .ite (answer_tells s w) (hold_tells s nofun)

theorem forwardWrite_tells (s : State) {a : Nat} (h : s.beside a) (w : Word) (lanes : BitVec 4) :
    Tells s (s.forward (.write a w lanes)) :=
  .ite (writeSram_tells s h w lanes) (hold_tells s fun _ _ _ e => by cases e; exact h)

theorem forwardWord_tells (s : State) {off : Nat} (h4 : off % 4 = 0) (hn : ¬ isImageOffset off = true) (w : Word) :
    Tells s (s.forwardWord off w) := forwardWrite_tells s (beside_window s h4 hn) w 0xF

/-- A forwarded write that waits goes beside the image words, so its grant may come at any time (R129). -/
theorem grantForwarded_tells (s : State) : Tells s s.grantForwarded := by
  have k := (grantForwarded_evolves s).keeps
  refine ⟨fun D hs => ?_, starting_of_keeps k (by decide), k .window (by decide), congrArg Option.isSome (k .awaited (by decide))⟩
  have served : Tells s s.grantForwarded := by
    unfold State.grantForwarded
    split
    · next a ha =>
      refine .ite ((release_tells s).trans ?_) .refl
      cases a with
      | read w => exact answer_tells _ w
      | write a w lanes => exact writeSram_tells (s.setPath { s.path with held := none }) (hs.waiting a w lanes ha) w lanes
    all_goals exact .refl
  exact served.shows D hs

/-! ## Host reads (R119, R120, R133) -/

/-- An armed warning shows the same word and the same place in the list. -/
theorem arm_tells (s : State) (w : Fin 96) : Tells s (s.arm w) := by
  refine .ite (.replaced rfl id fun p _ => ?_) .refl
  have rows : SameRows s (s.setWarn { s.warn with rows := s.warn.rows.modify w (fun x => { x with armed := true }) }) := fun i => by
    by_cases hi : w = i
    · subst hi
      simp only [State.setWarn_warn, Table.get_modify_self, and_self]
    · simp only [State.setWarn_warn, Table.get_modify_ne _ hi, and_self]
  cases p with
  | warning i => exact rows.warningWord i
  | display k => exact rows.displayWord rfl k.val
  | countA => rfl
  | _ => exact wordAt_setWarn s _ nofun nofun nofun

theorem readImage_tells (s : State) (off : Nat) : Tells s (s.readImage off) := by
  have answered : Tells s (if s.path.atHand off then s.answer (s.latestWord off) else s.forward (.read (s.latestWord off))) :=
    .ite (answer_tells s _) (forwardRead_tells s _)
  unfold State.readImage
  dsimp only
  split
  · exact answered.trans (arm_tells _ _)
  · exact answered

theorem readSummary_tells (s : State) : Tells s s.readSummary := .replaced rfl id fun p _ => by cases p <;> rfl

theorem readOffset_tells (s : State) (off : Nat) : Tells s (s.readOffset off) :=
  .ite (forwardRead_tells s _) (.ite (answer_tells s _) (.ite (readSummary_tells s) (.ite (readImage_tells s off) (forwardRead_tells s _))))

theorem hostRead_tells (s : State) (a : BitVec 22) : Tells s (s.hostRead a) := by
  unfold State.hostRead
  refine .ite ?_ .refl
  split
  · exact forwardRead_tells s _
  · exact readOffset_tells s _

/-! ## Host writes (R119, R121 to R124) -/

theorem violation_tells (s : State) : Tells s s.violation := by
  refine .trans ?_ (setCause_tells _ _)
  refine offerChanged_tells rfl id (fun o ho => ?_) fun p hp => ?_
  · exact List.mem_singleton.mp ho ▸ isImageOffset_off .countA
  · cases p with
    | countA => exact absurd List.mem_cons_self hp
    | _ => rfl

theorem acknowledge_tells (s : State) (w : Fin 96) : Tells s (s.acknowledge w) := commitWarning_tells ..

theorem hostAck_tells (s : State) (w : Fin 96) : Tells s (s.hostAck w) := by
  refine .ite (acknowledge_tells s w) (offerChanged_tells rfl id (fun o ho => ?_) fun p hp => ?_)
  · exact List.mem_singleton.mp ho ▸ isImageOffset_off .countA
  · cases p with
    | countA => exact absurd List.mem_cons_self hp
    | _ => rfl

theorem hostSet_tells (s : State) (w : Fin 96) (b : Bool) : Tells s (s.hostSet w b) := .ite (commitWarning_tells ..) .refl

theorem writeWarning_tells (s : State) (w : Fin 96) (word : Word) : Tells s (s.writeWarning w word) :=
  .ite (hostAck_tells s w) (.ite (.ite (hostSet_tells s w _) (.ite (hostSet_tells s w _) (violation_tells s))) (violation_tells s))

/-- A command code taken or dropped is in no word. -/
theorem setCommand_tells (s : State) (c : Option Byte) : Tells s (s.setPath { s.path with command := c }) :=
  .replaced rfl id fun p _ => by cases p <;> rfl

theorem writeCommand_tells (s : State) (word : Word) : Tells s (s.writeCommand word) := by
  unfold State.writeCommand
  split
  · refine offerChanged_tells rfl id (fun o ho => List.mem_singleton.mp ho ▸ isImageOffset_off .countB) fun p hp => ?_
    cases p with
    | countB => exact absurd List.mem_cons_self hp
    | _ => rfl
  · exact ((forwardWord_tells s (by decide) (by decide) word).trans (setCommand_tells _ _)).trans (beginCommand_tells _ _)

theorem takeRequest_tells (s : State) (upper : Bool) (word : Word) : Tells s (s.takeRequest upper word) := by
  have copied (u : IndicationUnit) (h : u.gauges = s.ind.gauges) : Tells s (s.setInd u) := .replaced rfl id fun p _ => by
    cases p with
    | target g => exact congrArg (fun t => gaugeTargetWord (t.get g)) h
    | actual g => exact congrArg (fun t => gaugeActualWord (t.get g)) h
    | _ => exact wordAt_setInd s u nofun nofun
  refine .trans (copied _ ?_) (Tells.of (evalLamps_evolves _ _) (by decide))
  cases upper <;> rfl

theorem writeRequest_tells (s : State) (upper : Bool) (word : Word) : Tells s (s.writeRequest upper word) := by
  refine .ite .refl ((takeRequest_tells s upper word).trans ?_)
  cases upper
  · exact forwardWord_tells _ (by decide) (by decide) word
  · exact forwardWord_tells _ (by decide) (by decide) word

theorem writeEnable_tells (s : State) (word : Word) : Tells s (s.writeEnable word) :=
  .trans (t := s.setPath { s.path with attnEnable := word.setWidth 10 }) (.replaced rfl id fun p _ => by cases p <;> rfl)
    (forwardWord_tells _ (by decide) (by decide) word)

theorem writeAlive_tells (s : State) (word : Word) : Tells s (s.writeAlive word) :=
  ((aliveWrite_tells s _).trans (forwardWord_tells _ (by decide) (by decide) word)).trans (takeWork_tells _)

theorem writeSignal_tells (s : State) (n : Fin 256) (word : Word) : Tells s (s.writeSignal n word) :=
  .ite (.ite .refl (hold_tells s nofun)) (violation_tells s)

theorem writeGauge_tells (s : State) (g : Fin 12) (word : Word) : Tells s (s.writeGauge g word) :=
  .ite (.ite .refl (hold_tells s nofun)) (violation_tells s)

theorem writeLive_tells (s : State) (off : Nat) (word : Word) : Tells s (s.writeLive off word) :=
  .ite (writeCommand_tells s word) (.ite (writeEnable_tells s word) (writeAlive_tells s word))

theorem writeOwned_tells (s : State) (off : Nat) (word : Word) : Tells s (s.writeOwned off word) := by
  unfold State.writeOwned
  refine .ite ?_ (.ite (writeRequest_tells s _ word) (.ite (writeRequest_tells s _ word) ?_))
  · split
    · exact writeSignal_tells s _ word
    · exact violation_tells s
  · split
    · exact writeWarning_tells s _ word
    · exact writeGauge_tells s _ word
    · exact violation_tells s

/-- What is neither read-only nor owned is no image word. -/
theorem not_image {off : Nat} (hr : ¬ isReadOnly off = true) (ho : ¬ isOwned off = true) : ¬ isImageOffset off = true := fun h => by
  obtain ⟨-, h⟩ := (isImageOffset_iff off).mp h
  simp only [isReadOnly, isOwned, Bool.or_eq_true, Bool.and_eq_true, decide_eq_true_eq] at hr ho
  unfold offResult offSummary at hr
  omega

theorem writeOffset_tells (s : State) {off : Nat} (h4 : off % 4 = 0) (word : Word) (lanes : BitVec 4) :
    Tells s (s.writeOffset off word lanes) := by
  unfold State.writeOffset
  refine .ite (.ite (writeLive_tells s off word) (violation_tells s)) (.ite .refl ?_)
  by_cases hr : isReadOnly off = true
  · rw [if_pos hr]
    exact violation_tells s
  by_cases ho : isOwned off = true
  · rw [if_neg hr, if_pos ho]
    exact .ite (writeOwned_tells s off word) (violation_tells s)
  · rw [if_neg hr, if_neg ho]
    exact .ite (violation_tells s) (forwardWrite_tells s (beside_window s h4 (not_image hr ho)) word lanes)

theorem hostWriteAt_tells (s : State) {off : Nat} (h4 : off % 4 = 0) (word : Word) (lanes : BitVec 4) :
    Tells s (s.hostWriteAt off word lanes) := .ite (writeOffset_tells s h4 word lanes) .refl

theorem hostWrite_tells (s : State) (a : BitVec 22) (word : Word) (lanes : BitVec 4) : Tells s (s.hostWrite a word lanes) := by
  unfold State.hostWrite
  refine .ite ?_ .refl
  split
  · next h => exact forwardWrite_tells s (beside_outside h) word lanes
  · next h => exact writeOffset_tells s (windowOffset_aligned h) word lanes

/-! ## Captured writes (R122) -/

theorem find_filter_other (q : List (Nat × Word)) {off o : Nat} (h : o ≠ off) :
    (q.filter (fun e => e.1 ≠ off)).find? (fun e => e.1 = o) = q.find? (fun e => e.1 = o) := by
  rw [List.find?_filter]
  refine List.find?_congr fun e _ => ?_
  by_cases he : e.1 = o
  · simp [he, h]
  · simp [he]

theorem find_filter_self (q : List (Nat × Word)) (off : Nat) :
    (q.filter (fun e => e.1 ≠ off)).find? (fun e => e.1 = off) = none :=
  List.find?_eq_none.mpr fun _ he hx => of_decide_eq_true (List.mem_filter.mp he).2 (of_decide_eq_true hx)

/-- A word superseded in queue and marks and stored is paid, while no image write is in flight. -/
theorem Owes.supersede {offs : List Nat} {s t : State} {off : Nat} (h : Owes (off :: offs) s t) (hi : isImageOffset off = true)
    (hf : t.path.inFlight = none) : Owes offs s (t.supersede off) where
  shows D hs := by
    have ht := h.shows D hs
    have k := (supersede_evolves off t).keeps
    have st := supersede_stores ht.memory off
    have image {o : Nat} (ho : isImageOffset o = true) : (t.supersede off).imageWord o = t.imageWord o :=
      imageWord_of_keeps k (by decide) ho
    refine ⟨fun o ho => ht.places o ?_, fun e he => ?_, ht.waiting,
      writeLanes_wf ht.memory (t.windowAddr off) (t.imageWord off) 0xF, fun o ho hd => ?_⟩
    · rcases List.mem_append.mp ho with hq | hm
      · obtain ⟨e, he, rfl⟩ := List.mem_map.mp hq
        exact List.mem_append_left _ (List.mem_map_of_mem (List.mem_of_mem_filter he))
      · exact List.mem_append_right _ (List.mem_of_mem_filter hm)
    · exact absurd (hf.symm.trans he) nofun
    · rw [image ho]
      by_cases hoff : o = off
      · subst hoff
        refine (latestWord_stored (s := t.supersede o) (find_filter_self t.path.queue o) fun hc => ?_).trans (sramWord_stored st)
        exact of_decide_eq_true (List.mem_filter.mp hc).2 rfl
      · rw [← ht.latest o ho fun d => d.elim (fun d => hd (.inl d)) fun hm =>
          hd (.inr ((List.mem_cons.mp hm).resolve_left hoff))]
        refine latestWord_congr (find_filter_other _ hoff) ?_ (fun _ => image ho)
          (sramWord_beside st (image_beside t ho hi hoff))
        exact List.mem_filter.trans (and_iff_left (decide_eq_true hoff))
  starting x := h.starting (starting_of_keeps (supersede_evolves off t).keeps (by decide) x)
  windowOpen := h.windowOpen
  awaited := h.awaited

theorem captureSignal_tells (s : State) (hf : s.path.inFlight = none) (n : Fin 256) (word : Word) :
    Tells s (s.captureSignal n word) :=
  .ite (commitSignal_tells s n _ (update_sequence ..) fun _ h => h.supersede (isImageOffset_off (.signal n)) hf)
    (violation_tells s)

theorem captureGauge_tells (s : State) (hf : s.path.inFlight = none) (g : Fin 12) (word : Word) :
    Tells s (s.captureGauge g word) :=
  .ite ((setRequested_owes s g _).supersede (isImageOffset_off (.target g))
    (((setRequested_evolves s g _).keeps .inFlight (by decide)).trans hf)) (violation_tells s)

/-- Marked words that are re-queued are queued as they are composed (R127). -/
theorem requeue_tells (s : State) : Tells s s.requeue where
  shows D hs := by
    have image {o : Nat} (ho : isImageOffset o = true) : s.requeue.imageWord o = s.imageWord o :=
      imageWord_of_keeps (requeue_evolves s).keeps (by decide) ho
    refine ⟨fun o ho => hs.places o (requeue_offsets s ▸ ho), hs.written, hs.waiting, hs.memory, fun o ho hd => ?_⟩
    have hlatest : s.latestWord o = s.imageWord o := hs.latest o ho fun d => hd (.inl d)
    let moved := (s.path.resync.take (Config.calmAt - s.path.queue.length)).map fun o => (o, s.imageWord o)
    have hfind : s.requeue.path.queue.find? (fun e => e.1 = o) =
        (s.path.queue.find? (fun e => e.1 = o)).or (moved.find? (fun e => e.1 = o)) := List.find?_append
    rw [image ho]
    by_cases hm : o ∈ s.path.resync.take (Config.calmAt - s.path.queue.length)
    · cases hq : s.path.queue.find? (fun e => e.1 = o) with
      | some e => exact (latestWord_find (hfind.trans (by rw [hq]; rfl))).trans ((latestWord_find hq).symm.trans hlatest)
      | none =>
        rw [hq, Option.none_or] at hfind
        obtain ⟨e, he⟩ := Option.isSome_iff_exists.mp (List.find?_isSome.mpr
          ⟨(o, s.imageWord o), List.mem_map_of_mem hm, decide_eq_true rfl⟩ : (moved.find? (fun e => e.1 = o)).isSome)
        obtain ⟨x, -, rfl⟩ := List.mem_map.mp (List.mem_of_find?_eq_some he)
        have hx : x = o := of_decide_eq_true (List.find?_some (p := fun e : Nat × Word => decide (e.1 = o)) he)
        rw [latestWord_find (hfind.trans he), hx]
    · have hnone : moved.find? (fun e => e.1 = o) = none := by
        refine find_none fun hc => hm ?_
        obtain ⟨x, hx, rfl⟩ := List.mem_map.mp hc
        obtain ⟨y, hy, rfl⟩ := List.mem_map.mp hx
        exact hy
      rw [← hlatest]
      refine latestWord_congr (hfind.trans (by rw [hnone, Option.or_none])) ?_ (fun _ => image ho) rfl
      conv_rhs => rw [← List.take_append_drop (Config.calmAt - s.path.queue.length) s.path.resync]
      exact (List.mem_append.trans (or_iff_right hm)).symm
  starting := id
  windowOpen := rfl
  awaited := Option.isSome_map

/-- The end of the wait is told for every captured write that is granted, when its capture tells. -/
theorem grantCaptured_tells (s : State) {capture : State → State}
    (h : ∀ t : State, t.path.inFlight = none → Tells t (capture t)) : Tells s (s.grantCaptured capture) := by
  unfold State.grantCaptured
  by_cases hg : s.hostGranted = true
  · rw [if_pos hg]
    have hf : s.path.inFlight = none := ((hostGranted_iff s).mp hg).1
    exact .ite (hold_tells s nofun) (((release_tells s).trans (h _ hf)).trans (requeue_tells _))
  · rw [if_neg hg]
    exact .refl

theorem grantHeld_tells (s : State) : Tells s s.grantHeld := by
  unfold State.grantHeld
  split
  · exact grantCaptured_tells s fun t hf => captureSignal_tells t hf _ _
  · exact grantCaptured_tells s fun t hf => captureGauge_tells t hf _ _
  all_goals exact .refl

/-! ## The image writer (R126) -/

/-- The head entry's word is stored while the entry stands in the queue. -/
theorem grantImage_tells (s : State) : Tells s s.grantImage := by
  unfold State.grantImage
  split
  · next e q hf hq =>
    refine .ite ⟨fun D hs => ?_, id, rfl, rfl⟩ .refl
    have hi : isImageOffset e.1 = true := hs.places e.1 (List.mem_append_left _ (by rw [hq]; exact List.mem_cons_self))
    have st : StoresWord Config.sramErased s.sram (writeLanes s.sram (s.windowAddr e.1) e.2 0xF) (s.windowAddr e.1) e.2 0xF :=
      writeLanes_stores hs.memory _ _ _
    generalize ht : (s.setPath { s.path with inFlight := some e }).writeSram (s.windowAddr e.1) e.2 0xF = t
    have kept : t.path.queue = s.path.queue ∧ t.path.resync = s.path.resync ∧ t.path.inFlight = some e ∧
        t.path.held = s.path.held ∧ t.path.straps = s.path.straps ∧ t.sram = writeLanes s.sram (s.windowAddr e.1) e.2 0xF := by
      subst ht
      exact ⟨rfl, rfl, rfl, rfl, rfl, rfl⟩
    obtain ⟨kq, kr, kf, kh, ks, km⟩ := kept
    have image {o : Nat} (ho : isImageOffset o = true) : t.imageWord o = s.imageWord o := by
      subst ht
      exact imageWord_congr (offs := []) (fun p _ => by cases p <;> rfl) ho List.not_mem_nil
    rw [← km] at st
    refine ⟨by rw [kq, kr]; exact hs.places, fun x hx => ?_, fun a w lanes hw o ho => ?_, ?_, fun o ho hd => ?_⟩
    · cases kf.symm.trans hx
      rw [windowAddr_of_straps ks]
      exact ⟨hi, sramWord_stored st⟩
    · rw [windowAddr_of_straps ks]
      exact hs.waiting a w lanes (kh ▸ hw) o ho
    · rw [km]
      exact writeLanes_wf hs.memory _ _ _
    · rw [image ho, ← hs.latest o ho fun d => hd (.inl d)]
      by_cases hoff : o = e.1
      · have hfind : s.path.queue.find? (fun x => x.1 = o) = some e := by
          rw [hq]
          exact List.find?_cons_of_pos (decide_eq_true hoff.symm)
        rw [latestWord_find hfind, latestWord_find (s := t) (kq ▸ hfind)]
      · refine latestWord_congr (by rw [kq]) (by rw [kr]) (fun _ => image ho) ?_
        rw [windowAddr_of_straps ks]
        exact sramWord_beside st (image_beside s ho hi hoff)
  all_goals exact .refl

end Sys2Proof.Machine
end

section
/-! Resets, the START sequence, image initialisation and the profile restart: the window is closed until every image word is marked or
queued as its owner composes it (06, R128; 11, R190 to R194). -/

namespace Sys2Proof.Machine

/-! ## The coherent window, said by what it owes -/

/-- Host reads find the image words: the window is open, or image initialisation has begun. -/
def State.shown (s : State) : Prop := s.path.windowOpen = true ∨ s.path.awaited.isSome = true

/-- What the window rests on holds, whatever it owes. -/
abbrev State.Sound (s : State) : Prop := s.Shows fun _ => True

/-- A coherent window owes no word once it shows any. -/
theorem coherent_iff {s : State} (hm : Memory.wf Config.sramErased s.sram = true) :
    s.Coherent ↔ s.Shows (fun _ => ¬ s.shown) ∧ (s.starting → s.path.windowOpen = false ∧ s.path.awaited = none) :=
  ⟨fun h => ⟨⟨h.places, h.written, h.waiting, hm, fun o hi hd => h.latest (not_not.mp hd) o hi⟩, h.reading⟩,
    fun ⟨h, hr⟩ => ⟨h.places, h.written, h.waiting, hr, fun hs o hi => h.latest o hi (not_not.mpr hs)⟩⟩

theorem State.Coherent.sound {s : State} (h : s.Coherent) (i : s.Inv) : s.Sound :=
  ((coherent_iff i.sram).mp h).1.mono fun _ _ _ => trivial

/-- An operation that tells the window what it changes leaves it coherent. -/
theorem State.Coherent.told {s t : State} (h : s.Coherent) (i : s.Inv) (ht : Tells s t) : t.Coherent := by
  obtain ⟨hs, hr⟩ := (coherent_iff i.sram).mp h
  have told := ht.shows_same hs
  have hshown : t.shown ↔ s.shown := by
    unfold State.shown
    rw [ht.windowOpen, ht.awaited]
  refine (coherent_iff told.memory).mpr ⟨told.mono fun _ _ => mt hshown.mp, fun hx => ?_⟩
  obtain ⟨hw, ha⟩ := hr (ht.starting hx)
  have := ht.awaited
  rw [ha] at this
  exact ⟨ht.windowOpen.trans hw, Option.isNone_iff_eq_none.mp (by simpa using this)⟩

theorem State.Shows.coherent {s : State} (h : s.Shows fun _ => False) (hs : ¬ s.starting) : s.Coherent :=
  (coherent_iff h.memory).mpr ⟨h.mono fun _ _ => False.elim, fun x => absurd x hs⟩

theorem State.Sound.coherent {s : State} (h : s.Sound) (hw : s.path.windowOpen = false) (ha : s.path.awaited = none) : s.Coherent :=
  (coherent_iff h.memory).mpr ⟨h.mono fun _ _ _ => by simp [State.shown, hw, ha], fun _ => ⟨hw, ha⟩⟩

theorem State.Sound.tells {s t : State} (h : s.Sound) (ht : Tells s t) : t.Sound := ht.shows_same h

/-- Owners replaced while nothing is read. -/
theorem State.Sound.same {s t : State} (h : s.Sound) (w : SameWindow s t) : t.Sound :=
  h.owe w (fun _ _ _ => trivial) fun _ _ he => absurd trivial he

section

variable {s : State} (h : s.Sound)

include h

theorem State.Sound.setMode (x : ModeUnit) : (s.setMode x).Sound := h.same ⟨rfl, rfl, rfl, rfl, rfl, rfl⟩
theorem State.Sound.setSup (x : Supervision) : (s.setSup x).Sound := h.same ⟨rfl, rfl, rfl, rfl, rfl, rfl⟩
theorem State.Sound.setInd (x : IndicationUnit) : (s.setInd x).Sound := h.same ⟨rfl, rfl, rfl, rfl, rfl, rfl⟩
theorem State.Sound.setWarn (x : WarningUnit) : (s.setWarn x).Sound := h.same ⟨rfl, rfl, rfl, rfl, rfl, rfl⟩
theorem State.Sound.setDoor (x : DoorUnit) : (s.setDoor x).Sound := h.same ⟨rfl, rfl, rfl, rfl, rfl, rfl⟩
theorem State.Sound.setRx (x : LineUnit) : (s.setRx x).Sound := h.same ⟨rfl, rfl, rfl, rfl, rfl, rfl⟩
theorem State.Sound.setInp (x : InputUnit) : (s.setInp x).Sound := h.same ⟨rfl, rfl, rfl, rfl, rfl, rfl⟩
theorem State.Sound.setSig (x : SignalUnit) : (s.setSig x).Sound := h.same ⟨rfl, rfl, rfl, rfl, rfl, rfl⟩
theorem State.Sound.setFm (x : FaultMemory) : (s.setFm x).Sound := h.same ⟨rfl, rfl, rfl, rfl, rfl, rfl⟩
theorem State.Sound.setCtrl (x : Controller) : (s.setCtrl x).Sound := h.same ⟨rfl, rfl, rfl, rfl, rfl, rfl⟩
theorem State.Sound.setProfile (x : Profile) : (s.setProfile x).Sound := h.same ⟨rfl, rfl, rfl, rfl, rfl, rfl⟩
theorem State.Sound.setProfStatus (x : ProfStatus) : (s.setProfStatus x).Sound := h.same ⟨rfl, rfl, rfl, rfl, rfl, rfl⟩
theorem State.Sound.setLoadBuffer (x : Option Profile) : (s.setLoadBuffer x).Sound := h.same ⟨rfl, rfl, rfl, rfl, rfl, rfl⟩

end

/-! ## The START sequence (R191) -/

/-- A step of the START sequence that keeps the window closed. -/
theorem closed_coherent {l : List Part} {s t : State} (h : s.Coherent) (hs : s.starting) (k : KeepsBut l s t)
    (hl : ∀ p ∈ [Part.window, .awaited], p ∉ l) (ht : t.Sound) : t.Coherent := by
  obtain ⟨hw, ha⟩ := h.reading hs
  exact ht.coherent ((k .window (hl _ (by decide))).trans hw) ((k .awaited (hl _ (by decide))).trans ha)

theorem endReset_coherent {s : State} (h : s.Coherent) (i : s.Inv) : s.endReset.Coherent := by
  unfold State.endReset
  split
  · next hr =>
    obtain ⟨hw, ha⟩ := h.reading (.inl hr)
    exact State.Sound.coherent (((h.sound i).setMode _).setCtrl _) hw ha
  · exact h

theorem profileRead_coherent {s : State} (h : s.Coherent) (i : s.Inv) (ho : s.ctrl.operation = .startProfileRead) (a : Bool) :
    (s.profileRead a).Coherent := by
  refine closed_coherent h (.inr (.inl ho)) (profileRead_evolves s a).keeps (by decide) ?_
  unfold State.profileRead
  dsimp only
  generalize (if a = true then s.storedProfile else none) = p
  have loaded : ((s.setLoadBuffer p).setOperation .startCountersRead).Sound := ((h.sound i).setLoadBuffer p).setCtrl _
  split
  · exact loaded
  · exact loaded.tells (momentary_tells _ _)

theorem countersRead_coherent {s : State} (h : s.Coherent) (i : s.Inv) (ho : s.ctrl.operation = .startCountersRead) (a : Bool) :
    (s.countersRead a).Coherent := by
  refine closed_coherent h (.inr (.inr (.inl ho))) (countersRead_evolves s a).keeps (by decide) ?_
  unfold State.countersRead
  dsimp only
  split
  · exact (((h.sound i).setCtrl _).setMode _).setDoor _
  · exact ((((h.sound i).setCtrl _).setMode _).setDoor _).tells (momentary_tells _ _)

theorem momentaries_tells (s : State) (k : FaultKind) (n : Nat) : Tells s (s.momentaries k n) := by
  induction n generalizing s with
  | zero => exact .refl
  | succ n ih => exact (takeMomentary_tells s k).trans (ih _)

theorem loadSlots_sound {s : State} (h : s.Sound) (answered : BitVec 32) : (s.loadSlots answered).Sound := by
  have reported (t : State) : Tells t ((t.forEach s.fm.heldReports fun t c => t.takeMomentary c.kind).momentaries .configMemory
      ((List.finRange 32).foldl (s.loadSlot answered) (s.fm, 0)).2) :=
    (Owes.forEach (fun (t : State) (c : FaultCode) => takeMomentary_tells t c.kind) _ _).trans (momentaries_tells _ _ _)
  unfold State.loadSlots
  dsimp only
  split
  · exact ((h.setFm _).setCtrl _).tells (reported _)
  · exact ((h.setFm _).setCtrl _).tells ((reported _).trans (takeMomentary_tells _ _))

/-- The slots read in the START sequence leave the controller free. -/
theorem loadSlots_operation (s : State) (answered : BitVec 32) : (s.loadSlots answered).ctrl.operation = .none := by
  have reported (t : State) (k : FaultKind) : (t.takeMomentary k).ctrl.operation = t.ctrl.operation :=
    (takeMomentary_evolves t k).keeps .operation (by decide)
  have each (l : List FaultCode) (t : State) : (t.forEach l fun t c => t.takeMomentary c.kind).ctrl.operation = t.ctrl.operation := by
    induction l generalizing t with
    | nil => rfl
    | cons c l ih => exact (ih _).trans (reported t c.kind)
  have bad (n : Nat) (t : State) : (t.momentaries .configMemory n).ctrl.operation = t.ctrl.operation := by
    induction n generalizing t with
    | zero => rfl
    | succ n ih => exact (ih _).trans (reported t _)
  unfold State.loadSlots
  dsimp only
  split
  · exact (bad _ _).trans (each _ _)
  · exact ((reported _ _).trans (bad _ _)).trans (each _ _)

/-! ## Image initialisation begins (R128) -/

theorem keptEntry_cases (s : State) : s.keptEntry = [] ∨
    ∃ e, s.path.inFlight = some e ∧ s.keptEntry = [(e.1, s.imageWord e.1)] := by
  unfold State.keptEntry
  cases s.path.inFlight with
  | none => exact .inl rfl
  | some e => exact .inr ⟨e, rfl, rfl⟩

/-- The entry kept at the beginning of image initialisation is composed from live state. -/
theorem mem_keptEntry {s : State} {x : Nat × Word} (h : x ∈ s.keptEntry) :
    (∃ e, s.path.inFlight = some e ∧ x.1 = e.1) ∧ x.2 = s.imageWord x.1 := by
  rcases keptEntry_cases s with he | ⟨e, hf, he⟩
  · rw [he] at h
    exact absurd h List.not_mem_nil
  · rw [he] at h
    cases List.mem_singleton.mp h
    exact ⟨⟨e, hf, rfl⟩, rfl⟩

theorem isImageOffset_of_mem {o : Nat} (h : o ∈ imageOffsets) : isImageOffset o = true := by
  unfold imageOffsets at h
  exact (List.mem_filter.mp h).2

theorem markedPath_resync (s : State) {o : Nat} :
    o ∈ s.markedPath.resync ↔ o ∈ imageOffsets ∧ o ∉ s.keptEntry.map Prod.fst := by
  unfold State.markedPath
  rw [List.mem_filter, Bool.not_eq_true', Bool.eq_false_iff, ne_eq, List.contains_iff_mem]

/-- With every image word queued or marked as its owner composes it, none is owed. -/
theorem markedPath_shows {s : State} (h : s.Sound) : (s.setPath s.markedPath).Shows fun _ => False where
  places o ho := by
    rcases List.mem_append.mp ho with hq | hm
    · obtain ⟨x, hx, rfl⟩ := List.mem_map.mp hq
      obtain ⟨⟨e, hf, hxe⟩, -⟩ := mem_keptEntry hx
      exact hxe ▸ (h.written e hf).1
    · exact isImageOffset_of_mem ((markedPath_resync s).mp hm).1
  written := h.written
  waiting := h.waiting
  memory := h.memory
  latest o hi _ := by
    have image : (s.setPath s.markedPath).imageWord o = s.imageWord o :=
      imageWord_congr (offs := []) (fun p _ => by cases p <;> rfl) hi List.not_mem_nil
    cases hf : s.keptEntry.find? (fun e => e.1 = o) with
    | some x =>
      have hx : x.1 = o := of_decide_eq_true (List.find?_some (p := fun e : Nat × Word => decide (e.1 = o)) hf)
      rw [latestWord_find (s := s.setPath s.markedPath) hf, image, ← hx]
      exact (mem_keptEntry (List.mem_of_find?_eq_some hf)).2
    | none =>
      refine latestWord_marked (s := s.setPath s.markedPath) hf ((markedPath_resync s).mpr ⟨imageOffset_listed hi, fun hc => ?_⟩)
      obtain ⟨x, hx, hxo⟩ := List.mem_map.mp hc
      exact List.find?_eq_none.mp hf x hx (decide_eq_true hxo)

theorem setUrgent_tells (s : State) (b : Bool) : Tells s (s.setPath { s.path with urgent := b }) :=
  .replaced rfl id fun p _ => by cases p <;> rfl

theorem startImages_shows {s : State} (h : s.Sound) : s.startImages.Shows fun _ => False := by
  have hstart : s.startImages = (s.setPath s.markedPath).requeue.setPath
      { (s.setPath s.markedPath).requeue.path with urgent := s.path.urgent } := rfl
  rw [hstart]
  exact Tells.shows_same (.trans (requeue_tells _) (setUrgent_tells _ _)) (markedPath_shows h)

theorem doorCauseSince_tells (old s : State) : Tells s (State.doorCauseSince old s) := .ite (setCause_tells s _) .refl

theorem takeForce_shows {s : State} (h : s.Sound) : s.takeForce.Shows fun _ => False := by
  unfold State.takeForce
  refine startImages_shows (.tells ?_ (doorCauseSince_tells _ _))
  split
  · exact ((((h.setProfile _).setProfStatus _).setInp _).setRx _).setDoor _
  · exact ((((h.setProfile _).setProfStatus _).setDoor _).tells (setCause_tells _ _)).tells (evalAllLamps_tells _)

/-- Steps 3 and 4 of the START sequence: the window stays closed, and the words that are owed are marked. -/
theorem faultSlotsRead_coherent {s : State} (h : s.Coherent) (i : s.Inv) (hr : s.mode.inReset = false) (answered : BitVec 32) :
    (s.loadSlots answered).takeForce.Coherent := by
  refine (takeForce_shows (loadSlots_sound (h.sound i) answered)).coherent fun hx => ?_
  refine not_starting (s := s.loadSlots answered) ?_ ?_ (starting_of_keeps (takeForce_evolves _).keeps (by decide) hx)
  · exact ((loadSlots_evolves s answered).keeps .inReset (by decide)).trans hr
  · rw [loadSlots_operation]
    trivial

/-! ## The profile restart (R194) -/

theorem handMotion_tells (s : State) (m : Motion) : Tells s (s.handMotion m) := .ite .refl (evalWarnings_tells s _)

theorem restartWarnings_sound {s : State} (h : s.Sound) : s.restartWarnings.Sound := by
  unfold State.restartWarnings
  dsimp only
  split
  · exact (h.setWarn _).tells (setCause_tells _ _)
  · exact h.setWarn _

theorem beginRestart_shows {s : State} (h : s.Sound) (p : Profile) : (s.beginRestart p).Shows fun _ => False := by
  have closed : (s.setPath { s.path with windowOpen := false }).Sound := h.same ⟨rfl, rfl, rfl, rfl, rfl, rfl⟩
  have stopped := closed.tells (endTest_tells _ .restart)
  unfold State.beginRestart
  dsimp only
  refine startImages_shows (.tells ?_ (judgeLevel_tells _))
  refine .tells ?_ (handMotion_tells _ _)
  refine .tells ?_ (restartFaults_tells _)
  refine .tells ?_ (doorCauseSince_tells _ _)
  refine .setMode (.setSup (.setInd (restartWarnings_sound ?_) _) _) _
  exact (((((stopped.setProfile _).setProfStatus _).setSig _).setInp _).setRx _).setDoor _

theorem restartWith_coherent {s : State} (h : s.Sound) (hs : ¬ s.starting) (p : Profile) : (s.restartWith p).Coherent := by
  refine State.Shows.coherent (beginRestart_shows (h.setLoadBuffer _) p) fun hx => hs ?_
  exact starting_of_keeps (restartWith_evolves s p).keeps (by decide) hx

theorem storeWriteDone_coherent {s : State} (h : s.Coherent) (i : s.Inv) (hr : s.mode.inReset = false) (p : Profile) (n k : Nat)
    (snapshot : List Byte) (retried : Bool) (o : PageOutcome) : (s.storeWriteDone p n k snapshot retried o).Coherent := by
  have page := writePage_tells s (storePageNo n k) (writtenBytes snapshot o)
  unfold State.storeWriteDone
  dsimp only
  split
  · split
    · exact restartWith_coherent (((h.sound i).tells page).setCtrl _) 
        (not_starting (s := (s.writePage (storePageNo n k) (writtenBytes snapshot o)).setCtrl
          { (s.writePage (storePageNo n k) (writtenBytes snapshot o)).ctrl with operation := .none, store := .none }) hr trivial) p
    · exact h.told i (page.trans (operation_tells _ (by trivial)))
  · split
    · exact h.told i (page.trans (operation_tells _ (by trivial)))
    · exact h.told i (page.trans (operation_tells _ (by trivial)))

theorem restartReadDone_coherent {s : State} (h : s.Coherent) (i : s.Inv) (hr : s.mode.inReset = false) (answered : Bool) :
    (s.restartReadDone answered).Coherent := by
  have free : Tells s (s.setOperation .none) := operation_tells s (by trivial)
  unfold State.restartReadDone
  dsimp only
  split
  · split
    · exact restartWith_coherent ((h.sound i).tells free) (not_starting (s := s.setOperation .none) hr trivial) _
    · refine h.told i (.trans ?_ (momentary_tells _ _))
      refine .trans ?_ (refuse_tells _ _)
      exact free.trans (.replaced rfl id fun p _ => by cases p <;> rfl)
  · exact h.told i ((free.trans (refuse_tells _ _)).trans (momentary_tells _ _))

/-! ## The end of image initialisation (R128) -/

theorem enterRunFromStart_tells (s : State) : Tells s s.enterRunFromStart := by
  unfold State.enterRunFromStart
  refine .trans ?_ (judgeIgnitionAtRun_tells _)
  refine .trans ?_ (startGrace_tells _)
  refine .trans ?_ (enterRunIndication_tells _)
  refine .trans ?_ (evalWarnings_tells _ _)
  exact (offerStatus_setMode_tells s (by rfl)).trans (setSvc_tells _ rfl)

theorem endRestartSup_tells (s : State) : Tells s s.endRestartSup := by
  have reported : Tells s (if s.sup.state = .lost then s.appear { kind := .hostLost, subject := 0 } else s) :=
    .ite (appear_tells s _) .refl
  unfold State.endRestartSup
  generalize (if s.sup.state = .lost then s.appear { kind := .hostLost, subject := 0 } else s) = t at reported ⊢
  refine .iteThen (reported.trans ?_) (startGrace_tells _)
  split
  · exact .ite (.ite (setSup_tells _ rfl) (commitSup_tells _ _)) .refl
  all_goals exact .refl

theorem endRestart_tells (s : State) : Tells s s.endRestart := by
  unfold State.endRestart
  refine .trans ?_ (complete_tells _)
  refine .trans ?_ (endRestartSup_tells _)
  have addressed : Tells s ((s.setCause .profile).setSvc { s.svc with address := s.profile.address }) := 
    (setCause_tells s .profile).trans (setSvc_tells _ rfl)
  exact .iteThen addressed ((evalWarnings_tells _ _).trans (enterRunIndication_tells _))

/-- The window that opens owes nothing: image initialisation has told all its words. -/
theorem endImages_coherent {s : State} (h : s.Shows fun _ => False) (hs : ¬ s.starting) : s.endImages.Coherent := by
  have opened : (s.offerStatus (s.setPath { s.path with windowOpen := true, awaited := none })).Shows fun _ => False := by
    rw [offerStatus_offers]
    refine h.offerChanged ⟨rfl, rfl, rfl, rfl, rfl, rfl⟩ statusOffset_image fun p hp => ?_
    cases p with
    | status => exact absurd List.mem_cons_self hp
    | _ => rfl
  have stopped : ¬ (s.offerStatus (s.setPath { s.path with windowOpen := true, awaited := none })).starting := fun hx =>
    hs (starting_of_keeps (s := s.setPath { s.path with windowOpen := true, awaited := none }) (offerStatus_evolves s _).keeps
      (by decide) hx)
  have ended {t : State} (ht : Tells _ t) : t.Coherent := (ht.shows_same opened).coherent fun hx => stopped (ht.starting hx)
  unfold State.endImages
  dsimp only
  split
  · exact ended (enterRunFromStart_tells _)
  · exact ended (endRestart_tells _)

/-- The end of an image write frees the M-port, and takes the entry written from the queue unless a newer word replaced it. -/
theorem writeDone_cases (p : MemoryPath) (e : Nat × Word) : p.writeDone e = { p with inFlight := none } ∨
    ∃ rest, p.queue = e :: rest ∧ p.writeDone e =
      { p.withQueue rest with inFlight := none, awaited := p.awaited.map (fun a => a.filter (fun o => o ≠ e.1)) } := by
  unfold MemoryPath.writeDone
  split
  · exact .inl rfl
  · next h rest hq =>
    split
    · next he => exact .inr ⟨rest, he ▸ hq, rfl⟩
    · exact .inl rfl

/-- The entry whose write completed stands in SRAM, so that it may leave the queue (R126). -/
theorem writeDone_tells {s : State} (i : s.path.Inv) {e : Nat × Word} (hf : s.path.inFlight = some e) :
    Tells s (s.setPath (s.path.writeDone e)) := by
  have image {x : MemoryPath} (hx : x = s.path.writeDone e) {o : Nat} (ho : isImageOffset o = true) :
      (s.setPath x).imageWord o = s.imageWord o := hx ▸ imageWord_of_keeps (writeDone_evolves s e).keeps (by decide) ho
  rcases writeDone_cases s.path e with hd | ⟨rest, hq, hd⟩
  · rw [hd]
    refine ⟨fun D hs => ⟨hs.places, nofun, hs.waiting, hs.memory, fun o ho hn => ?_⟩, id, rfl, rfl⟩
    rw [image hd.symm ho, ← hs.latest o ho fun d => hn (.inl d)]
    exact latestWord_congr rfl .rfl (fun _ => image hd.symm ho) rfl
  · rw [hd]
    have inv := i.2
    rw [hq] at inv
    refine ⟨fun D hs => ⟨fun o ho => hs.places o ?_, nofun, hs.waiting, hs.memory, fun o ho hn => ?_⟩, id, rfl, Option.isSome_map⟩
    · rw [hq]
      exact List.mem_cons_of_mem _ ho
    rw [image hd.symm ho, ← hs.latest o ho fun d => hn (.inl d)]
    by_cases hoff : o = e.1
    · subst hoff
      obtain ⟨hout, -⟩ := List.nodup_cons.mp inv
      have hrest : e.1 ∉ rest.map Prod.fst := fun hm => hout (List.mem_append_left _ hm)
      have hmark : e.1 ∉ s.path.resync := fun hm => hout (List.mem_append_right _ hm)
      have hhead : s.path.queue.find? (fun x => x.1 = e.1) = some e := by
        rw [hq]
        exact List.find?_cons_of_pos (decide_eq_true rfl)
      rw [latestWord_find hhead, ← (hs.written e hf).2]
      exact latestWord_stored (s := s.setPath _) (find_none hrest) hmark
    · refine latestWord_congr ?_ .rfl (fun _ => image hd.symm ho) rfl
      rw [hq]
      exact (List.find?_cons_of_neg (by simpa using Ne.symm hoff)).symm

/-- The end of an image write, and with the last one of image initialisation the opening of the window (R126 to R128). -/
theorem imageWritten_coherent {s : State} (h : s.Coherent) (i : s.Inv) : s.imageWritten.Coherent := by
  unfold State.imageWritten
  split
  · exact h
  · next e hf =>
    have told := (writeDone_tells i.path hf).trans (requeue_tells _)
    have ht := h.told i told
    have it : ((s.setPath (s.path.writeDone e)).requeue).Inv :=
      (requeue_evolves _).inv ((writeDone_evolves s e).inv i)
    dsimp only
    split
    · next hd =>
      have ha : (s.setPath (s.path.writeDone e)).requeue.path.awaited = some [] := of_decide_eq_true (Bool.and_eq_true_iff.mp hd).1
      obtain ⟨hs, hr⟩ := (coherent_iff it.sram).mp ht
      refine endImages_coherent (hs.mono fun _ _ hn => hn (.inr (by rw [ha]; rfl))) fun hx => ?_
      exact absurd (ha.symm.trans (hr hx).2) nofun
    · exact ht

end Sys2Proof.Machine
end

section
/-! Time shows in no image word, and every command leaves the window coherent, chapter by chapter; so does every step (06, R120). -/

namespace Sys2Proof.Machine

/-! ## A millisecond -/

/-- Ages, timers and positions are in no image word. -/
theorem advance_word (s : State) (p : Place) : s.advance.wordAt p = s.wordAt p := by
  have later := advance_millisecondLater s
  have rows : SameRows s s.advance := fun w => by
    obtain ⟨-, hw⟩ := later.warnings
    rw [hw]
    split <;> exact ⟨rfl, rfl, rfl, rfl, rfl, rfl⟩
  have keeps := advance_keeps s
  cases p with
  | signal n =>
    show signalWord _ = signalWord _
    rw [later.entries]
    split <;> rfl
  | door d k =>
    obtain ⟨-, -, hd⟩ := later.doors
    show doorWord _ _ = doorWord _ _
    rw [hd]
    unfold doorWord
    rfl
  | warning w => exact rows.warningWord w
  | display k => exact rows.displayWord rfl k.val
  | target g => exact (congrArg gaugeTargetWord (later.gauges g)).trans rfl
  | actual g => exact (congrArg gaugeActualWord (later.gauges g)).trans rfl
  | result => rfl
  | status =>
    obtain ⟨hmotion, -⟩ := later.motion
    obtain ⟨-, hfull⟩ := keeps .fullness (by decide)
    obtain ⟨hclearing, -⟩ := keeps .clear (by decide)
    have hmode : s.advance.mode.mode = s.mode.mode := keeps .opMode (by decide)
    simp only [State.wordAt, State.statusWord, hmotion, hfull, hclearing, hmode]
    rfl
  | countA =>
    have hvoid : s.advance.warn.voidAcks = s.warn.voidAcks := keeps .voidAcks (by decide)
    show State.countWordA _ = State.countWordA _
    unfold State.countWordA
    rw [hvoid]
    rfl
  | countB =>
    obtain ⟨hoverflow, -⟩ := keeps .fullness (by decide)
    show State.countWordB _ = State.countWordB _
    unfold State.countWordB
    rw [hoverflow]
    rfl
  | line l k =>
    show lineWord _ _ = lineWord _ _
    rw [later.lines]
    exact lineWord_congr rfl rfl rfl _
  | ever k => rfl
  | reserved k => rfl
  | arrival k => rfl
  | record i k =>
    show recordWord _ _ = recordWord _ _
    rw [later.records]
    split
    · rfl
    · cases s.fm.records.get i <;> rfl

theorem setPending_tells (s : State) (l : List Instr) : Tells s (s.setPending l) := .replaced rfl id fun p _ => by cases p <;> rfl

theorem tick_tells (s : State) : Tells s s.tick := by
  have later : Tells s s.advance := .replaced rfl id fun p _ => advance_word s p
  exact .ite .refl (.ite (setPending_tells s _) (.ite (setPending_tells s _) (later.trans (setPending_tells _ _))))

/-! ## Every command -/

/-- From a state of the invariant with a coherent window a command leaves a coherent window. -/
def KeepsWindow (c : Instr) : Prop := ∀ s : State, s.Inv → s.Coherent → ∃ t, exec c s = .next t ∧ t.Coherent

namespace KeepsWindow

variable {c : Instr} {f : State → State}

/-- An event that acts once the reset cause no longer lasts. -/
theorem of_live (e : ∀ s, exec c s = .next (s.live f))
    (h : ∀ s, s.mode.inReset = false → s.Inv → s.Coherent → (f s).Coherent) : KeepsWindow c := fun s i w => by
  refine ⟨_, e s, ?_⟩
  unfold State.live
  split
  · exact w
  · next hr => exact h s (Bool.eq_false_iff.mpr hr) i w

/-- An event that tells the window what it changes. -/
theorem of_tells (e : ∀ s, exec c s = .next (s.live f)) (h : ∀ s, Tells s (f s)) : KeepsWindow c :=
  of_live e fun s _ i w => w.told i (h s)

/-- One that acts on a condition, an expiry that is due above all (log entry 2). -/
theorem of_when {p : State → Prop} [∀ s, Decidable (p s)] (e : ∀ s, exec c s = .next (s.live fun s => if p s then f s else s))
    (h : ∀ s, Tells s (f s)) : KeepsWindow c := of_tells e fun s => .ite (h s) .refl

/-- A read of the START sequence, or another completion that changes the window itself. -/
theorem of_done {p : State → Prop} [∀ s, Decidable (p s)] (e : ∀ s, exec c s = .next (s.live fun s => if p s then f s else s))
    (h : ∀ s, s.mode.inReset = false → p s → s.Inv → s.Coherent → (f s).Coherent) : KeepsWindow c :=
  of_live e fun s hr i w => by
    split
    · next hp => exact h s hr hp i w
    · exact w

end KeepsWindow

/-- A host write of a named word. -/
theorem hostWrite_keepsWindow {c : Instr} {off : Nat} (h4 : off % 4 = 0) {w : Word} {lanes : BitVec 4}
    (e : ∀ s, exec c s = .next (s.live fun t => t.hostWriteAt off w lanes)) : KeepsWindow c :=
  .of_tells e fun s => hostWriteAt_tells s h4 w lanes

/-- A named request of the service line. -/
theorem request_keepsWindow {c : Instr} {r : Request} {g : Target} {b : Byte} {ps : List Byte}
    (e : ∀ s, exec c s = .next (s.live fun t => t.requestFrame r g b ps)) : KeepsWindow c :=
  .of_tells e fun s => requestFrame_tells s r g b ps

/-! ## Resets and the START sequence (11) -/

theorem fullReset_coherent (s : State) (straps : BitVec 2) (causes : ResetCauses) (held : List FaultCode) (sram : List Host.Cell) :
    (s.fullReset straps causes held sram).Coherent := coherent_of_closed rfl rfl rfl rfl rfl rfl

theorem faultSlotsRead_keepsWindow (answered : BitVec 32) : KeepsWindow (.faultSlotsRead answered) :=
  .of_done (fun _ => rfl) fun s hr _ i w => by
    refine (faultSlotsRead_coherent w i hr answered).told ?_ (takeWork_tells _)
    exact (takeForce_evolves _).inv ((loadSlots_evolves s answered).inv i)

theorem startEdge_keepsWindow (l : Line) : KeepsWindow (.startEdge l) := .of_tells (fun _ => rfl) fun s =>
  .ite (startEdge_tells s l) (.ite ((wake_tells s _).trans (takeWork_tells _)) .refl)

theorem characterComplete_keepsWindow (l : Line) (x : CharSamples) : KeepsWindow (.characterComplete l x) :=
  .of_when (fun _ => rfl) fun s => .trans (.ite (falseStart_tells s l) (character_tells s l x)) (takeWork_tells _)

theorem imageWriteComplete_keepsWindow : KeepsWindow .imageWriteComplete := .of_done (fun _ => rfl) fun s _ _ i w =>
  (imageWritten_coherent w i).told ((imageWritten_evolves s).inv i) ((grantForwarded_tells _).trans (workAndFlush_tells _))

/-! ## Configuration memory (08, 11) -/

theorem faultSlotWriteComplete_keepsWindow (o : PageOutcome) : KeepsWindow (.faultSlotWriteComplete o) :=
  .of_tells (fun _ => rfl) fun s => by
    split
    · exact (slotWriteDone_tells s _ _ _ _ o).trans (workAndFlush_tells _)
    all_goals exact .refl

theorem countersWriteComplete_keepsWindow (o : PageOutcome) : KeepsWindow (.countersWriteComplete o) :=
  .of_tells (fun _ => rfl) fun s => by
    split
    · exact (countersWriteDone_tells s _ _ o).trans (workAndFlush_tells _)
    all_goals exact .refl

theorem profilePageWriteComplete_keepsWindow (o : PageOutcome) : KeepsWindow (.profilePageWriteComplete o) :=
  .of_live (fun _ => rfl) fun s hr i w => by
    split
    · exact (storeWriteDone_coherent w i hr _ _ _ _ _ o).told ((storeWriteDone_evolves s _ _ _ _ _ o).inv i) (workAndFlush_tells _)
    · exact w.told i (((writePage_tells s _ _).trans (abortStore_tells _)).trans (workAndFlush_tells _))
    all_goals exact w

theorem restartReadComplete_keepsWindow (a : Bool) : KeepsWindow (.restartReadComplete a) := .of_done (fun _ => rfl) fun s hr _ i w =>
  (restartReadDone_coherent w i hr a).told ((restartReadDone_evolves s a).inv i) (workAndFlush_tells _)

/-- Every command leaves a coherent window: each arm cites what its chapter's operation tells. -/
theorem exec_keepsWindow (c : Instr) : KeepsWindow c := by
  cases c with
  | powerOnReset straps => exact fun s _ _ => ⟨_, rfl, fullReset_coherent s straps _ _ _⟩
  | supplyLowReset straps => exact fun s _ _ => ⟨_, rfl, fullReset_coherent s straps _ _ _⟩
  | pinReset straps => exact fun s _ _ => ⟨_, rfl, fullReset_coherent s straps _ _ _⟩
  | resetEnd => exact fun s i w => ⟨_, rfl, endReset_coherent w i⟩
  | profileReadComplete a => exact .of_done (fun _ => rfl) fun s _ ho i w => profileRead_coherent w i ho a
  | countersBlockRead a => exact .of_done (fun _ => rfl) fun s _ ho i w => countersRead_coherent w i ho a
  | faultSlotsRead a => exact faultSlotsRead_keepsWindow a
  | stalenessExpiry n => exact .of_when (fun _ => rfl) fun s => (takeExpiry_tells s n).trans (takeWork_tells _)
  | logicalLevelChange k => exact fun s i w => ⟨_, rfl, w.told i ((changeLevel_tells s k).trans (takeWork_tells _))⟩
  | debounceSettle k => exact .of_when (fun _ => rfl) fun s => (settle_tells s k).trans (takeWork_tells _)
  | speedRisingEdge u => exact .of_when (fun _ => rfl) fun s => (speedEdge_tells s _).trans (takeWork_tells _)
  | speedOverflow => exact .of_when (fun _ => rfl) fun s => (speedOverflow_tells s).trans (takeWork_tells _)
  | holdExpiry => exact .of_when (fun _ => rfl) fun s => (takeMotion_tells s _ _).trans (takeWork_tells _)
  | startEdge l => exact startEdge_keepsWindow l
  | startBitSample l x => exact .of_when (fun _ => rfl) fun s => falseStart_tells s l
  | characterComplete l x => exact characterComplete_keepsWindow l x
  | breakEvent l => exact .of_when (fun _ => rfl) fun s => takeBreak_tells s l
  | brokenEvent l => exact .of_when (fun _ => rfl) fun s => (setBroken_tells s l _).trans (takeWork_tells _)
  | returnEvent l => exact .of_when (fun _ => rfl) fun s => (setBroken_tells s l _).trans (takeWork_tells _)
  | gapExpiry l => exact .of_when (fun _ => rfl) fun s => takeGap_tells s l
  | silenceExpiry l => exact .of_when (fun _ => rfl) fun s => (takeSilence_tells s l).trans (takeWork_tells _)
  | openTimeoutExpiry d => exact .of_when (fun _ => rfl) fun s => failDoor_tells s d _
  | closeTimeoutExpiry d => exact .of_when (fun _ => rfl) fun s => failDoor_tells s d _
  | disagreementExpiry d => exact .of_when (fun _ => rfl) fun s => failDoor_tells s d _
  | onDelayExpiry w => exact .of_when (fun _ => rfl) fun s => commitWarning_tells s w _
  | offDelayExpiry w => exact .of_when (fun _ => rfl) fun s => commitWarning_tells s w _
  | warningCellRead w => exact .of_when (fun _ => rfl) fun s => readOffset_tells s _
  | ack w => exact hostWrite_keepsWindow (offWarning_bounds w).2.2 fun _ => rfl
  | set w => exact hostWrite_keepsWindow (offWarning_bounds w).2.2 fun _ => rfl
  | reset w => exact hostWrite_keepsWindow (offWarning_bounds w).2.2 fun _ => rfl
  | blinkPhaseEnd => exact .of_when (fun _ => rfl) endBlinkPhase_tells
  | openLoadSenseChange k b => exact fun s i w => ⟨_, rfl, w.told i (senseChange_tells s k b)⟩
  | openLoadExpiry k => exact .of_when (fun _ => rfl) fun s => (openLoadExpiry_tells s k).trans (takeWork_tells _)
  | clearExpiry k => exact .of_when (fun _ => rfl) fun s => (clearExpiry_tells s k).trans (takeWork_tells _)
  | lampRequestWrite u w => exact hostWrite_keepsWindow (by split <;> rfl) fun _ => rfl
  | lampCheckExpiry =>
    exact .of_when (fun _ => rfl) fun s => (Tells.of (setLampCheck_evolves s none) (by decide)).trans (evalAllLamps_tells _)
  | homingCompletion g => exact .of_when (fun _ => rfl) fun s => completeHoming_tells s g
  | arrival g => exact .of_when (fun _ => rfl) fun s => (takeArrival_tells s g).trans (sweepCompletion_tells _)
  | hostGaugeTargetWrite g w => exact hostWrite_keepsWindow (by unfold offGaugeTarget; omega) fun _ => rfl
  | toneEnd => exact .of_when (fun _ => rfl) endTone_tells
  | repeatPeriodExpiry => exact .of_when (fun _ => rfl) endRepeatPeriod_tells
  | chimeTestPhaseEnd => exact .of_when (fun _ => rfl) endChimePhase_tells
  | windowWrite a w lanes => exact .of_tells (fun _ => rfl) fun s => hostWrite_tells s a w lanes
  | imageWordRead a => exact .of_tells (fun _ => rfl) fun s => hostRead_tells s a
  | hostSignalWrite n w => exact hostWrite_keepsWindow (by unfold offSignal; omega) fun _ => rfl
  | capturedWriteGrant => exact .of_when (fun _ => rfl) fun s => (grantHeld_tells s).trans (takeWork_tells _)
  | imageWriteGrant => exact .of_tells (fun _ => rfl) grantImage_tells
  | imageWriteComplete => exact imageWriteComplete_keepsWindow
  | clearFaultsCommand u => exact hostWrite_keepsWindow (by decide) fun _ => rfl
  | profileStore u => exact hostWrite_keepsWindow (by decide) fun _ => rfl
  | restart u => exact hostWrite_keepsWindow (by decide) fun _ => rfl
  | clearCauses u => exact hostWrite_keepsWindow (by decide) fun _ => rfl
  | clearStats u => exact hostWrite_keepsWindow (by decide) fun _ => rfl
  | parkNow u => exact hostWrite_keepsWindow (by decide) fun _ => rfl
  | attentionSummaryRead => exact .of_when (fun _ => rfl) fun s => readOffset_tells s _
  | attentionEnableWrite w => exact hostWrite_keepsWindow (by decide) fun _ => rfl
  | hostAliveWrite w => exact hostWrite_keepsWindow (by decide) fun _ => rfl
  | graceExpiry => exact .of_when (fun _ => rfl) enterLost_tells
  | timeoutExpiry => exact .of_when (fun _ => rfl) enterLost_tells
  | timeoutExpiryInLost => exact .of_when (fun _ => rfl) fun s => setSup_tells s rfl
  | pulseEnd => exact .of_when (fun _ => rfl) fun s => setSup_tells s rfl
  | confirmExpiry k => exact .of_when (fun _ => rfl) fun s => (confirmSlot_tells s k).trans (takeWork_tells _)
  | faultSlotWriteComplete o => exact faultSlotWriteComplete_keepsWindow o
  | countersWriteComplete o => exact countersWriteComplete_keepsWindow o
  | profileStoreValidation => exact .of_when (fun _ => rfl) fun s => (validateStore_tells s).trans (workAndFlush_tells _)
  | profilePageWriteComplete o => exact profilePageWriteComplete_keepsWindow o
  | restartReadComplete a => exact restartReadComplete_keepsWindow a
  | serviceStartEdge => exact .of_tells (fun _ => rfl) fun s => (serviceEdge_tells s).trans (takeWork_tells _)
  | serviceCharacter x => exact .of_tells (fun _ => rfl) fun s => serviceCharacter_tells s x
  | quietExpiry => exact .of_when (fun _ => rfl) fun s => setSvc_tells s rfl
  | serviceGapExpiry => exact .of_when (fun _ => rfl) fun s => setSvc_tells s rfl
  | identify g b ps => exact request_keepsWindow fun _ => rfl
  | readFaults g b ps => exact request_keepsWindow fun _ => rfl
  | readFreeze g b ps => exact request_keepsWindow fun _ => rfl
  | clearFaultsRequest g b ps => exact request_keepsWindow fun _ => rfl
  | readSignals g b ps => exact request_keepsWindow fun _ => rfl
  | readDoors g b ps => exact request_keepsWindow fun _ => rfl
  | readLines g b ps => exact request_keepsWindow fun _ => rfl
  | outputTest g b ps => exact request_keepsWindow fun _ => rfl
  | stopTest g b ps => exact request_keepsWindow fun _ => rfl
  | workshopStatus g b ps => exact request_keepsWindow fun _ => rfl
  | replyTurnaround => exact .of_when (fun _ => rfl) fun s => setSvc_tells s rfl
  | responseCharacter x => exact .of_tells (fun _ => rfl) fun s => readBack_tells s x
  | testerActiveExpiry => exact .of_when (fun _ => rfl) testerExpiry_tells
  | lampTestTimerExpiry => exact .of_when (fun _ => rfl) fun s => endTest_tells s _
  | ignitionOffExpiry => exact .of_when (fun _ => rfl) fun s => (enterParking_tells s).trans (takeWork_tells _)

end Sys2Proof.Machine

open Sys2Proof Sys2Proof.Machine

/-- Settles O5: time shows in no image word, and every command tells the window what it changes, or keeps it closed until image
initialisation has marked every word. -/
theorem windowShowsTheLatestWord : Obligations.WindowShowsTheLatestWord := by
  intro s t i w h
  unfold step at h
  split at h
  · cases h
    exact w.told i (tick_tells s)
  · next c rest _ =>
    obtain ⟨u, hu, hw⟩ := exec_keepsWindow c _ (setPending_keepsInv i rest) (w.told i (setPending_tells s rest))
    cases hu.symm.trans h
    exact hw

end

section
/-! A host write by the word of the window that it reaches: live cells, read-only, owned and plain words, and the words held for capture
(06, R119 to R124, R128, R134). -/

namespace Sys2Proof.Machine

/-! ## The cases of a write (R124, R128) -/

theorem writeOffset_live {s : State} {off : Nat} (h : off = 0x0690 ∨ off = 0x069C ∨ off = 0x06A0) (word : Word) (lanes : BitVec 4) :
    s.writeOffset off word lanes = if lanes = 0xF then s.writeLive off word else s.violation := if_pos ((isLiveCell_iff off).mpr h)

/-- A closed window drops a write to any other cell. -/
theorem writeOffset_closed {s : State} {off : Nat} (hl : isLiveCell off = false) (h : s.path.windowOpen = false) (word : Word)
    (lanes : BitVec 4) : s.writeOffset off word lanes = s := by
  unfold State.writeOffset
  rw [hl, h]
  rfl

section

variable {s : State} {off : Nat} (hl : isLiveCell off = false) (ho : s.path.windowOpen = true)

include hl ho

theorem writeOffset_readOnly (hr : isReadOnly off = true) (word : Word) (lanes : BitVec 4) :
    s.writeOffset off word lanes = s.violation := by
  unfold State.writeOffset
  rw [hl, ho, hr]
  rfl

theorem writeOffset_owned (hr : isReadOnly off = false) (hw : isOwned off = true) (word : Word) (lanes : BitVec 4) :
    s.writeOffset off word lanes = if lanes = 0xF then s.writeOwned off word else s.violation := by
  unfold State.writeOffset
  rw [hl, ho, hr, hw]
  rfl

/-- A word that nothing owns goes to SRAM, but for the staging area during a store. -/
theorem writeOffset_plain (hr : isReadOnly off = false) (hw : isOwned off = false) (word : Word) (lanes : BitVec 4) :
    s.writeOffset off word lanes =
      if offStaging ≤ off ∧ s.ctrl.storing then s.violation else s.forward (.write (s.windowAddr off) word lanes) := by
  unfold State.writeOffset
  rw [hl, ho, hr, hw]
  rfl

end

/-! ## Where a word address leads (R119) -/

theorem windowOffset_place {s : State} {a : BitVec 22} {off : Nat} (h : s.windowOffset a = some off) :
    off < 0x4000 ∧ 4 * a.toNat = s.windowAddr off := by
  unfold State.windowOffset at h
  dsimp only at h
  split at h
  · next hin =>
    have hoff := Option.some.inj h
    unfold Config.windowSize at hin
    unfold State.windowAddr
    omega
  · exact absurd h nofun

theorem exec_windowWrite {s : State} (hr : s.running) (hp : s.portFree = true) {a : BitVec 22} {off : Nat}
    (h : s.windowOffset a = some off) (word : Word) (lanes : BitVec 4) :
    exec (.windowWrite a word lanes) s = .next (s.writeOffset off word lanes) := by
  show Host.Outcome.next (s.live _) = _
  rw [live_running hr]
  unfold State.hostWrite
  rw [if_pos hp, h]

/-- A full write of a named word of the window. -/
theorem live_hostWriteAt {s : State} (hr : s.running) (hp : s.portFree = true) (off : Nat) (word : Word) (lanes : BitVec 4) :
    (s.live fun t => t.hostWriteAt off word lanes) = s.writeOffset off word lanes := by
  rw [live_running hr]
  exact if_pos hp

/-! ## Numbers of the map (Table 6-1) -/

theorem isReadOnly_iff (off : Nat) : isReadOnly off = true ↔ 0x0400 ≤ off ∧ off < 0x0460 ∨ 0x0600 ≤ off ∧ off < 0x0620 ∨
    off = 0x0694 ∨ off = 0x0698 ∨ 0x06A4 ≤ off ∧ off < 0x06B0 ∨ 0x0700 ≤ off ∧ off < 0x1000 := by
  simp only [isReadOnly, Bool.or_eq_true, Bool.and_eq_true, decide_eq_true_iff, or_assoc]
  rfl

theorem isOwned_iff (off : Nat) : isOwned off = true ↔
    off < 0x0400 ∨ 0x0480 ≤ off ∧ off < 0x0600 ∨ 0x0620 ≤ off ∧ off < 0x0688 := by
  simp only [isOwned, Bool.or_eq_true, Bool.and_eq_true, decide_eq_true_iff, or_assoc]

theorem isLiveCell_eq_false {off : Nat} : isLiveCell off = false ↔ off ≠ 0x0690 ∧ off ≠ 0x069C ∧ off ≠ 0x06A0 := by
  rw [Bool.eq_false_iff, ne_eq, isLiveCell_iff]
  simp only [not_or, ne_eq]

/-- A full write to a gauge's actual word is a violation: the word is the indication unit's own. -/
theorem writeOwned_gaugeActual (s : State) {off : Nat} (h : 0x0620 ≤ off ∧ off < 0x0680 ∧ off % 8 = 4) (word : Word) :
    s.writeOwned off word = s.violation := by
  have hwarn : warningAt off = none := dif_neg (by omega)
  have hgauge : gaugeTargetAt off = none := by
    unfold gaugeTargetAt
    split
    · exact if_neg (by omega)
    · rfl
  unfold State.writeOwned
  rw [if_neg (by omega), if_neg (by omega), if_neg (by omega), hwarn, hgauge]

/-- The words whose writes an open window answers with a violation, whatever their lanes, and those whose partial writes it does. -/
theorem writeOffset_violation {s : State} {off : Nat} {lanes : BitVec 4} (ho : s.path.windowOpen = true)
    (hl : isLiveCell off = false)
    (h : isReadOnly off = true ∨ 0x0620 ≤ off ∧ off < 0x0680 ∧ off % 8 = 4 ∨ 0x2000 ≤ off ∧ s.ctrl.store ≠ .none ∨
      lanes ≠ 0xF ∧ isOwned off = true) (word : Word) : s.writeOffset off word lanes = s.violation := by
  have readOnly (h : isReadOnly off = true) := writeOffset_readOnly hl ho h word lanes
  cases hr : isReadOnly off with
  | true => exact readOnly hr
  | false =>
    rcases h with h | h | ⟨hs, hst⟩ | ⟨hn, hw⟩
    · exact readOnly h
    · rw [writeOffset_owned hl ho hr ((isOwned_iff off).mpr (by omega)), writeOwned_gaugeActual s h, ite_self]
    · have hw : isOwned off = false := Bool.eq_false_iff.mpr fun e => by
        have := (isOwned_iff off).mp e
        omega
      rw [writeOffset_plain hl ho hr hw]
      exact if_pos ⟨hs, by simpa [Controller.storing] using hst⟩
    · rw [writeOffset_owned hl ho hr hw, if_neg hn]

/-! ## Words held for capture (R122) -/

theorem writeOffset_signal {s : State} (ho : s.path.windowOpen = true) (n : Fin 256) (word : Word) :
    s.writeOffset (offSignal n) word 0xF = s.writeSignal n word := by
  have hlt : offSignal n < 0x0400 := by
    unfold offSignal
    omega
  have hat : signalAt (offSignal n) = some n := by
    unfold signalAt offSignal
    rw [dif_pos (by omega)]
    exact congrArg some (Fin.ext (by show 4 * n.val / 4 = n.val; omega))
  have hr : isReadOnly (offSignal n) = false := Bool.eq_false_iff.mpr fun e => by
    have := (isReadOnly_iff _).mp e
    omega
  rw [writeOffset_owned (isLiveCell_eq_false.mpr (by omega)) ho hr ((isOwned_iff _).mpr (.inl hlt)), if_pos rfl]
  unfold State.writeOwned
  rw [if_pos hlt, hat]

theorem writeOffset_gaugeTarget {s : State} (ho : s.path.windowOpen = true) (g : Fin 12) (word : Word) :
    s.writeOffset (offGaugeTarget g) word 0xF = s.writeGauge g word := by
  have hplace : 0x0620 ≤ offGaugeTarget g ∧ offGaugeTarget g < 0x0680 := by
    unfold offGaugeTarget
    omega
  have hwarn : warningAt (offGaugeTarget g) = none := dif_neg (by omega)
  have hat : gaugeTargetAt (offGaugeTarget g) = some g := by
    unfold gaugeTargetAt offGaugeTarget
    rw [dif_pos (by omega), if_pos (by omega)]
    exact congrArg some (Fin.ext (by show (0x0620 + 8 * g.val - 0x0620) / 8 = g.val; omega))
  have hr : isReadOnly (offGaugeTarget g) = false := Bool.eq_false_iff.mpr fun e => by
    have := (isReadOnly_iff _).mp e
    omega
  rw [writeOffset_owned (isLiveCell_eq_false.mpr (by omega)) ho hr ((isOwned_iff _).mpr (by omega)), if_pos rfl]
  unfold State.writeOwned
  rw [if_neg (by omega), if_neg (by omega), if_neg (by omega), hwarn, hat]

/-- A write held for capture where its word is a host's, dropped in PARKED and by a closed window, a violation otherwise. -/
theorem captured_write {c : Instr} {x : HeldAccess} {host : Prop} [Decidable host] {s : State}
    (hc : s.path.windowOpen = false → exec c s = .next s)
    (ho : s.path.windowOpen = true → exec c s = .next
      (if host then if s.mode.mode = .parked then s else s.setPath { s.path with held := some x } else s.violation)) :
    (s.path.windowOpen = true → host → s.mode.mode ≠ .parked → Gives c s [.held] (fun t => t.path.held = some x)) ∧
      (s.path.windowOpen = true → host → s.mode.mode = .parked → exec c s = .next s) ∧
      (s.path.windowOpen = true → ¬ host → Gives c s (.violations :: Part.images) (fun t =>
        t.path.violations = satInc s.path.violations ∧ t.causePending .protection)) ∧
      (s.path.windowOpen = false → exec c s = .next s) := by
  refine ⟨fun hw hh hm => ?_, fun hw hh hm => ?_, fun hw hh => ?_, hc⟩
  · have e := ho hw
    rw [if_pos hh, if_neg hm] at e
    exact ⟨_, e, (setHeld_evolves s (some x)).keeps, rfl⟩
  · rw [ho hw, if_pos hh, if_pos hm]
  · exact gives_violation ((ho hw).trans (congrArg _ (if_neg hh)))

/-! ## Attention (R132, R134) -/

theorem and_ne_zero_iff (a b : BitVec 10) : a &&& b ≠ 0 ↔ ∃ k, k < 10 ∧ b.getLsbD k = true ∧ a.getLsbD k = true := by
  have hzero : a &&& b = 0 ↔ ∀ k, k < 10 → (a.getLsbD k && b.getLsbD k) = false :=
    ⟨fun h k _ => by rw [← BitVec.getLsbD_and, h]; exact BitVec.getLsbD_zero,
      fun h => BitVec.eq_of_getLsbD_eq fun k hk => by rw [BitVec.getLsbD_and, h k hk]; exact BitVec.getLsbD_zero.symm⟩
  rw [ne_eq, hzero]
  simp only [not_forall, Bool.not_eq_false, Bool.and_eq_true, exists_prop, and_comm (a := a.getLsbD _ = true)]

end Sys2Proof.Machine

open Sys2Proof Sys2Proof.Machine

/-- Settles O36: the two commands by the word that each writes. -/
theorem capturedWritesAreHeld : Obligations.CapturedWritesAreHeld := by
  rintro c x host s (⟨n, word, rfl, rfl, hh⟩ | ⟨g, word, rfl, rfl, hh⟩) hr hp
  all_goals obtain rfl := propext hh
  · have e : exec (.hostSignalWrite n word) s = .next (s.writeOffset (offSignal n) word 0xF) :=
      congrArg Host.Outcome.next (live_hostWriteAt hr hp _ word 0xF)
    refine captured_write (fun hw => ?_) fun hw => ?_
    · rw [e, writeOffset_closed (isLiveCell_eq_false.mpr (by unfold offSignal; omega)) hw]
    · rw [e, writeOffset_signal hw]
      rfl
  · have e : exec (.hostGaugeTargetWrite g word) s = .next (s.writeOffset (offGaugeTarget g) word 0xF) :=
      congrArg Host.Outcome.next (live_hostWriteAt hr hp _ word 0xF)
    refine captured_write (fun hw => ?_) fun hw => ?_
    · rw [e, writeOffset_closed (isLiveCell_eq_false.mpr (by unfold offGaugeTarget; omega)) hw]
    · rw [e, writeOffset_gaugeTarget hw]
      rfl

/-- Settles O38: a write outside the window, then the plain words, the violations and the closed window. -/
theorem windowWrites : Obligations.WindowWrites := by
  intro a word lanes s hr hp hs
  refine ⟨fun ha => ?_, fun off ha => ?_⟩
  · refine ⟨s.forward (.write (a.toNat * 4) word lanes), ?_, (forwardWrite_evolves s _ word lanes).keeps, ?_⟩
    · show Host.Outcome.next (s.live _) = _
      rw [live_running hr]
      unfold State.hostWrite
      rw [if_pos hp, ha]
    · rw [Nat.mul_comm]
      exact forwardWrite_forwards hs _ word lanes
  · obtain ⟨hlt, haddr⟩ := windowOffset_place ha
    have e := exec_windowWrite hr hp ha word lanes
    refine ⟨hlt, haddr, fun ho hl hro how hst => ?_, fun h => ?_, fun ho h1 h2 h3 => ?_⟩
    · have hfree : ¬ (offStaging ≤ off ∧ s.ctrl.storing = true) := fun ⟨hstage, hstore⟩ => by
        rcases hst with h | h
        · exact absurd hstage (Nat.not_le.mpr h)
        · simp [Controller.storing, h] at hstore
      rw [writeOffset_plain hl ho hro how, if_neg hfree] at e
      exact ⟨_, e, (forwardWrite_evolves s _ word lanes).keeps, forwardWrite_forwards hs _ word lanes⟩
    · have h4 := windowOffset_aligned ha
      refine gives_violation (e.trans (congrArg _ ?_))
      rcases h with ⟨ho, h⟩ | ⟨hn, hl⟩
      · by_cases hl : isLiveCell off = true
        · rcases (isLiveCell_iff off).mp hl with rfl | rfl | rfl
          all_goals simp at h
        · refine writeOffset_violation ho (Bool.eq_false_iff.mpr hl) ?_ word
          rw [isReadOnly_iff, isOwned_iff]
          rcases h with h | h | hgauge | h | h | h | h | h | h | hstaging | hpartial
          case inr.inr.inl => exact .inr (.inl hgauge)
          case inr.inr.inr.inr.inr.inr.inr.inr.inr.inl => exact .inr (.inr (.inl hstaging))
          case inr.inr.inr.inr.inr.inr.inr.inr.inr.inr => exact .inr (.inr (.inr hpartial))
          all_goals exact .inl (by omega)
      · rw [writeOffset_live hl]
        exact if_neg hn
    · rw [e, writeOffset_closed (isLiveCell_eq_false.mpr ⟨h1, h2, h3⟩) ho]

/-- Settles O44: the enable set is taken before its word is forwarded; the cell is read as a live one. -/
theorem attentionEnable : Obligations.AttentionEnable := by
  refine fun s hr hp hs => ⟨fun word => ?_, ?_⟩
  · have e : exec (.attentionEnableWrite word) s = .next (s.writeEnable word) := by
      refine congrArg Host.Outcome.next ((live_hostWriteAt hr hp offEnable word 0xF).trans ?_)
      rw [writeOffset_live (by decide)]
      rfl
    have forwarded := (forwardWord_evolves (s.setPath { s.path with attnEnable := word.setWidth 10 }) offEnable word).keeps
    have henable : (s.writeEnable word).path.attnEnable = word.setWidth 10 := forwarded .attnEnable (by decide)
    have hpending : (s.writeEnable word).path.attnPending = s.path.attnPending := forwarded .attnPending (by decide)
    have bit (k : Nat) (hk : k < 10) : (s.writeEnable word).path.attnEnable.getLsbD k = word.getLsbD k := by
      rw [henable, BitVec.getLsbD_setWidth, decide_eq_true hk, Bool.true_and]
    refine ⟨_, e, ((setEnable_evolves s _).keeps.mono (by decide)).trans (forwarded.mono (by decide)), bit, ?_,
      forwardWrite_forwards (s := s.setPath { s.path with attnEnable := word.setWidth 10 }) hs _ word 0xF⟩
    unfold State.atn
    rw [decide_eq_true_iff, hpending, and_ne_zero_iff]
    exact exists_congr fun k => and_congr_right fun hk => by rw [bit k hk]
  · have hoff : s.windowOffset (s.windowWordAddr 0x069C) = some 0x069C :=
      windowOffset_windowWordAddr s (by decide) (by decide)
    refine ⟨s.forward (.read (s.sramWord (s.windowAddr 0x069C))), ?_, (forwardRead_evolves s _).keeps, forwardRead_returns s _⟩
    show Host.Outcome.next (s.live _) = _
    rw [live_running hr]
    unfold State.hostRead
    rw [if_pos hp, hoff]
    exact congrArg _ (readOffset_live (.inr (.inl rfl)))

end

section
/-! Commands that are refused, or dropped while one is busy (06, R130, R131). -/

namespace Sys2Proof.Machine

/-! ## What refuses a command (R131, Tables 6-3 and 12-2) -/

theorem beginCommand_unknown {code : Byte} (h : code = 0 ∨ 6 < code.toNat) (s : State) : s.beginCommand code = s.refuse .badCode := by
  have hout : ∀ k, 1 ≤ k → k ≤ 6 → code.toNat ≠ k := by
    rcases h with rfl | h
    · exact fun k hk _ e => absurd (e ▸ hk) (by decide)
    · exact fun k _ hk e => absurd hk (by omega)
  unfold State.beginCommand
  split
  case h_7 => rfl
  all_goals
    next e => exact absurd e (hout _ (by decide) (by decide))

/-- START and PARKED refuse every known command. -/
theorem commandsShut_iff (s : State) : s.commandsShut = true ↔ s.mode.mode = .start ∨ s.mode.mode = .parked := by
  simp [State.commandsShut]

/-- What refuses a known command NOT_ALLOWED. -/
def State.barred (s : State) (code : Byte) : Prop :=
  s.mode.mode = .start ∨ s.mode.mode = .parked ∨ code = 1 ∧ s.svc.level = false ∨
    (code = 2 ∨ code = 3 ∨ code = 6) ∧ s.mode.mode ≠ .run ∨ code = 6 ∧ s.goodNonzero s.profile.ignition = true

theorem barred_notRun {s : State} {code : Byte} (h : s.barred code) (hc : code ≠ 1) (h6 : code ≠ 6) : s.mode.mode ≠ .run := by
  rcases h with h | h | ⟨h, -⟩ | ⟨-, h⟩ | ⟨h, -⟩
  · exact fun e => absurd (h.symm.trans e) nofun
  · exact fun e => absurd (h.symm.trans e) nofun
  · exact absurd h hc
  · exact h
  · exact absurd h h6

theorem barred_shut {s : State} {code : Byte} (h : s.barred code) (hc : code = 4 ∨ code = 5) : s.commandsShut = true := by
  refine (commandsShut_iff s).mpr ?_
  rcases hc with rfl | rfl <;> simpa [State.barred] using h

theorem beginCommand_barred {s : State} {code : Byte} (h1 : 1 ≤ code.toNat) (h6 : code.toNat ≤ 6) (h : s.barred code) :
    s.beginCommand code = s.refuse .notAllowed := by
  have hcode : code = 1 ∨ code = 2 ∨ code = 3 ∨ code = 4 ∨ code = 5 ∨ code = 6 := by bv_omega
  rcases hcode with rfl | rfl | rfl | rfl | rfl | rfl
  · refine if_pos (Bool.or_eq_true_iff.mpr ?_)
    rw [commandsShut_iff, Bool.not_eq_true']
    simpa [State.barred, or_assoc] using h
  · exact if_neg (barred_notRun h (by decide) (by decide))
  · exact if_neg (barred_notRun h (by decide) (by decide))
  · exact if_pos (barred_shut h (.inl rfl))
  · exact if_pos (barred_shut h (.inr rfl))
  · refine if_neg fun ⟨hrun, hoff⟩ => ?_
    simp [State.barred, hrun, hoff] at h

theorem beginCommand_busy {s : State} (hm : s.mode.mode = .run ∨ s.mode.mode = .parking) (hl : s.svc.level = true)
    (hc : s.fm.clearing = true) : s.beginCommand 1 = s.refuse .busy := by
  show s.beginClearFaults = _
  unfold State.beginClearFaults
  rw [commandsShut_eq_false hm, hl, hc]
  rfl

theorem barred_taken {s : State} {code : Byte} (h : s.barred code) (upper : BitVec 24) : (s.commandTaken upper code).barred code := by
  unfold State.barred at h ⊢
  rwa [commandTaken_mode, commandTaken_svc, commandTaken_ignition]

/-! ## A command written -/

/-- Every command of Table 12-2, and an unknown code, is a full write of the command cell. -/
theorem exec_command {c : Instr} {upper : BitVec 24} {code : Byte} {s : State} (hr : s.running) (hp : s.portFree = true)
    (h : c = .clearFaultsCommand upper ∧ code = 1 ∨ c = .profileStore upper ∧ code = 2 ∨ c = .restart upper ∧ code = 3 ∨
      c = .clearCauses upper ∧ code = 4 ∨ c = .clearStats upper ∧ code = 5 ∨ c = .parkNow upper ∧ code = 6 ∨
      c = .windowWrite (s.windowWordAddr 0x0690) (upper ++ code) 0xF ∧ (code = 0 ∨ 6 < code.toNat)) :
    exec c s = .next (s.live fun t => t.hostWriteAt offCommand (commandWord upper code) 0xF) := by
  rcases h with ⟨rfl, rfl⟩ | ⟨rfl, rfl⟩ | ⟨rfl, rfl⟩ | ⟨rfl, rfl⟩ | ⟨rfl, rfl⟩ | ⟨rfl, rfl⟩ | ⟨rfl, -⟩
  case inr.inr.inr.inr.inr.inr =>
    have hoff : s.windowOffset (s.windowWordAddr 0x0690) = some 0x0690 := windowOffset_windowWordAddr s (by decide) (by decide)
    rw [exec_windowWrite hr hp hoff, live_hostWriteAt hr hp]
    rfl
  all_goals rfl

/-- A command refused: its word has gone to SRAM as a plain write. -/
theorem gives_refused {c : Instr} {s : State} {upper : BitVec 24} {code : Byte} {r : Reason}
    (hs : Memory.wf Config.sramErased s.sram = true) (e : exec c s = .next ((s.commandTaken upper code).refuse r)) :
    Gives c s (.command :: .result :: .sram :: .held :: Part.images) (fun t =>
      Forwards s s t (s.windowAddr 0x0690) (upper ++ code) 0xF ∧ t.path.command = none ∧
      t.path.result = { value := .refused, code := code, reason := r } ∧ t.causePending .command) := by
  obtain ⟨hcommand, hresult, hcause⟩ := finishCommand_path (s.commandTaken upper code) .refused r
  have hbusy : (s.commandTaken upper code).path.command = some code := rfl
  rw [hbusy] at hresult
  have ended := (finishCommand_evolves (s.commandTaken upper code) .refused r).keeps
  refine ⟨_, e, ?_, (commandTaken_forwards hs upper code).of_keeps ended (by decide), hcommand, hresult, hcause⟩
  exact ((commandTaken_keeps s upper code).mono (by decide)).trans (ended.mono (by decide))

/-- A command written while one is busy: dropped and counted (R130). -/
theorem writeCommand_overrun {s : State} (h : s.path.command.isSome = true) (word : Word) :
    s.writeCommand word = s.offerChanged (s.setPath { s.path with overruns := satInc s.path.overruns }) [offCountB] := by
  obtain ⟨c, hc⟩ := Option.isSome_iff_exists.mp h
  unfold State.writeCommand
  rw [hc]

end Sys2Proof.Machine

open Sys2Proof Sys2Proof.Machine

/-- Settles O43: the three reasons by what refuses, and the overrun. -/
theorem commandsRefused : Obligations.CommandsRefused := by
  intro c upper code s hc hr hp
  have e := exec_command hr hp hc
  refine ⟨fun reason hidle hreason hs => gives_refused hs ?_, fun hbusy => ?_⟩
  · rw [e, live_command ⟨hr, hp, hidle⟩]
    refine congrArg _ ?_
    rcases hreason with ⟨rfl, h⟩ | ⟨rfl, h1, h6, h⟩ | ⟨rfl, rfl, hm, hl, hf⟩
    · exact beginCommand_unknown h _
    · exact beginCommand_barred h1 h6 (barred_taken h upper)
    · exact beginCommand_busy (by rwa [commandTaken_mode]) (by rwa [commandTaken_svc]) (by rwa [commandTaken_fm])
  · rw [live_hostWriteAt hr hp, writeOffset_live (off := offCommand) (.inl rfl)] at e
    have counted := writeCommand_overrun hbusy (commandWord upper code)
    refine ⟨_, e.trans (congrArg _ counted), ?_, ?_⟩
    · exact ((setOverruns_evolves s _).keeps.mono (by decide)).trans ((offerChanged_evolves s _ _).keeps.mono (by decide))
    · exact (offerChanged_evolves s _ _).keeps .overruns (by decide)

end

section
/-! The alive write: its copy handed to supervision and judged, then its word forwarded (07, R139 to R142; 06, R121). -/

namespace Sys2Proof.Machine

/-! ## The judgement of a handed write (R139) -/

theorem correct_iff (u : Supervision) (k : Byte) : u.correct k = true ↔ u.reference = some (k - 1) := by
  unfold Supervision.correct
  cases u.reference with
  | none => simp
  | some r =>
    rw [decide_eq_true_iff, Option.some.injEq]
    bv_omega

section

variable {u : Supervision} {k : Byte}

theorem judge_base (h : u.reference ≠ some (k - 1)) :
    (u.state ≠ .lost → u.judge k = { u with reference := some k }) ∧
      (u.state = .lost → u.judge k = { u with reference := some k, run := 0, timer := some (.timeout, 0) }) := by
  have hc : ¬ u.correct k = true := mt (correct_iff u k).mp h
  unfold Supervision.judge
  constructor
  · intro hs
    cases he : u.state with
    | starting => exact if_neg hc
    | normal => exact if_neg hc
    | lost => exact absurd he hs
  · intro hs
    rw [hs]
    exact if_neg hc

theorem judge_normal (h : u.reference = some (k - 1)) (hs : u.state = .normal) :
    u.judge k = { u with reference := some k, timer := some (.timeout, 0) } := by
  unfold Supervision.judge
  rw [hs]
  exact if_pos ((correct_iff u k).mpr h)

theorem judge_counts (h : u.reference = some (k - 1)) (hs : u.state = .lost) (hr : u.run < 2) :
    u.judge k = { u with reference := some k, run := u.run + 1, timer := some (.timeout, 0) } := by
  unfold Supervision.judge
  rw [hs]
  exact (if_pos ((correct_iff u k).mpr h)).trans (if_neg (Nat.not_le.mpr hr))

theorem judge_proves (h : u.reference = some (k - 1)) (hs : u.state = .starting ∨ u.state = .lost ∧ 2 ≤ u.run) :
    u.judge k = u.prove k := by
  have hc := (correct_iff u k).mpr h
  unfold Supervision.judge
  rcases hs with hs | ⟨hs, hr⟩
  · rw [hs]
    exact if_pos hc
  · rw [hs]
    exact (if_pos hc).trans (if_pos hr)

end

/-! ## The copy handed over (R137, R145) -/

theorem aliveWrite_parked {s : State} (h : s.mode.mode = .parked) (k : Byte) : s.aliveWrite k = s := if_pos h

theorem aliveWrite_unjudged {s : State} (hp : s.mode.mode ≠ .parked) (h : s.mode.mode = .start ∨ s.inForce = false) (k : Byte) :
    s.aliveWrite k = s.setSup { s.sup with reference := some k } := by
  unfold State.aliveWrite
  rw [if_neg hp, if_pos (h.imp_right fun e => by simpa [State.inForce] using e)]

theorem aliveWrite_judged {s : State} (hm : s.mode.mode = .run ∨ s.mode.mode = .parking) (hf : s.inForce = true) (k : Byte) :
    s.aliveWrite k = s.commitSup (s.sup.judge k) := by
  have hp : s.mode.mode ≠ .parked := fun e => by rw [e] at hm; exact hm.elim nofun nofun
  have hs : s.mode.mode ≠ .start := fun e => by rw [e] at hm; exact hm.elim nofun nofun
  unfold State.aliveWrite
  rw [if_neg hp, if_neg fun h => h.elim hs fun e => e (by simpa [State.inForce] using hf)]

/-- A change of the supervision state sets the cause HOST (R143). -/
theorem commitSup_cause {s : State} {u : Supervision} (h : s.sup.state ≠ u.state) : (s.commitSup u).causePending .host := by
  unfold State.commitSup
  dsimp only
  rw [if_neg h]
  exact setCause_pending _ _

/-! ## The write -/

/-- A forwarded write is judged by the M-port, SRAM and the P-port alone. -/
theorem Forwards.transport {g g' s s' t : State} {a : Nat} {w : Word} {lanes : BitVec 4} (h : Forwards g s t a w lanes)
    (hg : g'.granted ↔ g.granted) (hs : s'.sram = s.sram) (hh : s'.path.held = s.path.held) : Forwards g' s' t a w lanes := by
  unfold Forwards at h ⊢
  simp only [hg, hs, hh]
  exact h

theorem granted_of_keeps {l : List Part} {s t : State} (k : KeepsBut l s t) (hl : ∀ p ∈ [Part.queue, .inFlight], p ∉ l) :
    t.granted ↔ s.granted := by
  have hf : t.path.inFlight = s.path.inFlight := k .inFlight (hl _ (by decide))
  obtain ⟨hq, -, hu⟩ := k .queue (hl _ (by decide))
  unfold State.granted
  rw [hf, hq, hu]

/-- What an alive write leaves: what its copy made of supervision, and its word on the way to SRAM. -/
theorem writeAlive_leaves {s : State} (hs : Memory.wf Config.sramErased s.sram = true) (word : Word) :
    Forwards (s.writeAlive word) s (s.writeAlive word) (s.windowAddr 0x06A0) word 0xF ∧
      (s.writeAlive word).sup = (s.aliveWrite (word.setWidth 8)).sup ∧
      (s.writeAlive word).path.attnPending = (s.aliveWrite (word.setWidth 8)).path.attnPending := by
  have handed := (aliveWrite_evolves s (word.setWidth 8)).keeps
  have hleft : s.writeAlive word = ((s.aliveWrite (word.setWidth 8)).forwardWord offAlive word).takeWork := rfl
  rw [hleft]
  generalize s.aliveWrite (word.setWidth 8) = u at handed
  have rest := ((forwardWord_evolves u offAlive word).keeps.mono (k := Part.sram :: .held :: Part.work) (by decide)).trans
    ((takeWork_evolves _).keeps.mono (by decide))
  have hsram : s.sram = u.sram := (handed .sram (by decide) : u.sram = s.sram).symm
  have hheld : s.path.held = u.path.held := (handed .held (by decide) : u.path.held = s.path.held).symm
  have haddr : s.windowAddr 0x06A0 = u.windowAddr 0x06A0 := (windowAddr_of_straps (handed .straps (by decide)) _).symm
  refine ⟨?_, rest .supervision (by decide), rest .attnPending (by decide)⟩
  have forwarded : Forwards u u (u.forwardWord offAlive word) (u.windowAddr 0x06A0) word 0xF :=
    forwardWrite_forwards (hsram ▸ hs) (u.windowAddr 0x06A0) word 0xF
  rw [haddr]
  exact (forwarded.of_keeps (takeWork_evolves _).keeps (by decide)).transport (granted_of_keeps rest (by decide)) hsram hheld

end Sys2Proof.Machine

open Sys2Proof Sys2Proof.Machine

/-- Settles O45: what the handed copy makes of supervision, by mode and by the rule of the state. -/
theorem aliveWrites : Obligations.AliveWrites := by
  rintro word k s rfl hr hp hs
  have e : exec (.hostAliveWrite word) s = .next (s.writeAlive word) := by
    refine congrArg Host.Outcome.next ((live_hostWriteAt hr hp offAlive word 0xF).trans ?_)
    rw [writeOffset_live (off := offAlive) (by decide)]
    rfl
  obtain ⟨forwarded, hsup, hattn⟩ := writeAlive_leaves hs word
  refine ⟨_, e, ?_, forwarded, fun hm => ?_, fun hm hu => ?_, fun hm hf => ?_⟩
  · refine KeepsBut.trans ((aliveWrite_evolves s (word.setWidth 8)).keeps.mono (by decide)) ?_
    refine KeepsBut.trans ?_ ((takeWork_evolves _).keeps.mono (by decide))
    exact (forwardWord_evolves (s.aliveWrite (word.setWidth 8)) offAlive word).keeps.mono (by decide)
  · rw [hsup, aliveWrite_parked hm]
  · rw [hsup, aliveWrite_unjudged hm hu]
    rfl
  · unfold State.causePending
    rw [hsup, hattn, aliveWrite_judged hm hf, commitSup_sup]
    refine ⟨fun h => (judge_base h).1, fun h => (judge_base h).2, judge_normal, judge_counts, fun h hst => ?_⟩
    rw [judge_proves h hst]
    refine ⟨rfl, commitSup_cause fun he => ?_⟩
    rcases hst with hst | ⟨hst, -⟩ <;> exact absurd (hst.symm.trans he) nofun

end

section
/-! What the controller takes at the end of a command, and a park flush that it may complete; the validation of a store (11, R183, R187,
R192; 06, R129). -/

namespace Sys2Proof.Machine

/-! ## Work taken, and a flush that is or is not complete (R183, R187) -/

/-- The work that leaves the controller free has taken nothing. -/
theorem takeWork_free {s : State} (h : s.takeWork.ctrl.operation = .none) : s.takeWork = s := by
  have slot {t : State} (e : t.takeSlot.ctrl.operation = .none) : t.takeSlot = t := by
    unfold State.takeSlot at e ⊢
    split
    · rfl
    · next hq =>
      rw [hq] at e
      exact absurd e nofun
  have next {t : State} (e : t.nextWork.ctrl.operation = .none) : t.nextWork = t := by
    by_cases hfree : t.ctrl.operation = .none ∧ t.fm.loaded = true
    · by_cases hst : ∃ p n, t.ctrl.store = .waiting p n
      · obtain ⟨p, n, hst⟩ := hst
        rw [nextWork_store hfree hst] at e
        exact absurd e nofun
      · rw [nextWork_ranked hfree fun p n x => hst ⟨p, n, x⟩] at e ⊢
        unfold State.rankedWork at e ⊢
        by_cases hr : t.ctrl.restartWaiting = true
        · rw [if_pos hr] at e
          exact absurd e nofun
        · by_cases hc : t.ctrl.countersPending = true
          · rw [if_neg hr, if_pos hc] at e
            exact absurd e nofun
          · rw [if_neg hr, if_neg hc] at e ⊢
            exact slot e
    · exact nextWork_busy hfree
  have reader {t : State} (e : t.serveReader.ctrl.operation = .none) : t.serveReader = t := by
    unfold State.serveReader at e ⊢
    split
    · next ho =>
      by_cases hg : t.readerGranted = true
      · simp only [ho, hg, if_true] at e
        exact absurd e nofun
      · exact if_neg hg
    all_goals rfl
  have hserved := reader h
  unfold State.takeWork at h ⊢
  rw [hserved] at h ⊢
  exact next h

/-- Something that waits for the controller keeps a park flush open: taken or not, it is not done. -/
def State.flushHeld (s : State) : Prop := s.mode.mode = .parking → s.fm.writeQueue ≠ [] ∨ s.ctrl.countersPending = true

theorem takeWork_flushHeld {s : State} (h : s.flushHeld) : s.takeWork.flushDone = false := by
  by_cases ho : s.takeWork.ctrl.operation = .none
  · rw [takeWork_free ho]
    unfold State.flushDone
    by_cases hm : s.mode.mode = .parking
    · rcases h hm with hq | hc
      · simp [hq]
      · simp [hc]
    · simp [hm]
  · simp [State.flushDone, ho]

theorem workAndFlush_held {s : State} (h : s.flushHeld) : s.workAndFlush = s.takeWork.takeWork := by
  unfold State.workAndFlush
  rw [checkFlush_waits (takeWork_flushHeld h)]

/-- What the end of a command may change: the controller's work, and a flush completion where nothing holds it. -/
theorem workAndFlush_parts {s : State} {parts : List Part} (h : s.flushHeld ∧ parts = Part.work ∨ parts = Part.workFlushed) :
    KeepsBut parts s s.workAndFlush := by
  rcases h with ⟨h, rfl⟩ | rfl
  · rw [workAndFlush_held h]
    exact ((takeWork_evolves s).trans (takeWork_evolves _)).keeps
  · exact (workAndFlush_evolves s).keeps

theorem flushHeld_of_keeps {l : List Part} {s t : State} (k : KeepsBut l s t)
    (hl : ∀ p ∈ [Part.opMode, .writeQueue, .countersPending], p ∉ l) (h : s.flushHeld) : t.flushHeld := by
  have hm : t.mode.mode = s.mode.mode := k .opMode (hl _ (by decide))
  have hq : t.fm.writeQueue = s.fm.writeQueue := k .writeQueue (hl _ (by decide))
  have hc : t.ctrl.countersPending = s.ctrl.countersPending := k .countersPending (hl _ (by decide))
  unfold State.flushHeld at h ⊢
  rwa [hm, hq, hc]

theorem takeWork_alerts (s : State) : Alerts s s.takeWork := .of (takeWork_evolves s) (by decide)

theorem enterParked_alerts (s : State) : Alerts s s.enterParked := by
  have parked : Alerts s (s.offerStatus s.unitsParked) := .after (offerStatus_alerts s s.unitsParked) rfl
  exact .iteThen parked (setCause_alerts _ _)

theorem returnToRun_alerts (s : State) : Alerts s s.returnToRun := by
  unfold State.returnToRun
  refine .trans ?_ (judgeIgnitionAtRun_alerts _)
  refine .trans ?_ (enterRunIndication_alerts _)
  refine .trans ?_ (resumeWarnings_alerts _)
  exact .trans (t := s.offerStatus (s.setMode { s.mode with mode := .run, wakeCause := s.mode.wakePending, wakePending := {} }))
    (.after (offerStatus_alerts _ _) rfl) (setCause_alerts _ .wake)

theorem checkFlush_alerts (s : State) : Alerts s s.checkFlush := by
  unfold State.checkFlush
  exact .ite (.ite (enterParked_alerts s) (.after (returnToRun_alerts _) rfl)) .refl

/-- The end of a command removes no pending cause. -/
theorem workAndFlush_alerts (s : State) : Alerts s s.workAndFlush :=
  ((takeWork_alerts s).trans (checkFlush_alerts _)).trans (takeWork_alerts _)

/-- The controller begins no store at the end of a command. -/
theorem workAndFlush_storeless {s : State} (h : s.ctrl.store = .none) : s.workAndFlush.ctrl.store = .none :=
  takeWork_noStore (((checkFlush_evolves _).keeps .store (by decide)).trans (takeWork_noStore h))

/-! ## The validation of a store (R192) -/

/-- The stage of the store replaced. -/
def State.withStore (s : State) (x : Store) : State := s.setCtrl { s.ctrl with store := x }

theorem withStore_keeps (s : State) (x : Store) : KeepsBut [.store] s (s.withStore x) := (setStore_evolves s x).keeps

/-- A valid staging image waits for the controller. -/
theorem validateStore_valid {s : State} (h : validProfile s.stagingByte = true) : s.validateStore =
    s.withStore (.waiting (readProfile s.stagingByte) (pagesOf (imageLength s.stagingByte))) := if_pos h

theorem validateStore_invalid {s : State} (h : validProfile s.stagingByte = false) :
    s.validateStore = (s.withStore .none).finishCommand .refused .profileInvalid := if_neg (by rw [h]; nofun)

/-- The free controller takes a store that waits and reads its page 0, which the free M-port gives at once (R192). -/
theorem takeWork_store {s : State} (h : s.ctrl.operation = .none ∧ s.fm.loaded = true) {p : Profile} {n : Nat}
    (hs : s.ctrl.store = .waiting p n) (hg : s.readerGranted = true) :
    s.takeWork = s.setCtrl { s.ctrl with operation := .storeWrite p n 0 (s.storePage n 0) false, store := .writing } := by
  unfold State.takeWork
  rw [nextWork_store h hs]
  exact if_pos hg

/-- A store that waits for the free controller has its first page written. -/
theorem takeWork_storeTaken {s : State} (h : s.ctrl.operation = .none ∧ s.fm.loaded = true) (hg : s.readerGranted = true) (p : Profile)
    (n : Nat) : (s.withStore (.waiting p n)).takeWork.takeWork =
      s.setCtrl { s.ctrl with operation := .storeWrite p n 0 (markedPage (s.profilePage 0)) false, store := .writing } := by
  have first : (s.withStore (.waiting p n)).takeWork =
      s.setCtrl { s.ctrl with operation := .storeWrite p n 0 (markedPage (s.profilePage 0)) false, store := .writing } :=
    takeWork_store (s := s.withStore (.waiting p n)) h rfl hg
  rw [first]
  exact takeWork_busy Operation.noConfusion fun _ _ _ => Operation.noConfusion

/-- A store waits for a controller at work. -/
theorem takeWork_storeWaits {s : State} (ho : s.ctrl.operation ≠ .none) (hr : ∀ p n k, s.ctrl.operation ≠ .storeRead p n k)
    (x : Store) : (s.withStore x).takeWork.takeWork = s.withStore x := by
  have stays : (s.withStore x).takeWork = s.withStore x := takeWork_busy ho hr
  rw [stays, stays]

/-- The reader that another access keeps waiting does not read the staging image (R129). -/
theorem readerGranted_eq_false {s : State} (h : s.path.inFlight ≠ none ∨ s.path.queue ≠ [] ∨ s.path.held ≠ none) :
    s.readerGranted = false := by
  refine Bool.eq_false_iff.mpr fun hg => ?_
  obtain ⟨hf, hq, hh⟩ := (readerGranted_iff s).mp hg
  exact h.elim (absurd hf) (Or.rec (absurd hq) (absurd hh))

theorem exec_validation {s : State} (hr : s.running) (hst : s.ctrl.store = .validating) :
    exec .profileStoreValidation s = .next (if s.readerGranted then s.validateStore.workAndFlush else s) := by
  refine (congrArg Host.Outcome.next (live_running hr _)).trans ?_
  rw [hst]
  rfl

end Sys2Proof.Machine

open Sys2Proof Sys2Proof.Machine

/-- Settles O51: the reader that waits, a valid image with a free and with a busy controller, an invalid image. -/
theorem storeValidation : Obligations.StoreValidation := by
  intro s hr hst
  have e := exec_validation hr hst
  refine ⟨fun hbusy => ?_, fun hf hq hh hvalid hheld => ?_, fun parts hf hq hh hinvalid hparts => ?_⟩
  · rw [e, readerGranted_eq_false hbusy]
    rfl
  all_goals
    have hg : s.readerGranted = true := (readerGranted_iff s).mpr ⟨hf, hq, hh⟩
    rw [hg, if_pos rfl] at e
  · have hstage := withStore_keeps s (.waiting (readProfile s.stagingByte) (pagesOf (imageLength s.stagingByte)))
    rw [validateStore_valid hvalid, workAndFlush_held (flushHeld_of_keeps hstage (by decide) hheld)] at e
    refine ⟨_, e, (hstage.mono (by decide)).trans ((takeWork_evolves _).trans (takeWork_evolves _)).keeps, fun ho hl => ?_,
      fun ho hread => ?_⟩
    · rw [takeWork_storeTaken ⟨ho, hl⟩ hg]
      exact ⟨rfl, rfl⟩
    · rw [takeWork_storeWaits ho hread]
      exact ⟨rfl, rfl⟩
  · rw [validateStore_invalid hinvalid] at e
    obtain ⟨hcommand, hresult, hcause⟩ := finishCommand_path (s.withStore .none) .refused .profileInvalid
    have ended := (finishCommand_evolves (s.withStore .none) .refused .profileInvalid).keeps
    have hstore : ((s.withStore .none).finishCommand .refused .profileInvalid).ctrl.store = .none := ended .store (by decide)
    have k := ((withStore_keeps s .none).mono (k := .store :: .command :: .result :: Part.images) (by decide)).trans
      (ended.mono (by decide))
    generalize State.finishCommand _ _ _ = u at *
    have hheld := hparts.imp (fun ⟨h, hp⟩ => And.intro (flushHeld_of_keeps k (by decide) h) hp) And.right
    have hflushed := (workAndFlush_evolves u).keeps
    refine ⟨_, e, ?_, workAndFlush_storeless hstore, (hflushed .command (by decide)).trans hcommand,
      (hflushed .result (by decide)).trans hresult, (workAndFlush_alerts u).pending _ hcause⟩
    have hwork : Part.store ∈ parts := by
      rcases hparts with ⟨-, rfl⟩ | ⟨-, rfl⟩ <;> decide
    refine (k.mono fun p hp => ?_).trans ((workAndFlush_parts hheld).mono fun p hp => List.mem_append_right _ hp)
    rcases List.mem_cons.mp hp with rfl | hp
    · exact List.mem_append_right _ hwork
    · exact List.mem_append_left _ hp

end

section
/-! The image writer: an entry's write granted, its end, and the end of image initialisation (06, R126 to R129; 11, R191, R194). -/

namespace Sys2Proof.Machine

/-! ## The grant (R126, R129) -/

theorem grantImage_writes {s : State} {e : Nat × Word} {rest : List (Nat × Word)} (hf : s.path.inFlight = none)
    (hq : s.path.queue = e :: rest) (h : s.path.urgent = true ∨ s.path.held = none) :
    s.grantImage = (s.setPath { s.path with inFlight := some e }).writeSram (s.windowAddr e.1) e.2 0xF := by
  unfold State.grantImage
  rw [hf, hq]
  exact if_pos (by simpa using h)

/-- A host access goes first. -/
theorem grantImage_waits {s : State} (hu : s.path.urgent = false) (hh : s.path.held.isSome = true) : s.grantImage = s := by
  unfold State.grantImage
  split
  · exact if_neg (by simp [hu, Option.isSome_iff_ne_none.mp hh])
  all_goals rfl

/-! ## The end of a write (R126, R127) -/

section

variable {p : MemoryPath} {e h : Nat × Word} {rest : List (Nat × Word)}

theorem writeDone_leaves (hq : p.queue = e :: rest) : p.writeDone e =
    { p.withQueue rest with inFlight := none, awaited := p.awaited.map (fun a => a.filter (fun o => o ≠ e.1)) } := by
  unfold MemoryPath.writeDone
  rw [hq]
  exact if_pos rfl

/-- A newer word has replaced the one written. -/
theorem writeDone_stays (hq : p.queue = h :: rest) (he : h ≠ e) : p.writeDone e = { p with inFlight := none } := by
  unfold MemoryPath.writeDone
  rw [hq]
  exact if_neg he

theorem writeDone_resync (p : MemoryPath) (e : Nat × Word) : (p.writeDone e).resync = p.resync := by
  rcases writeDone_cases p e with hd | ⟨rest, -, hd⟩ <;> rw [hd]
  rfl

theorem writeDone_free (p : MemoryPath) (e : Nat × Word) : (p.writeDone e).inFlight = none := by
  rcases writeDone_cases p e with hd | ⟨rest, -, hd⟩ <;> rw [hd]

theorem writeDone_unawaited (ha : p.awaited = none) : (p.writeDone e).awaited = none := by
  rcases writeDone_cases p e with hd | ⟨rest, -, hd⟩ <;> rw [hd]
  · exact ha
  · exact congrArg (Option.map _) ha

end

theorem imageWord_writeDone (s : State) (e : Nat × Word) (o : Nat) :
    (s.setPath (s.path.writeDone e)).imageWord o = s.imageWord o := by
  rcases writeDone_cases s.path e with hd | ⟨rest, -, hd⟩ <;> rw [hd] <;> rfl

/-- The flag is clear once the queue has come down to 8 entries. -/
theorem urgentAfter_calm {n : Nat} (h : n ≤ 8) (u : Bool) : urgentAfter u (n + 1) n = false := by
  have hcalm : n ≤ Config.calmAt := h
  have hfew : ¬ Config.urgentAt ≤ n := by
    unfold Config.urgentAt
    omega
  unfold urgentAfter
  rw [if_neg (Nat.ne_of_lt (Nat.lt_succ_self n)), if_neg hfew, if_pos hcalm]

theorem urgentAfter_stays {n : Nat} {u : Bool} (h8 : 8 < n) (h : n < 24 ∨ u = true) : urgentAfter u (n + 1) n = u := by
  have hmany : ¬ n ≤ Config.calmAt := Nat.not_le.mpr h8
  unfold urgentAfter
  rw [if_neg (Nat.ne_of_lt (Nat.lt_succ_self n)), if_neg hmany, ite_eq_right_iff]
  exact fun h24 => (h.resolve_left (Nat.not_lt.mpr h24)).symm

/-- Marked words bring the queue up to 8 entries, which leaves the flag. -/
theorem requeue_urgent {s : State} (h : 8 ≤ s.path.queue.length ∨ s.path.urgent = false) :
    s.requeue.path.urgent = s.path.urgent := by
  show urgentAfter s.path.urgent s.path.queue.length (s.path.queue ++ _).length = s.path.urgent
  rw [List.length_append, List.length_map, List.length_take]
  unfold urgentAfter Config.calmAt Config.urgentAt
  split
  · rfl
  · next hgrew =>
    have hfew : s.path.queue.length < 8 := by omega
    rw [if_neg (by omega), if_pos (by omega)]
    exact (h.resolve_left (Nat.not_le.mpr hfew)).symm

/-- The write of `e` ended: the entry has left the queue, unless a newer word replaced it, and marked words have followed. -/
def State.entryWritten (s : State) (e : Nat × Word) : State := (s.setPath (s.path.writeDone e)).requeue

theorem imageWritten_eq {s : State} {e : Nat × Word} (hf : s.path.inFlight = some e) : s.imageWritten =
    if (s.entryWritten e).path.initialised then (s.entryWritten e).endImages else s.entryWritten e := by
  unfold State.imageWritten
  rw [hf]
  rfl

theorem exec_imageWriteComplete {s : State} {e : Nat × Word} (hr : s.running) (hf : s.path.inFlight = some e) :
    exec .imageWriteComplete s = .next s.imageWritten.grantForwarded.workAndFlush := by
  simp only [exec, execImageWriteComplete, live_running hr, hf, Option.isSome_some, if_true]

theorem entryWritten_keeps (s : State) (e : Nat × Word) : KeepsBut [.awaited, .queue, .inFlight] s (s.entryWritten e) :=
  ((writeDone_evolves s e).keeps.mono (by decide)).trans ((requeue_evolves _).keeps.mono (by decide))

theorem entryWritten_free (s : State) (e : Nat × Word) : (s.entryWritten e).path.inFlight = none :=
  ((requeue_evolves (s.setPath (s.path.writeDone e))).keeps .inFlight (by decide)).trans (writeDone_free s.path e)

theorem entryWritten_unawaited {s : State} {e : Nat × Word} (ha : s.path.awaited = none) :
    (s.entryWritten e).path.awaited = none := congrArg (Option.map _) (writeDone_unawaited ha)

/-- Queue and marks, `q` being the queue without the entry that left. -/
theorem entryWritten_queue {s : State} {e : Nat × Word} {q : List (Nat × Word)} (hq : (s.path.writeDone e).queue = q) :
    (s.entryWritten e).path.queue = q ++ (s.path.resync.take (8 - q.length)).map (fun o => (o, s.imageWord o)) ∧
      (s.entryWritten e).path.resync = s.path.resync.drop (8 - q.length) := by
  subst hq
  have hword : (s.setPath (s.path.writeDone e)).imageWord = s.imageWord := funext (imageWord_writeDone s e)
  rw [← writeDone_resync s.path e, ← hword]
  exact ⟨rfl, rfl⟩

/-- The end of a write while nothing is awaited, whose head entry is `h` (R126, R127). -/
theorem entryWritten_ends {s : State} {e h : Nat × Word} {rest : List (Nat × Word)} (hq : s.path.queue = h :: rest) :
    ∃ q, q = (if h = e then rest else h :: rest) ∧
      (s.entryWritten e).path.queue = q ++ (s.path.resync.take (8 - q.length)).map (fun o => (o, s.imageWord o)) ∧
      (s.entryWritten e).path.resync = s.path.resync.drop (8 - q.length) ∧
      (h = e → rest.length ≤ 8 → (s.entryWritten e).path.urgent = false) ∧
      (h = e → 8 < rest.length → rest.length < 24 ∨ s.path.urgent = true →
        (s.entryWritten e).path.urgent = s.path.urgent) ∧
      (h ≠ e → 8 ≤ q.length ∨ s.path.urgent = false → (s.entryWritten e).path.urgent = s.path.urgent) := by
  have marked : 8 ≤ (s.path.writeDone e).queue.length ∨ (s.path.writeDone e).urgent = false →
      (s.entryWritten e).path.urgent = (s.path.writeDone e).urgent := requeue_urgent (s := s.setPath (s.path.writeDone e))
  refine ⟨_, rfl, ?_⟩
  by_cases he : h = e
  · subst he
    have hleft := writeDone_leaves hq
    have hqueue : (s.path.writeDone h).queue = rest := by rw [hleft]; rfl
    have hurgent : (s.path.writeDone h).urgent = urgentAfter s.path.urgent (rest.length + 1) rest.length := by
      rw [hleft]
      exact congrArg (urgentAfter s.path.urgent · rest.length) (by rw [hq]; rfl)
    rw [hqueue, hurgent] at marked
    rw [if_pos rfl]
    obtain ⟨hwords, hmarks⟩ := entryWritten_queue hqueue
    refine ⟨hwords, hmarks, fun _ h8 => ?_, fun _ h8 h24 => ?_, fun hne => absurd rfl hne⟩
    · have calm := urgentAfter_calm h8 s.path.urgent
      exact (marked (.inr calm)).trans calm
    · exact (marked (.inl (Nat.le_of_lt h8))).trans (urgentAfter_stays h8 h24)
  · have hstays := writeDone_stays hq he
    have hqueue : (s.path.writeDone e).queue = h :: rest := by rw [hstays]; exact hq
    have hurgent : (s.path.writeDone e).urgent = s.path.urgent := by rw [hstays]
    rw [hqueue, hurgent] at marked
    rw [if_neg he]
    obtain ⟨hwords, hmarks⟩ := entryWritten_queue hqueue
    exact ⟨hwords, hmarks, fun e => absurd e he, fun e => absurd e he, fun _ => marked⟩

/-! ## A host access that waits (R129) -/

/-- A waiting access is served by the M-port, SRAM and the returned word alone. -/
theorem WaitingServed.transport {k l : List Part} {s' s t t' : State} (h : WaitingServed s t) (before : KeepsBut k s' s)
    (hk : ∀ p ∈ Part.forwarded, p ∉ k) (after : KeepsBut l t t') (hl : ∀ p ∈ .queue :: .inFlight :: Part.forwarded, p ∉ l) :
    WaitingServed s' t' := by
  have held : s.path.held = s'.path.held := before .held (hk _ (by decide))
  have data : s.path.readData = s'.path.readData := before .readData (hk _ (by decide))
  have memory : s.sram = s'.sram := before .sram (hk _ (by decide))
  have held' : t'.path.held = t.path.held := after .held (hl _ (by decide))
  have data' : t'.path.readData = t.path.readData := after .readData (hl _ (by decide))
  have memory' : t'.sram = t.sram := after .sram (hl _ (by decide))
  have hg : t'.granted ↔ t.granted := granted_of_keeps after fun p hp => hl p (by
    revert p
    decide)
  obtain ⟨hread, hwrite, hwaits⟩ := h
  rw [held, data, memory] at hwaits
  simp only [held, data, memory] at hread hwrite
  constructor
  · rw [hg, held', data', memory']
    exact hread
  · rw [hg, held', data', memory']
    exact hwrite
  · rw [hg, held', data', memory']
    exact hwaits

theorem grantForwarded_idle {s : State} (h : s.path.held = none) : s.grantForwarded = s := by
  unfold State.grantForwarded
  rw [h]

/-! ## The end of image initialisation (R128, R191, R194) -/

/-- The ignition judged in RUN leaves the device in RUN or PARKING. -/
theorem judgeIgnitionAtRun_started {s : State} (hm : s.mode.mode = .run) : s.judgeIgnitionAtRun.mode.mode ≠ .start := by
  obtain ⟨timer, h | ⟨-, h⟩ | ⟨-, -, h⟩⟩ := judgeIgnition_mode (s.setMode { s.mode with ignition := .unknown })
  · exact fun e => absurd (hm.symm.trans ((congrArg ModeUnit.mode h).symm.trans e)) nofun
  · exact fun e => absurd (hm.symm.trans ((congrArg ModeUnit.mode h).symm.trans e)) nofun
  · exact fun e => absurd ((congrArg ModeUnit.mode h).symm.trans e) nofun

/-- The entry into RUN with its service address taken, before warnings and indication are evaluated. -/
def State.runAddressed (s : State) : State :=
  let s1 := s.offerStatus (s.setMode { s.mode with mode := .run })
  s1.setSvc { s1.svc with address := s1.profile.address }

theorem runAddressed_enters (s : State) :
    s.runAddressed.mode.mode = .run ∧ s.runAddressed.svc.address = s.profile.address := by
  have status : KeepsBut Part.images (s.setMode { s.mode with mode := .run })
      (s.offerStatus (s.setMode { s.mode with mode := .run })) := (offerStatus_evolves s _).keeps
  have hprofile : (s.offerStatus (s.setMode { s.mode with mode := .run })).profile = s.profile := status .profile (by decide)
  exact ⟨status .opMode (by decide), congrArg Profile.address hprofile⟩

theorem enterRunFromStart_eq (s : State) :
    s.enterRunFromStart = s.runAddressed.evalAllWarnings.enterRunIndication.startGrace.judgeIgnitionAtRun := rfl

theorem enterRunFromStart_ends (s : State) :
    s.enterRunFromStart.mode.mode ≠ .start ∧ s.enterRunFromStart.svc.address = s.profile.address := by
  rw [enterRunFromStart_eq]
  obtain ⟨hrun, haddress⟩ := runAddressed_enters s
  generalize s.runAddressed = u at *
  have indicated : KeepsBut (.supervision :: .chime :: Part.evaluation) u u.evalAllWarnings.enterRunIndication.startGrace :=
    (((evalAllWarnings_evolves _).keeps.mono (by decide)).trans ((enterRunIndication_evolves _).keeps.mono (by decide))).trans
      ((startGrace_evolves _).keeps.mono (by decide))
  have hmode := (indicated .opMode (by decide)).trans hrun
  have hkept := (address_of_keeps indicated (by decide)).trans haddress
  exact ⟨judgeIgnitionAtRun_started hmode, (address_of_keeps (judgeIgnitionAtRun_evolves _).keeps (by decide)).trans hkept⟩

theorem endRestartSup_alerts (s : State) : Alerts s s.endRestartSup := by
  have reported : Alerts s (if s.sup.state = .lost then s.appear { kind := .hostLost, subject := 0 } else s) :=
    .ite (appear_alerts s _) .refl
  unfold State.endRestartSup
  generalize (if s.sup.state = .lost then s.appear { kind := .hostLost, subject := 0 } else s) = t at reported ⊢
  refine .iteThen (reported.trans ?_) (.of (startGrace_evolves _) (by decide))
  split
  · exact .ite (.ite (.same rfl) (commitSup_alerts _ _)) .refl
  all_goals exact .refl

theorem finishCommand_alerts (s : State) (v : ResultValue) (r : Reason) : Alerts s (s.finishCommand v r) := by
  unfold State.finishCommand
  refine .trans ?_ (setCause_alerts _ _)
  exact .after (offer_alerts _ _) rfl

/-- The end of a restart with its cause set and its service address taken. -/
def State.restartAddressed (s : State) : State := (s.setCause .profile).setSvc { s.svc with address := s.profile.address }

/-- The end of a restart before its command is DONE. -/
def State.restartSupervised (s : State) : State :=
  (if s.restartAddressed.mode.mode = .run then s.restartAddressed.evalAllWarnings.enterRunIndication
    else s.restartAddressed).endRestartSup

theorem endRestart_eq (s : State) : s.endRestart = s.restartSupervised.complete := rfl

theorem restartSupervised_alerts (s : State) : Alerts s.restartAddressed s.restartSupervised :=
  .trans (.ite ((evalWarnings_alerts _ _).trans (enterRunIndication_alerts _)) .refl) (endRestartSup_alerts _)

theorem restartSupervised_evolves (s : State) :
    Evolves (.supervision :: Part.faults) s.restartAddressed s.restartSupervised := by
  refine .trans (.ite ?_ .refl) (endRestartSup_evolves _)
  exact ((evalAllWarnings_evolves _).mono (by decide)).trans ((enterRunIndication_evolves _).mono (by decide))

theorem endRestart_ends (s : State) :
    s.endRestart.mode.mode = s.mode.mode ∧ s.endRestart.svc.address = s.profile.address ∧ s.endRestart.causePending .profile ∧
      s.endRestart.causePending .command ∧ s.endRestart.path.command = none ∧ s.endRestart.path.result.value = .done := by
  have kept : KeepsBut (.supervision :: .command :: .result :: Part.faults) s.restartAddressed s.endRestart :=
    ((restartSupervised_evolves s).keeps.mono (by decide)).trans ((complete_evolves _).keeps.mono (by decide))
  have hprofile : s.restartAddressed.causePending .profile := setCause_pending s .profile
  have alerted : Alerts s.restartAddressed s.endRestart := (restartSupervised_alerts s).trans (finishCommand_alerts _ _ _)
  obtain ⟨hcommand, hresult, hcause⟩ := finishCommand_path s.restartSupervised .done .none
  exact ⟨kept .opMode (by decide), address_of_keeps kept (by decide), alerted.pending _ hprofile, hcause, hcommand,
    congrArg Result.value hresult⟩

/-- What `t` shows of an image initialisation that ended, with its profile's address and the mode that stood before it. -/
structure ImagesEnded (address : Option Byte) (mode : Mode) (t : State) : Prop where
  window : t.path.windowOpen = true
  awaited : t.path.awaited = none
  started : t.mode.mode ≠ .start
  address : t.svc.address = address
  restarted : mode ≠ .start →
    t.causePending .profile ∧ t.causePending .command ∧ t.path.command = none ∧ t.path.result.value = .done

/-- The window open, nothing awaited, before START or the restart ends. -/
def State.windowOpened (s : State) : State := s.offerStatus (s.setPath { s.path with windowOpen := true, awaited := none })

theorem endImages_eq (s : State) : s.endImages =
    if s.windowOpened.mode.mode = .start then s.windowOpened.enterRunFromStart else s.windowOpened.endRestart := rfl

theorem windowOpened_opens (s : State) : s.windowOpened.path.windowOpen = true ∧ s.windowOpened.path.awaited = none ∧
    s.windowOpened.mode.mode = s.mode.mode ∧ s.windowOpened.profile = s.profile := by
  have status : KeepsBut Part.images (s.setPath { s.path with windowOpen := true, awaited := none }) s.windowOpened :=
    (offerStatus_evolves s _).keeps
  exact ⟨status .window (by decide), status .awaited (by decide), status .opMode (by decide), status .profile (by decide)⟩

theorem endImages_ends (s : State) : ImagesEnded s.profile.address s.mode.mode s.endImages := by
  obtain ⟨hwindow, hawaited, hmode, hprofile⟩ := windowOpened_opens s
  rw [endImages_eq, ← hmode, ← hprofile]
  generalize s.windowOpened = u at hwindow hawaited ⊢
  split
  · next hm =>
    obtain ⟨hstarted, haddress⟩ := enterRunFromStart_ends u
    have kept := (enterRunFromStart_evolves u).keeps
    exact ⟨(kept .window (by decide)).trans hwindow, (kept .awaited (by decide)).trans hawaited, hstarted, haddress,
      absurd hm⟩
  · next hm =>
    obtain ⟨hkept, haddress, hends⟩ := endRestart_ends u
    have kept := (endRestart_evolves u).keeps
    exact ⟨(kept .window (by decide)).trans hwindow, (kept .awaited (by decide)).trans hawaited,
      fun e => hm (hkept.symm.trans e), haddress, fun _ => hends⟩

theorem returnToRun_started (s : State) : s.returnToRun.mode.mode ≠ .start := by
  obtain ⟨-, -, h | ⟨h, -⟩⟩ := returnToRun_mode s <;> exact fun e => absurd (h.symm.trans e) nofun

theorem returnToRun_address (s : State) : s.returnToRun.svc.address = s.svc.address :=
  address_of_keeps (returnToRun_evolves s).keeps (by decide)

theorem unitsParked_stops (s : State) : s.unitsParked.mode.mode = .parked ∧ s.unitsParked.svc.address = s.svc.address := by
  unfold State.unitsParked
  exact ⟨rfl, rfl⟩

/-- A flush completion leaves the service address, and does not begin the START sequence. -/
theorem checkFlush_ended {s : State} (h : s.mode.mode ≠ .start) :
    s.checkFlush.mode.mode ≠ .start ∧ s.checkFlush.svc.address = s.svc.address := by
  by_cases hd : s.flushDone = true
  · rw [checkFlush_done hd]
    split
    · obtain ⟨p, hp, -⟩ := enterParked_eq s
      obtain ⟨hmode, haddress⟩ := unitsParked_stops s
      rw [hp, State.setPath_mode, State.setPath_svc, hmode]
      exact ⟨nofun, haddress⟩
    · rw [returnToRun_address, State.setMode_svc]
      exact ⟨returnToRun_started _, rfl⟩
  · rw [checkFlush_waits (Bool.eq_false_iff.mpr hd)]
    exact ⟨h, rfl⟩

theorem workAndFlush_ended {s : State} (h : s.mode.mode ≠ .start) :
    s.workAndFlush.mode.mode ≠ .start ∧ s.workAndFlush.svc.address = s.svc.address := by
  have first := (takeWork_evolves s).keeps
  have last := (takeWork_evolves s.takeWork.checkFlush).keeps
  obtain ⟨hmode, haddress⟩ := checkFlush_ended (s := s.takeWork) fun e => h ((first .opMode (by decide)).symm.trans e)
  exact ⟨fun e => hmode ((last .opMode (by decide)).symm.trans e),
    (address_of_keeps last (by decide)).trans (haddress.trans (address_of_keeps first (by decide)))⟩

/-- What image initialisation leaves stands through a waiting access and the controller's work. -/
theorem ImagesEnded.workDone {a : Option Byte} {m : Mode} {s : State} (h : ImagesEnded a m s) :
    ImagesEnded a m s.grantForwarded.workAndFlush := by
  have granted := (grantForwarded_evolves s).keeps
  have worked := (workAndFlush_evolves s.grantForwarded).keeps
  have alerted : Alerts s s.grantForwarded.workAndFlush :=
    .trans (.same (granted .attnPending (by decide))) (workAndFlush_alerts _)
  obtain ⟨hmode, haddress⟩ := workAndFlush_ended (s := s.grantForwarded) fun e =>
    h.started ((granted .opMode (by decide)).symm.trans e)
  have command : s.grantForwarded.workAndFlush.path.command = s.path.command :=
    (worked .command (by decide)).trans (granted .command (by decide))
  have result : s.grantForwarded.workAndFlush.path.result = s.path.result :=
    (worked .result (by decide)).trans (granted .result (by decide))
  refine ⟨(worked .window (by decide)).trans ((granted .window (by decide)).trans h.window),
    (worked .awaited (by decide)).trans ((granted .awaited (by decide)).trans h.awaited), hmode,
    haddress.trans ((address_of_keeps granted (by decide)).trans h.address), fun hm => ?_⟩
  obtain ⟨hprofile, hcause, hcommand, hdone⟩ := h.restarted hm
  rw [command, result]
  exact ⟨alerted.pending _ hprofile, alerted.pending _ hcause, hcommand, hdone⟩

/-- The last awaited entry leaves a queue that holds nothing else: image initialisation ends (R128). -/
theorem imageWritten_ends {s : State} {e : Nat × Word} (hq : s.path.queue = [e]) (hf : s.path.inFlight = some e)
    (hr : s.path.resync = []) (ha : s.path.awaited = some [e.1]) : s.imageWritten = (s.entryWritten e).endImages := by
  have hdone : (s.path.writeDone e).awaited = some [] := by
    rw [writeDone_leaves hq]
    simp [ha]
  have hmarks : (s.path.writeDone e).resync = [] := (writeDone_resync _ _).trans hr
  rw [imageWritten_eq hf]
  refine if_pos ?_
  unfold State.entryWritten State.requeue MemoryPath.initialised
  simp [State.setPath, hdone, hmarks]

end Sys2Proof.Machine

open Sys2Proof Sys2Proof.Machine

/-- Settles O41: the grant, the end of a write while nothing is awaited, and the last write of an image initialisation. -/
theorem imageWriter : Obligations.ImageWriter := by
  refine ⟨fun e h rest s hr hq => ⟨fun hf hu hs => ?_, fun _ hu hh => ?_, fun hf ha hheld hs => ?_⟩,
    fun e s hr hq hf hm ha => ?_⟩
  · refine ⟨_, congrArg Host.Outcome.next (live_running hr _), (grantImage_evolves s).keeps, ?_⟩
    rw [grantImage_writes hf hq hu]
    exact ⟨rfl, writeLanes_stores hs (s.windowAddr h.1) h.2 0xF⟩
  · exact congrArg Host.Outcome.next ((live_running hr _).trans (grantImage_waits hu hh))
  · have written := entryWritten_keeps s e
    have unawaited : (s.entryWritten e).path.awaited = none := entryWritten_unawaited ha
    have hwritten : s.imageWritten = s.entryWritten e := by
      rw [imageWritten_eq hf]
      exact if_neg (by simp [MemoryPath.initialised, unawaited])
    have granted := (grantForwarded_evolves (s.entryWritten e)).keeps
    have held : (s.entryWritten e).grantForwarded.flushHeld :=
      flushHeld_of_keeps granted (by decide) (flushHeld_of_keeps written (by decide) hheld)
    have worked : KeepsBut Part.work (s.entryWritten e).grantForwarded (s.entryWritten e).grantForwarded.workAndFlush :=
      workAndFlush_parts (.inl ⟨held, rfl⟩)
    have rest := (granted.mono (k := Part.forwarded ++ Part.work) (by decide)).trans (worked.mono (by decide))
    have served : WaitingServed s (s.entryWritten e).grantForwarded.workAndFlush := by
      have hsram : s.sram = (s.entryWritten e).sram := (written .sram (by decide) : (s.entryWritten e).sram = s.sram).symm
      exact (grantForwarded_serves (hsram ▸ hs)).transport written (by decide) worked (by decide)
    obtain ⟨hqueue, hmarks, hurgent⟩ := rest .queue (by decide)
    have e1 := exec_imageWriteComplete hr hf
    rw [hwritten] at e1
    refine ⟨_, e1, ?_, (rest .inFlight (by decide)).trans (entryWritten_free s e), served, ?_⟩
    · refine (written.drop (unawaited.trans ha.symm)).mono (by decide) |>.trans (rest.mono (by decide))
    · rw [hqueue, hmarks, hurgent]
      exact entryWritten_ends hq
  · have written := entryWritten_keeps s e
    have e1 := exec_imageWriteComplete hr hf
    rw [imageWritten_ends hq hf hm ha] at e1
    have ended := (endImages_evolves (s.entryWritten e)).keeps
    have granted := (grantForwarded_evolves (s.entryWritten e).endImages).keeps
    have worked := (workAndFlush_evolves (s.entryWritten e).endImages.grantForwarded).keeps
    have hmode : (s.entryWritten e).mode.mode = s.mode.mode := written .opMode (by decide)
    have hprofile : (s.entryWritten e).profile = s.profile := written .profile (by decide)
    obtain ⟨hwindow, hawaited, hstarted, haddress, hrestarted⟩ := (endImages_ends (s.entryWritten e)).workDone
    rw [hprofile] at haddress
    rw [hmode] at hrestarted
    refine ⟨_, e1, ?_, fun hheld => ?_, hwindow, hawaited, ?_, hstarted, haddress, hrestarted⟩
    · exact ((written.mono (by decide)).trans (ended.mono (by decide))).trans
        ((granted.mono (by decide)).trans (worked.mono (by decide)))
    · have kept : KeepsBut (.queue :: .inFlight :: Part.imagesEnd) s (s.entryWritten e).endImages :=
        (written.mono (by decide)).trans (ended.mono (by decide))
      rw [grantForwarded_idle ((kept .held (by decide)).trans hheld)] at worked ⊢
      have all := (kept.mono (k := .queue :: .inFlight :: Part.imagesEnd ++ Part.workFlushed) (by decide)).trans
        (worked.mono (by decide))
      exact ⟨(all .held (by decide)).trans hheld, all .readData (by decide), all .sram (by decide)⟩
    · have rest := (granted.mono (k := Part.forwarded ++ Part.workFlushed) (by decide)).trans (worked.mono (by decide))
      exact (rest .inFlight (by decide)).trans ((ended .inFlight (by decide)).trans (entryWritten_free s e))

end

section
/-! The fault slots read in the START sequence: what a stored page stands for, and the table as the 32 slots leave it (08, R162, R196). -/

namespace Sys2Proof.Machine

/-! ## A stored page (R196, Table 12-5) -/

theorem faultKind_ofNat?_toNat (k : FaultKind) : FaultKind.ofNat? k.toNat = some k := by cases k <;> rfl

theorem faultKind_toNat_of_ofNat? {n : Nat} {k : FaultKind} (h : FaultKind.ofNat? n = some k) : n = k.toNat := by
  unfold FaultKind.ofNat? at h
  split at h <;> cases h <;> rfl

theorem ofNat_bitsOf (w : Word) (lo len : Nat) : BitVec.ofNat len (bitsOf w lo len) = (w >>> lo).setWidth len := by
  refine BitVec.eq_of_toNat_eq ?_
  simp [bitsOf, Nat.shiftRight_eq_div_pow]

theorem bitsOf_low (w : Word) (len : Nat) : bitsOf w 0 len = w.toNat % 2 ^ len := by simp [bitsOf]

theorem bitsOf_bit (w : Word) (k : Nat) : bitsOf w k 1 = 1 ↔ w.getLsbD k = true := by
  simp [bitsOf, BitVec.getLsbD, Nat.testBit_eq_decide_div_mod_eq]

theorem pageWords_zero (page : List Byte) :
    (pageWords page).all (fun w => w = 0) = true ↔ ∀ k, k < 15 → pageWord page k = 0 := by
  simp [pageWords]

/-- A slot page as the load takes what it stands for. -/
def StoredSlot.of : Option Record → StoredSlot
  | none => .empty
  | some r => .record r

theorem storedFrame_holds {page : List Byte} {r : Record} (h : SlotHolds page r) : storedFrame page = r.frame := by
  rw [h.frame]
  unfold storedFrame
  simp only [bitsOf_bit, storedEntry, ofNat_bitsOf, BitVec.ushiftRight_zero]
  rw [bitsOf_low]
  rfl

theorem readSlotPage_loads {page : List Byte} {n : Fin 32} (hok : pageOk page n.val = true) {x : Option Record}
    (h : SlotLoads page x) : readSlotPage page n = .of x := by
  unfold readSlotPage
  rw [hok]
  cases x with
  | none => exact if_pos ((pageWords_zero page).mpr h)
  | some r =>
    have hframe := storedFrame_holds h
    obtain ⟨hkind, hsubject, hstored, ⟨hstate, hseen, htimer⟩, ⟨hoccurrence, hhealing⟩, ⟨hfirst, hlast⟩, -⟩ := h
    have hnamed : ¬ (pageWords page).all (fun w => w = 0) = true := fun hz => by
      rw [(pageWords_zero page).mp hz 0 (by decide)] at hstored
      exact hstored.elim nofun nofun
    have hst : bitsOf (pageWord page 0) 16 2 = 2 ∨ bitsOf (pageWord page 0) 16 2 = 3 := hstored
    have hofNat : FaultKind.ofNat? (bitsOf (pageWord page 0) 0 8) = some r.code.kind := by
      rw [bitsOf_low, hkind, faultKind_ofNat?_toNat]
    rw [if_neg (by decide), if_neg hnamed, hofNat]
    refine (if_pos hst).trans (congrArg StoredSlot.record ?_)
    rw [ofNat_bitsOf, ofNat_bitsOf, ofNat_bitsOf, BitVec.ushiftRight_zero, hframe, ← hsubject, ← hoccurrence, ← hhealing]
    obtain ⟨⟨_, _⟩, _, _, _, _, _, _, _, _⟩ := r
    simp_all [storedMoment]

theorem readSlotPage_failing {page : List Byte} {n : Fin 32} (h : pageOk page n.val = false) : readSlotPage page n = .bad :=
  if_pos (by rw [h]; rfl)

theorem readSlotPage_nameless {page : List Byte} (n : Fin 32) (h : NamesNoRecord page) : readSlotPage page n = .bad := by
  obtain ⟨⟨k, hk, hword⟩, hnone⟩ := h
  unfold readSlotPage
  split
  · rfl
  · rw [if_neg fun hz => hword ((pageWords_zero page).mp hz k hk)]
    cases hkind : FaultKind.ofNat? (bitsOf (pageWord page 0) 0 8) with
    | none => rfl
    | some kind =>
      have hstate := hnone.resolve_left fun hk => hk kind ((bitsOf_low _ _).symm.trans (faultKind_toNat_of_ofNat? hkind))
      exact if_neg fun hst => hst.elim hstate.1 hstate.2

/-! ## The operations of the fault memory that the load uses -/

theorem slotOf_isSome {fm : FaultMemory} {c : FaultCode} :
    (fm.slotOf c).isSome = true ↔ ∃ i r, fm.records.get i = some r ∧ r.code = c := by
  simp [FaultMemory.slotOf, Option.any_eq_true]

theorem mem_queue {fm : FaultMemory} {i j : Fin 32} : j ∈ (fm.queue i).writeQueue ↔ j ∈ fm.writeQueue ∨ j = i := by
  unfold FaultMemory.queue
  split
  · next h =>
    have hi : i ∈ fm.writeQueue := List.contains_iff_mem.mp h
    exact ⟨.inl, Or.rec id fun e => e ▸ hi⟩
  · simp

theorem queueFor_volatile {k : FaultKind} (h : volatileKind k = true) (fm : FaultMemory) (i : Fin 32) : fm.queueFor i k = fm :=
  if_pos h

theorem queueFor_written {k : FaultKind} (h : volatileKind k = false) (fm : FaultMemory) (i : Fin 32) :
    fm.queueFor i k = fm.queue i := if_neg (by rw [h]; nofun)

theorem queueFor_records (fm : FaultMemory) (i : Fin 32) (k : FaultKind) : (fm.queueFor i k).records = fm.records := by
  unfold FaultMemory.queueFor
  split
  · rfl
  · exact (queue_keeps fm i).2.1

theorem mem_queueFor {fm : FaultMemory} {j : Fin 32} (i : Fin 32) (k : FaultKind) (h : j ∈ fm.writeQueue) :
    j ∈ (fm.queueFor i k).writeQueue := by
  unfold FaultMemory.queueFor
  split
  · exact h
  · exact mem_queue.mpr (.inl h)

/-- A record put into its slot, which is queued where it was stored ACTIVE. -/
def State.recordLoaded (s : State) (fm : FaultMemory) (i : Fin 32) (x : Record) : FaultMemory :=
  if storedActive (s.cfgPage (slotPageNo i)) then (fm.put i x).queueFor i x.code.kind else fm.put i x

section

variable {s : State} {fm : FaultMemory} {i : Fin 32} {x : Record}

theorem recordLoaded_records : (s.recordLoaded fm i x).records = fm.records.set i (some x) := by
  unfold State.recordLoaded
  split
  · exact queueFor_records _ _ _
  · rfl

theorem mem_recordLoaded {j : Fin 32} (h : j ∈ fm.writeQueue) : j ∈ (s.recordLoaded fm i x).writeQueue := by
  unfold State.recordLoaded
  split
  · exact mem_queueFor _ _ h
  · exact h

theorem recordLoaded_queued (ha : storedActive (s.cfgPage (slotPageNo i)) = true) (hv : volatileKind x.code.kind = false) :
    i ∈ (s.recordLoaded fm i x).writeQueue := by
  unfold State.recordLoaded
  rw [if_pos ha, queueFor_written hv]
  exact mem_queue.mpr (.inr rfl)

theorem recordLoaded_present : (s.recordLoaded fm i x).present = fm.present := by
  unfold State.recordLoaded
  split
  · exact queueFor_present _ _ _
  · rfl

end

/-! ## One slot (R162) -/

/-- What the load has of a slot: a slot that gave no answer is taken as an empty one. -/
def State.slotRead (s : State) (answered : BitVec 32) (i : Fin 32) : StoredSlot :=
  if answered.getLsbD i.val = false then .empty
  else if slotPageNo i ∈ s.ctrl.torn then .bad
  else readSlotPage (s.cfgPage (slotPageNo i)) i

/-- Table and count after a slot, by what the load has of it. -/
def State.slotLoaded (s : State) (r : FaultMemory × Nat) (i : Fin 32) : StoredSlot → FaultMemory × Nat
  | .empty => r
  | .bad => (r.1.queue i, r.2 + 1)
  | .record x =>
    if (r.1.slotOf x.code).isSome then (r.1.queue i, r.2 + 1)
    else (s.recordLoaded r.1 i x, r.2)

theorem loadSlot_eq (s : State) (answered : BitVec 32) (r : FaultMemory × Nat) (i : Fin 32) :
    s.loadSlot answered r i = s.slotLoaded r i (s.slotRead answered i) := by
  unfold State.loadSlot State.slotRead
  cases answered.getLsbD i.val with
  | false => rfl
  | true =>
    by_cases ht : slotPageNo i ∈ s.ctrl.torn
    · simp [ht, State.slotLoaded]
    · simp only [List.contains_iff_mem, ht, if_false, Bool.not_true, Bool.false_eq_true, Bool.true_eq_false]
      cases readSlotPage (s.cfgPage (slotPageNo i)) i <;> rfl

theorem slotLoaded_known {s : State} {r : FaultMemory × Nat} {i : Fin 32} {x : Record}
    (h : (r.1.slotOf x.code).isSome = true) : s.slotLoaded r i (.record x) = (r.1.queue i, r.2 + 1) := if_pos h

theorem slotLoaded_new {s : State} {r : FaultMemory × Nat} {i : Fin 32} {x : Record}
    (h : ¬ (r.1.slotOf x.code).isSome = true) : s.slotLoaded r i (.record x) = (s.recordLoaded r.1 i x, r.2) :=
  if_neg h

theorem slotRead_failing {s : State} {answered : BitVec 32} {i : Fin 32} (ha : answered.getLsbD i.val = true)
    (h : slotPageNo i ∈ s.ctrl.torn ∨ pageOk (s.cfgPage (slotPageNo i)) i.val = false) : s.slotRead answered i = .bad := by
  unfold State.slotRead
  rw [ha, if_neg Bool.noConfusion]
  split
  · rfl
  · next ht => exact readSlotPage_failing (h.resolve_left ht)

theorem slotRead_page {s : State} {answered : BitVec 32} {i : Fin 32} (ha : answered.getLsbD i.val = true)
    (ht : slotPageNo i ∉ s.ctrl.torn) : s.slotRead answered i = readSlotPage (s.cfgPage (slotPageNo i)) i := by
  unfold State.slotRead
  rw [ha, if_neg Bool.noConfusion, if_neg ht]

/-- What the load makes of a slot, by what it has of it: a code that a lower slot has loaded makes a bad slot. -/
theorem State.SlotsLoad.read {s : State} {answered : BitVec 32} {loaded : Fin 32 → Option Record} {bad : Fin 32 → Prop}
    (h : s.SlotsLoad answered loaded bad) (i : Fin 32) :
    s.slotRead answered i = .empty ∧ loaded i = none ∧ ¬ bad i ∨ s.slotRead answered i = .bad ∧ loaded i = none ∧ bad i ∨
      ∃ q, s.slotRead answered i = .record q ∧
        ((∀ j r, j < i → loaded j = some r → r.code ≠ q.code) ∧ loaded i = some q ∧ ¬ bad i ∨
          (∃ j r, j < i ∧ loaded j = some r ∧ r.code = q.code) ∧ loaded i = none ∧ bad i) := by
  cases ha : answered.getLsbD i.val with
  | false => exact .inl ⟨if_pos ha, h.unanswered i ha⟩
  | true =>
    by_cases hf : slotPageNo i ∈ s.ctrl.torn ∨ pageOk (s.cfgPage (slotPageNo i)) i.val = false
    · exact .inr (.inl ⟨slotRead_failing ha hf, h.failing i ha hf⟩)
    · obtain ⟨ht, hok⟩ := not_or.mp hf
      have hok := Bool.not_eq_false _ ▸ hok
      rw [slotRead_page ha ht]
      rcases h.readable i ha ht hok with ⟨hnone, hbad⟩ | ⟨stored, hloads, htaken⟩
      · exact .inr (.inl ⟨readSlotPage_nameless i hnone, hbad⟩)
      · rw [readSlotPage_loads hok hloads]
        cases stored with
        | none =>
          rcases htaken with ⟨-, hgood⟩ | ⟨⟨_, _, _, _, _, hq, _⟩, -⟩
          · exact .inl ⟨rfl, hgood⟩
          · cases hq
        | some q =>
          refine .inr (.inr ⟨q, rfl, htaken.imp (fun ⟨hfirst, hgood⟩ => ⟨fun j r hj hr => hfirst j r q hj hr rfl, hgood⟩) ?_⟩)
          rintro ⟨⟨j, r, _, hj, hr, ⟨⟩, hcode⟩, hbad⟩
          exact ⟨⟨j, r, hj, hr, hcode⟩, hbad⟩

/-! ## The 32 slots -/

/-- An induction along the slots in ascending order. -/
theorem foldl_finRange_rec {n : Nat} {β : Type} (P : Nat → β → Prop) (f : β → Fin n → β)
    (step : ∀ (i : Fin n) b, P i.val b → P (i.val + 1) (f b i)) {b : β} (h : P 0 b) : P n ((List.finRange n).foldl f b) := by
  induction n generalizing P b with
  | zero => exact h
  | succ n ih =>
    rw [List.finRange_succ, List.foldl_cons, List.foldl_map]
    exact ih (fun k => P (k + 1)) (fun b i => f b i.succ) (fun i => step i.succ) (step 0 b h)

theorem lt_or_eq_of_lt_succ {i j : Fin 32} (h : j.val < i.val + 1) : j.val < i.val ∨ j = i :=
  (Nat.lt_succ_iff_lt_or_eq.mp h).imp_right Fin.ext

/-- The table and the count of bad slots after the read of the 32 slots. -/
def State.slotsTaken (s : State) (answered : BitVec 32) : FaultMemory × Nat :=
  (List.finRange 32).foldl (s.loadSlot answered) (s.fm, 0)

/-- What the slots below `k` have left, whatever the table held before: a bad slot is queued and counted, and a slot without a record
of its own stays empty. -/
structure State.SlotsRead (s : State) (answered : BitVec 32) (k : Nat) (r : FaultMemory × Nat) : Prop where
  bad : ∀ i : Fin 32, i.val < k → s.slotRead answered i = .bad → i ∈ r.1.writeQueue ∧ 0 < r.2
  room : ∀ i, s.fm.records.get i = none → (∀ x, s.slotRead answered i ≠ .record x) → r.1.records.get i = none

theorem State.SlotsRead.step {s : State} {answered : BitVec 32} {i : Fin 32} {r : FaultMemory × Nat}
    (h : s.SlotsRead answered i.val r) : s.SlotsRead answered (i.val + 1) (s.loadSlot answered r i) := by
  have queued : s.SlotsRead answered (i.val + 1) (r.1.queue i, r.2 + 1) := by
    refine ⟨fun j hj hb => ⟨mem_queue.mpr ?_, Nat.succ_pos _⟩, fun j hn hx => ?_⟩
    · exact (lt_or_eq_of_lt_succ hj).imp_left fun hj => (h.bad j hj hb).1
    · exact (congrArg (Table.get · j) (queue_keeps r.1 i).2.1).trans (h.room j hn hx)
  rw [loadSlot_eq]
  cases hread : s.slotRead answered i with
  | empty =>
    refine ⟨fun j hj hb => ?_, h.room⟩
    rcases lt_or_eq_of_lt_succ hj with hj | rfl
    · exact h.bad j hj hb
    · exact absurd (hread.symm.trans hb) nofun
  | bad => exact queued
  | record x =>
    by_cases hx : (r.1.slotOf x.code).isSome = true
    · rw [slotLoaded_known hx]
      exact queued
    · rw [slotLoaded_new hx]
      refine ⟨fun j hj hb => ?_, fun j hn hother => ?_⟩
      · rcases lt_or_eq_of_lt_succ hj with hj | rfl
        · exact (h.bad j hj hb).imp_left mem_recordLoaded
        · exact absurd (hread.symm.trans hb) nofun
      · have hne : i ≠ j := fun e => hother x (e ▸ hread)
        rw [recordLoaded_records, Table.get_set_ne _ hne]
        exact h.room j hn hother

theorem slotsTaken_read (s : State) (answered : BitVec 32) : s.SlotsRead answered 32 (s.slotsTaken answered) :=
  foldl_finRange_rec (s.SlotsRead answered) _ (fun _ _ => .step) ⟨nofun, fun _ hn _ => hn⟩

section

variable {s : State} {answered : BitVec 32} {loaded : Fin 32 → Option Record} {bad : Fin 32 → Prop}

/-- What the slots below `k` have left of an empty table. -/
structure State.SlotsTaken (s : State) (loaded : Fin 32 → Option Record) (bad : Fin 32 → Prop) (k : Nat) (r : FaultMemory × Nat) :
    Prop where
  records : ∀ i : Fin 32, r.1.records.get i = if i.val < k then loaded i else none
  queued : ∀ i : Fin 32, i.val < k → bad i → i ∈ r.1.writeQueue ∧ 0 < r.2
  uncounted : (∀ i : Fin 32, i.val < k → ¬ bad i) → r.2 = 0
  active : ∀ (i : Fin 32) (x : Record), i.val < k → loaded i = some x → storedActive (s.cfgPage (slotPageNo i)) = true →
    volatileKind x.code.kind = false → i ∈ r.1.writeQueue
  present : r.1.present = s.fm.present

/-- A bad slot after those below it. -/
theorem State.SlotsTaken.refused {i : Fin 32} {r : FaultMemory × Nat} (h : s.SlotsTaken loaded bad i.val r) (hl : loaded i = none)
    (hb : bad i) : s.SlotsTaken loaded bad (i.val + 1) (r.1.queue i, r.2 + 1) := by
  obtain ⟨hpresent, hrecords, -⟩ := queue_keeps r.1 i
  refine ⟨fun j => ?_, fun j hj hbad => ⟨mem_queue.mpr ?_, Nat.succ_pos _⟩, fun hg => absurd hb (hg i (Nat.lt_succ_self _)),
    fun j x hj hx ha hv => mem_queue.mpr ?_, hpresent.trans h.present⟩
  · rw [hrecords, h.records j]
    by_cases e : j = i
    · rw [e, hl, ite_self, ite_self]
    · simp only [Nat.lt_succ_iff_lt_or_eq, ← Fin.ext_iff, e, or_false]
  · exact (lt_or_eq_of_lt_succ hj).imp_left fun hj => (h.queued j hj hbad).1
  · exact (lt_or_eq_of_lt_succ hj).imp_left fun hj => h.active j x hj hx ha hv

/-- A slot that is stored empty, or gave no answer, after those below it. -/
theorem State.SlotsTaken.passed {i : Fin 32} {r : FaultMemory × Nat} (h : s.SlotsTaken loaded bad i.val r) (hl : loaded i = none)
    (hb : ¬ bad i) : s.SlotsTaken loaded bad (i.val + 1) r := by
  refine ⟨fun j => ?_, fun j hj hbad => ?_, fun hg => h.uncounted fun j hj => hg j (Nat.lt_succ_of_lt hj),
    fun j x hj hx => ?_, h.present⟩
  · rw [h.records j]
    by_cases e : j = i
    · rw [e, hl, ite_self, ite_self]
    · simp only [Nat.lt_succ_iff_lt_or_eq, ← Fin.ext_iff, e, or_false]
  · rcases lt_or_eq_of_lt_succ hj with hj | rfl
    · exact h.queued j hj hbad
    · exact absurd hbad hb
  · rcases lt_or_eq_of_lt_succ hj with hj | rfl
    · exact h.active j x hj hx
    · exact absurd (hl.symm.trans hx) nofun

/-- The record of a slot after those below it. -/
theorem State.SlotsTaken.filled {i : Fin 32} {r : FaultMemory × Nat} (h : s.SlotsTaken loaded bad i.val r) {q : Record}
    (hl : loaded i = some q) (hb : ¬ bad i) : s.SlotsTaken loaded bad (i.val + 1)
      (s.recordLoaded r.1 i q, r.2) := by
  refine ⟨fun j => ?_, fun j hj hbad => ?_, fun hg => h.uncounted fun j hj => hg j (Nat.lt_succ_of_lt hj),
    fun j x hj hx ha hv => ?_, recordLoaded_present.trans h.present⟩
  · rw [recordLoaded_records]
    by_cases e : j = i
    · subst e
      rw [if_pos (Nat.lt_succ_self _), hl, Table.get_set_self]
    · simp only [Nat.lt_succ_iff_lt_or_eq, ← Fin.ext_iff, e, or_false]
      exact (Table.get_set_ne _ (Ne.symm e) _).trans (h.records j)
  · rcases lt_or_eq_of_lt_succ hj with hj | rfl
    · exact (h.queued j hj hbad).imp_left mem_recordLoaded
    · exact absurd hbad hb
  · rcases lt_or_eq_of_lt_succ hj with hj | rfl
    · exact mem_recordLoaded (h.active j x hj hx ha hv)
    · obtain rfl : q = x := Option.some.inj (hl.symm.trans hx)
      exact recordLoaded_queued ha hv

theorem State.SlotsTaken.step (hs : s.SlotsLoad answered loaded bad) {i : Fin 32} {r : FaultMemory × Nat}
    (h : s.SlotsTaken loaded bad i.val r) : s.SlotsTaken loaded bad (i.val + 1) (s.loadSlot answered r i) := by
  have known (c : FaultCode) : (r.1.slotOf c).isSome = true ↔ ∃ j x, j < i ∧ loaded j = some x ∧ x.code = c := by
    rw [slotOf_isSome]
    constructor
    · rintro ⟨j, x, hx, hc⟩
      rw [h.records j] at hx
      obtain ⟨hj, hx⟩ := Option.ite_none_right_eq_some.mp hx
      exact ⟨j, x, hj, hx, hc⟩
    · rintro ⟨j, x, hj, hx, hc⟩
      exact ⟨j, x, by rw [h.records j, if_pos (Fin.lt_def.mp hj), hx], hc⟩
  rw [loadSlot_eq]
  rcases hs.read i with ⟨hread, hl, hb⟩ | ⟨hread, hl, hb⟩ | ⟨q, hread, htaken⟩
  · rw [hread]
    exact h.passed hl hb
  · rw [hread]
    exact h.refused hl hb
  · rw [hread]
    rcases htaken with ⟨hfirst, hl, hb⟩ | ⟨hdouble, hl, hb⟩
    · have hnew : ¬ (r.1.slotOf q.code).isSome = true := fun hx => by
        obtain ⟨j, x, hj, hx, hc⟩ := (known q.code).mp hx
        exact hfirst j x hj hx hc
      rw [slotLoaded_new hnew]
      exact h.filled hl hb
    · rw [slotLoaded_known ((known q.code).mpr hdouble)]
      exact h.refused hl hb

theorem slotsTaken_loads (hs : s.SlotsLoad answered loaded bad) (hempty : ∀ i, s.fm.records.get i = none) :
    s.SlotsTaken loaded bad 32 (s.slotsTaken answered) := by
  have start : s.SlotsTaken loaded bad 0 (s.fm, 0) :=
    ⟨fun i => (hempty i).trans (if_neg (Nat.not_lt_zero _)).symm, fun _ hi => absurd hi (Nat.not_lt_zero _), fun _ => rfl,
      fun _ _ hi => absurd hi (Nat.not_lt_zero _), rfl⟩
  exact foldl_finRange_rec (s.SlotsTaken loaded bad) _ (fun _ _ => .step hs) start

end

end Sys2Proof.Machine

end

section
/-! The reports of the load, what comes into force, and the first work of the controller: the read of the fault slots settled (08, R153,
R162; 11, R187, R191). -/

namespace Sys2Proof.Machine

/-! ## Reports made of the table (R153, R162) -/

/-- The code of a configuration memory that does not hold what was stored. -/
abbrev configCode : FaultCode := { kind := .configMemory, subject := 0 }

/-- A record of CONFIG_MEMORY as a momentary report leaves it. -/
def Record.noted (r : Record) : Prop := r.code = configCode ∧ r.state = .passive

theorem freeSlot_isSome {fm : FaultMemory} {i : Fin 32} (h : fm.records.get i = none) :
    ∃ j, fm.freeSlot = some j ∧ fm.records.get j = none := by
  have hsome : fm.freeSlot.isSome = true := by
    unfold FaultMemory.freeSlot
    rw [List.find?_isSome]
    exact ⟨i, List.mem_finRange i, by rw [h]; rfl⟩
  obtain ⟨j, hj⟩ := Option.isSome_iff_exists.mp hsome
  have hnone := List.find?_some hj
  exact ⟨j, hj, Option.isNone_iff_eq_none.mp hnone⟩

theorem slotOf_record {fm : FaultMemory} {c : FaultCode} {i : Fin 32} (h : fm.slotOf c = some i) :
    ∃ r, fm.records.get i = some r ∧ r.code = c := by
  have hany := List.find?_some h
  simpa [Option.any_eq_true] using hany

theorem put_put (fm : FaultMemory) (i : Fin 32) (a b : Record) : (fm.put i a).put i b = fm.put i b := by
  have h : (fm.records.set i (some a)).set i (some b) = fm.records.set i (some b) := Table.ext_get fun j => by
    simp only [Table.get_set]
    split <;> rfl
  exact congrArg (fun t => { fm with records := t }) h

/-- A report of CONFIG_MEMORY finds a record of its code, or an empty slot. -/
def FaultMemory.takesConfig (fm : FaultMemory) : Prop :=
  (∃ i, fm.records.get i = none) ∨ ∃ i r, fm.records.get i = some r ∧ r.code = configCode

/-- Such a report leaves its record in the slot of its code, or in an empty one, and nothing else of the table. -/
theorem takeMomentary_config {s : State} (h : s.fm.takesConfig) :
    ∃ j x, x.noted ∧ (∀ y, s.fm.records.get j = some y → y.code = configCode) ∧
      (s.takeMomentary .configMemory).fm = s.fm.put j x := by
  cases hslot : s.fm.slotOf { kind := .configMemory, subject := 0 } with
  | some j =>
    obtain ⟨r, hr, hc⟩ := slotOf_record hslot
    refine ⟨j, { r.reconfirm s.now with state := .passive }, ⟨hc, rfl⟩, fun y hy => ?_, ?_⟩
    · rw [← Option.some.inj (hr.symm.trans hy)]
      exact hc
    · unfold State.takeMomentary
      simp only [hslot, hr]
      rw [commitFaults_fm, queueFor_volatile rfl]
  | none =>
    have hnew : ¬ ∃ i r, s.fm.records.get i = some r ∧ r.code = configCode := fun hr => by
      have hsome := slotOf_isSome.mpr hr
      rw [hslot] at hsome
      exact Bool.noConfusion hsome
    obtain ⟨i, hi⟩ := h.resolve_right hnew
    obtain ⟨j, hfree, hj⟩ := freeSlot_isSome hi
    refine ⟨j, { ({ code := configCode } : Record).confirm s.now s.freezeFrame with state := .passive }, ⟨rfl, rfl⟩,
      fun y hy => absurd (hj.symm.trans hy) nofun, ?_⟩
    have hplace : s.fm.place { code := configCode } = (s.fm.put j { code := configCode }, some j) := by
      unfold FaultMemory.place
      rw [hfree]
    unfold State.takeMomentary
    simp only [hslot, hplace]
    rw [commitFaults_fm, put_put, queueFor_volatile rfl]

/-- The table `fm` after `n` reports of CONFIG_MEMORY taken by the table `base`. -/
structure ConfigNoted (base fm : FaultMemory) (n : Nat) : Prop where
  kept : ∀ i r, base.records.get i = some r → r.code ≠ configCode → fm.records.get i = some r
  others : ∀ i r, fm.records.get i = some r → base.records.get i = some r ∨ r.noted
  noted : 0 < n → ∃ j r, fm.records.get j = some r ∧ r.noted
  unchanged : n = 0 → fm = base
  writeQueue : fm.writeQueue = base.writeQueue
  present : fm.present = base.present
  takes : fm.takesConfig

theorem ConfigNoted.report {base : FaultMemory} {s : State} {n : Nat} (h : ConfigNoted base s.fm n) :
    ConfigNoted base (s.takeMomentary .configMemory).fm (n + 1) := by
  obtain ⟨j, x, hx, hj, hfm⟩ := takeMomentary_config h.takes
  rw [hfm]
  have hnoted : (s.fm.put j x).records.get j = some x := Table.get_set_self _ _ _
  have other {i : Fin 32} (hi : j ≠ i) : (s.fm.put j x).records.get i = s.fm.records.get i := Table.get_set_ne _ hi _
  refine ⟨fun i r hr hc => ?_, fun i r hr => ?_, fun _ => ⟨j, x, hnoted, hx⟩, nofun, h.writeQueue, h.present,
    .inr ⟨j, x, hnoted, hx.1⟩⟩
  · have hkept := h.kept i r hr hc
    by_cases hi : j = i
    · exact absurd (hj r (hi ▸ hkept)) hc
    · exact (other hi).trans hkept
  · by_cases hi : j = i
    · subst hi
      obtain rfl : x = r := Option.some.inj (hnoted.symm.trans hr)
      exact .inr hx
    · exact h.others i r ((other hi).symm.trans hr)

theorem momentaries_succ (s : State) (k : FaultKind) (n : Nat) : s.momentaries k (n + 1) = (s.momentaries k n).takeMomentary k := by
  induction n generalizing s with
  | zero => rfl
  | succ n ih => exact ih (s.takeMomentary k)

theorem momentaries_noted {s : State} (h : s.fm.takesConfig) (n : Nat) :
    ConfigNoted s.fm (s.momentaries .configMemory n).fm n := by
  induction n with
  | zero => exact ⟨fun _ _ hr _ => hr, fun _ _ => .inl, fun hn => absurd hn (Nat.lt_irrefl 0), fun _ => rfl, rfl, rfl, h⟩
  | succ n ih =>
    rw [momentaries_succ]
    exact ih.report

/-! ## The write queue under a report (R158) -/

theorem mem_place {fm : FaultMemory} {i : Fin 32} (r : Record) (h : i ∈ fm.writeQueue) : i ∈ (fm.place r).1.writeQueue := by
  unfold FaultMemory.place
  split
  · exact h
  · split
    · exact mem_queue.mpr (.inl h)
    · exact h

theorem takeMomentary_queued {s : State} {i : Fin 32} (k : FaultKind) (h : i ∈ s.fm.writeQueue) :
    i ∈ (s.takeMomentary k).fm.writeQueue := by
  unfold State.takeMomentary
  dsimp only
  split
  · split
    · exact h
    · rw [commitFaults_fm]
      exact mem_queueFor _ _ h
  · have placed := mem_place { code := { kind := k, subject := 0 } } h
    split
    · next fm he =>
      rw [he] at placed
      rw [commitFaults_fm]
      exact placed
    · next fm j he =>
      rw [he] at placed
      rw [commitFaults_fm]
      exact mem_queueFor _ _ placed

theorem forEach_queued {s : State} {i : Fin 32} (l : List FaultCode) (h : i ∈ s.fm.writeQueue) :
    i ∈ (s.forEach l fun t c => t.takeMomentary c.kind).fm.writeQueue := by
  induction l generalizing s with
  | nil => exact h
  | cons c l ih => exact ih (takeMomentary_queued c.kind h)

theorem momentaries_queued {s : State} {i : Fin 32} (k : FaultKind) (n : Nat) (h : i ∈ s.fm.writeQueue) :
    i ∈ (s.momentaries k n).fm.writeQueue := by
  induction n generalizing s with
  | zero => exact h
  | succ n ih => exact ih (takeMomentary_queued k h)

/-! ## The load (R162, R191) -/

/-- The slots' table in place, the controller free, before the reports. -/
def State.slotsLoaded (s : State) (answered : BitVec 32) : State :=
  (s.setFm { (s.slotsTaken answered).1 with loaded := true, heldReports := [] }).setOperation .none

/-- How often the load itself reports CONFIG_MEMORY: once for each bad slot, and once for slots that gave no answer. -/
def State.loadReports (s : State) (answered : BitVec 32) : Nat :=
  (s.slotsTaken answered).2 + if answered = BitVec.allOnes 32 then 0 else 1

theorem loadSlots_eq (s : State) (answered : BitVec 32) : s.loadSlots answered =
    ((s.slotsLoaded answered).forEach s.fm.heldReports fun t c => t.takeMomentary c.kind).momentaries .configMemory
      (s.loadReports answered) := by
  unfold State.loadReports
  by_cases h : answered = BitVec.allOnes 32
  · rw [if_pos h]
    exact if_pos h
  · rw [if_neg h, momentaries_succ]
    exact if_neg h

theorem allOnes_iff (v : BitVec 32) : v = BitVec.allOnes 32 ↔ ∀ i : Fin 32, v.getLsbD i.val = true := by
  constructor
  · rintro rfl i
    exact (BitVec.getLsbD_allOnes).trans (decide_eq_true i.isLt)
  · refine fun h => BitVec.eq_of_getLsbD_eq fun i hi => ?_
    rw [h ⟨i, hi⟩, BitVec.getLsbD_allOnes, decide_eq_true hi]

/-- A slot that is bad or gave no answer has the load report. -/
theorem loadReports_pos {s : State} {answered : BitVec 32}
    (h : 0 < (s.slotsTaken answered).2 ∨ ∃ i : Fin 32, answered.getLsbD i.val = false) : 0 < s.loadReports answered := by
  unfold State.loadReports
  rcases h with h | ⟨i, hi⟩
  · exact Nat.lt_of_lt_of_le h (Nat.le_add_right _ _)
  · have hnot : answered ≠ BitVec.allOnes 32 := fun e => absurd ((allOnes_iff _).mp e i) (by rw [hi]; nofun)
    rw [if_neg hnot]
    exact Nat.succ_pos _

theorem loadReports_zero {s : State} {answered : BitVec 32} (h : (s.slotsTaken answered).2 = 0)
    (ha : ∀ i : Fin 32, answered.getLsbD i.val = true) : s.loadReports answered = 0 := by
  unfold State.loadReports
  rw [h, if_pos ((allOnes_iff _).mpr ha)]

theorem loadSlots_loading (s : State) (answered : BitVec 32) :
    (s.loadSlots answered).fm.loaded = true ∧ (s.loadSlots answered).fm.heldReports = [] := by
  rw [loadSlots_eq]
  have reported : KeepsBut Part.faults (s.slotsLoaded answered) _ :=
    ((Evolves.forEach (fun t (c : FaultCode) => takeMomentary_evolves t c.kind) s.fm.heldReports _).trans
      (momentaries_evolves .configMemory (s.loadReports answered) _)).keeps
  exact reported .loading (by decide)

/-- A slot whose page cannot be used is queued, whatever the table held before. -/
theorem loadSlots_queued (s : State) (answered : BitVec 32) {i : Fin 32} (h : i ∈ (s.slotsTaken answered).1.writeQueue) :
    i ∈ (s.loadSlots answered).fm.writeQueue := by
  rw [loadSlots_eq]
  exact momentaries_queued _ _ (forEach_queued (s := s.slotsLoaded answered) s.fm.heldReports h)

/-- With no report held, the load makes its own reports of the slots' table. -/
theorem loadSlots_noted {s : State} {answered : BitVec 32} (hheld : s.fm.heldReports = [])
    (h : (s.slotsTaken answered).1.takesConfig) :
    ConfigNoted (s.slotsLoaded answered).fm (s.loadSlots answered).fm (s.loadReports answered) := by
  rw [loadSlots_eq, hheld]
  exact momentaries_noted (s := s.slotsLoaded answered) h _

/-- Without a bad slot or one that gave no answer, the load leaves the slots' table. -/
theorem loadSlots_quiet {s : State} {answered : BitVec 32} (hheld : s.fm.heldReports = []) (h : s.loadReports answered = 0) :
    (s.loadSlots answered).fm = (s.slotsLoaded answered).fm := by
  rw [loadSlots_eq, hheld, h]
  rfl

/-! ## What comes into force (R191) -/

theorem takeForce_profile {s : State} {p : Profile} (h : s.loadBuffer = some p) :
    s.takeForce.profile = p ∧ s.takeForce.profStatus = .inForce := by
  have hforce : s.takeForce = (State.doorCauseSince s (s.comeIntoForce p)).startImages := by
    unfold State.takeForce
    rw [h]
  have kept : KeepsBut (.attnPending :: .queue :: [.awaited]) (s.comeIntoForce p) s.takeForce := by
    rw [hforce]
    exact ((doorCauseSince_evolves _ _).keeps.mono (by decide)).trans ((startImages_evolves _).keeps.mono (by decide))
  exact ⟨kept .profile (by decide), kept .profStatus (by decide)⟩

/-- The no-profile state before its cause is set. -/
def State.profileless (s : State) : State :=
  let s1 := (s.setProfile Config.emptyProfile).setProfStatus .noProfile
  s1.setDoor (startedDoors Config.emptyProfile.doors s1.door.doors)

theorem doorCauseSince_alerts (old s : State) : Alerts s (State.doorCauseSince old s) := .iteThen .refl (setCause_alerts _ _)

theorem takeForce_noProfile {s : State} (h : s.loadBuffer = none) :
    s.takeForce.profile = Config.emptyProfile ∧ s.takeForce.profStatus = .noProfile ∧ s.takeForce.causePending .profile := by
  have hforce : s.takeForce = (State.doorCauseSince s (s.profileless.setCause .profile).evalAllLamps).startImages := by
    unfold State.takeForce
    rw [h]
    rfl
  have hcause : (s.profileless.setCause .profile).causePending .profile := setCause_pending _ _
  have lamps := evalAllLamps_evolves (s.profileless.setCause .profile)
  have images := startImages_evolves (State.doorCauseSince s (s.profileless.setCause .profile).evalAllLamps)
  have alerted : Alerts (s.profileless.setCause .profile) s.takeForce := by
    rw [hforce]
    exact (Alerts.of lamps (by decide)).trans ((doorCauseSince_alerts _ _).trans (.of images (by decide)))
  have kept : KeepsBut (.lamps :: .attnPending :: .queue :: [.awaited]) (s.profileless.setCause .profile) s.takeForce := by
    rw [hforce]
    exact ((lamps.keeps.mono (by decide)).trans ((doorCauseSince_evolves _ _).keeps.mono (by decide))).trans
      (images.keeps.mono (by decide))
  exact ⟨kept .profile (by decide), kept .profStatus (by decide), alerted.pending _ hcause⟩

theorem takeForce_images (s : State) : s.takeForce.path.awaited.isSome = true ∧
    ∀ o, isImageOffset o = true → o ∈ s.takeForce.path.queue.map Prod.fst ++ s.takeForce.path.resync := by
  unfold State.takeForce
  exact ⟨startImages_awaited _, fun o ho => startImages_images _ ho⟩

/-! ## The first work (R187) -/

/-- A queued slot is queued or is being written: the write of the head of the queue is what the free controller begins. -/
theorem takeWork_queued {s : State} {i : Fin 32} (h : i ∈ s.fm.writeQueue) :
    i ∈ s.takeWork.fm.writeQueue ∨ ∃ snapshot, s.takeWork.ctrl.operation = .slotWrite i snapshot false true := by
  have begun : i ∈ s.nextWork.fm.writeQueue ∨ ∃ snapshot, s.nextWork.ctrl.operation = .slotWrite i snapshot false true := by
    by_cases hfree : s.ctrl.operation = .none ∧ s.fm.loaded = true
    · by_cases hst : ∃ p n, s.ctrl.store = .waiting p n
      · obtain ⟨p, n, hst⟩ := hst
        rw [nextWork_store hfree hst]
        exact .inl h
      · rw [nextWork_ranked hfree fun p n e => hst ⟨p, n, e⟩]
        unfold State.rankedWork
        split
        · exact .inl h
        · split
          · exact .inl h
          · unfold State.takeSlot
            split
            · exact .inl h
            · next j rest hq =>
              rw [hq] at h
              rcases List.mem_cons.mp h with rfl | h
              · exact .inr ⟨_, rfl⟩
              · exact .inl h
    · rw [nextWork_busy hfree]
      exact .inl h
  have served := (serveReader_evolves s.nextWork).keeps
  have hqueue : s.takeWork.fm.writeQueue = s.nextWork.fm.writeQueue := served .writeQueue (by decide)
  rcases begun with hmem | ⟨snapshot, hop⟩
  · exact .inl (hqueue ▸ hmem)
  · refine .inr ⟨snapshot, ?_⟩
    have other : s.takeWork = s.nextWork := serveReader_other fun p n k e => Operation.noConfusion (hop.symm.trans e)
    rw [other]
    exact hop

theorem exec_faultSlotsRead {s : State} (hr : s.running) (ho : s.ctrl.operation = .startSlotsRead) (answered : BitVec 32) :
    exec (.faultSlotsRead answered) s = .next (s.loadSlots answered).takeForce.takeWork :=
  congrArg Host.Outcome.next ((live_running hr _).trans (if_pos ho))

/-! ## The statement's parts -/

section

variable {s : State} {answered : BitVec 32}

/-- The slot is queued, or its write has begun. -/
def State.written (t : State) (i : Fin 32) : Prop :=
  i ∈ t.fm.writeQueue ∨ ∃ snapshot, t.ctrl.operation = .slotWrite i snapshot false true

/-- What the load leaves of the fault memory stands when the profile is in force and the controller has begun its work. -/
structure LoadKept (u t : State) : Prop where
  records : t.fm.records = u.fm.records
  present : t.fm.present = u.fm.present
  loading : t.fm.loaded = u.fm.loaded ∧ t.fm.heldReports = u.fm.heldReports
  written : ∀ i, i ∈ u.fm.writeQueue → t.written i

theorem takeForce_takeWork_kept (u : State) : LoadKept u u.takeForce.takeWork := by
  have forced := (takeForce_evolves u).keeps
  have kept : KeepsBut (Part.force ++ Part.work) u u.takeForce.takeWork :=
    (forced.mono (by decide)).trans ((takeWork_evolves _).keeps.mono (by decide))
  have hqueue : u.takeForce.fm.writeQueue = u.fm.writeQueue := forced .writeQueue (by decide)
  exact ⟨kept .records (by decide), kept .present (by decide), kept .loading (by decide),
    fun i hi => takeWork_queued (hqueue ▸ hi)⟩

/-- A bad slot or one that gave no answer is reported, into the empty slot that it leaves at the latest. -/
theorem loadSlots_reports (hempty : ∀ i, s.fm.records.get i = none) (hheld : s.fm.heldReports = []) {i : Fin 32}
    (h : answered.getLsbD i.val = false ∨ slotPageNo i ∈ s.ctrl.torn ∨ pageOk (s.cfgPage (slotPageNo i)) i.val = false) :
    ∃ j r, (s.loadSlots answered).fm.records.get j = some r ∧ r.noted := by
  have read := slotsTaken_read s answered
  have unused : (∀ x, s.slotRead answered i ≠ .record x) ∧
      (0 < (s.slotsTaken answered).2 ∨ ∃ j : Fin 32, answered.getLsbD j.val = false) := by
    cases ha : answered.getLsbD i.val with
    | false =>
      have hsilent : s.slotRead answered i = .empty := if_pos ha
      exact ⟨fun x e => absurd (hsilent.symm.trans e) nofun, .inr ⟨i, ha⟩⟩
    | true =>
      have hfails := slotRead_failing ha (h.resolve_left (by rw [ha]; nofun))
      obtain ⟨-, hcount⟩ := read.bad i i.isLt hfails
      exact ⟨fun x e => absurd (hfails.symm.trans e) nofun, .inl hcount⟩
  have free : (s.slotsTaken answered).1.records.get i = none := read.room i (hempty i) unused.1
  exact (loadSlots_noted hheld (.inl ⟨i, free⟩)).noted (loadReports_pos unused.2)

/-- The load of an empty table: its records, its bad slots and its reports. -/
structure State.LoadGives (s : State) (answered : BitVec 32) (loaded : Fin 32 → Option Record) (bad : Fin 32 → Prop) (t : State) :
    Prop where
  kept : ∀ i r, loaded i = some r → r.code ≠ configCode → t.fm.records.get i = some r
  others : ∀ i r, loaded i = none → t.fm.records.get i = some r → r.noted
  quiet : (∀ i, answered.getLsbD i.val = true ∧ ¬ bad i) → ∀ i, t.fm.records.get i = loaded i
  present : t.fm.present = s.fm.present
  refused : ∀ i, bad i → i ∈ t.fm.writeQueue
  noted : (∃ i, answered.getLsbD i.val = false ∨ bad i) → ∃ j r, t.fm.records.get j = some r ∧ r.noted
  active : ∀ i r, loaded i = some r → storedActive (s.cfgPage (slotPageNo i)) = true → volatileKind r.code.kind = false →
    i ∈ t.fm.writeQueue

theorem loadSlots_gives {loaded : Fin 32 → Option Record} {bad : Fin 32 → Prop} (hs : s.SlotsLoad answered loaded bad)
    (hempty : ∀ i, s.fm.records.get i = none) (hheld : s.fm.heldReports = []) :
    s.LoadGives answered loaded bad (s.loadSlots answered) := by
  have taken := slotsTaken_loads hs hempty
  have records (i : Fin 32) : (s.slotsTaken answered).1.records.get i = loaded i := (taken.records i).trans (if_pos i.isLt)
  have queued {i : Fin 32} : i ∈ (s.slotsTaken answered).1.writeQueue → i ∈ (s.loadSlots answered).fm.writeQueue :=
    loadSlots_queued s answered
  have refused (i : Fin 32) (hb : bad i) := queued (taken.queued i i.isLt hb).1
  have active (i : Fin 32) (r : Record) (hr : loaded i = some r) (ha) (hv) := queued (taken.active i r i.isLt hr ha hv)
  by_cases hall : ∀ i, answered.getLsbD i.val = true ∧ ¬ bad i
  · have hzero := loadReports_zero (taken.uncounted fun i _ => (hall i).2) fun i => (hall i).1
    have hfm := loadSlots_quiet hheld hzero
    have same (i : Fin 32) : (s.loadSlots answered).fm.records.get i = loaded i := by
      rw [hfm]
      exact records i
    refine ⟨fun i r hr _ => (same i).trans hr, fun i r hn hr => ?_, fun _ => same, ?_, refused, ?_, active⟩
    · exact absurd (hn.symm.trans ((same i).symm.trans hr)) nofun
    · rw [hfm]
      exact taken.present
    · rintro ⟨i, ha | hb⟩
      · exact absurd (hall i).1 (by rw [ha]; nofun)
      · exact absurd hb (hall i).2
  · obtain ⟨i, hi⟩ : ∃ i : Fin 32, answered.getLsbD i.val = false ∨ bad i := by
      obtain ⟨i, hi⟩ := not_forall.mp hall
      rw [not_and_or, not_not, Bool.not_eq_true] at hi
      exact ⟨i, hi⟩
    have hnone : loaded i = none := by
      rcases hi with ha | hb
      · exact (hs.unanswered i ha).1
      · rcases hs.read i with ⟨-, hl, -⟩ | ⟨-, hl, -⟩ | ⟨q, -, ⟨-, -, hb'⟩ | ⟨-, hl, -⟩⟩
        · exact hl
        · exact hl
        · exact absurd hb hb'
        · exact hl
    have hpos : 0 < s.loadReports answered :=
      loadReports_pos (hi.symm.imp (fun hb => (taken.queued i i.isLt hb).2) fun ha => ⟨i, ha⟩)
    have noted := loadSlots_noted hheld (.inl ⟨i, (records i).trans hnone⟩)
    refine ⟨fun j r hr hc => noted.kept j r ((records j).trans hr) hc, fun j r hn hr => ?_, fun h => absurd h hall,
      noted.present.trans taken.present, refused, fun _ => noted.noted hpos, active⟩
    exact (noted.others j r hr).resolve_left fun hj => absurd (((records j).trans hn).symm.trans hj) nofun

end

end Sys2Proof.Machine

open Sys2Proof Sys2Proof.Machine

/-- Settles O8: the profile and the images by what comes into force, the table by the 32 slots and the reports of the load. -/
theorem startLoadsTheFaultSlots : Obligations.StartLoadsTheFaultSlots := by
  intro answered s hr ho _
  have load := (loadSlots_evolves s answered).keeps
  have hloading := loadSlots_loading s answered
  have hbuffer : (s.loadSlots answered).loadBuffer = s.loadBuffer := load .loadBuffer (by decide)
  have kept := takeForce_takeWork_kept (s.loadSlots answered)
  have work := (takeWork_evolves (s.loadSlots answered).takeForce).keeps
  have hprofile : (s.loadSlots answered).takeForce.takeWork.profile = (s.loadSlots answered).takeForce.profile :=
    work .profile (by decide)
  have hstatus : (s.loadSlots answered).takeForce.takeWork.profStatus = (s.loadSlots answered).takeForce.profStatus :=
    work .profStatus (by decide)
  obtain ⟨hawaited, himages⟩ := takeForce_images (s.loadSlots answered)
  refine ⟨_, exec_faultSlotsRead hr ho answered, ?_, kept.loading.1.trans hloading.1, kept.loading.2.trans hloading.2, ?_, ?_,
    fun p hp => ?_, fun hn => ?_, fun loaded bad hempty hheld hs => ?_, fun i ha hfails => ?_, fun hempty hheld ⟨i, hi⟩ => ?_⟩
  · exact ((load.mono (by decide)).trans ((takeForce_evolves _).keeps.mono (by decide))).trans (work.mono (by decide))
  · rw [takeWork_path]
    exact hawaited
  · rw [takeWork_path]
    exact himages
  · rw [hprofile, hstatus]
    exact takeForce_profile (hbuffer.trans hp)
  · obtain ⟨hempty, hnoProfile, hcause⟩ := takeForce_noProfile (hbuffer.trans hn)
    exact ⟨hprofile.trans hempty, hstatus.trans hnoProfile, (takeWork_alerts _).pending _ hcause⟩
  · have gives := loadSlots_gives hs hempty hheld
    rw [kept.records, kept.present]
    refine ⟨gives.kept, gives.others, gives.quiet, gives.present, fun i hb => kept.written i (gives.refused i hb), gives.noted,
      fun i r hi ha hconfig hprofile => kept.written i (gives.active i r hi ?_ ?_)⟩
    · exact decide_eq_true ha
    · simp [volatileKind, hconfig, hprofile]
  · exact kept.written i (loadSlots_queued s answered ((slotsTaken_read s answered).bad i i.isLt (slotRead_failing ha hfails)).1)
  · rw [kept.records]
    exact loadSlots_reports hempty hheld hi

end

section
/-! The supervision timers' expiries and the HRST pulse: an entry into LOST with what it hands on, the base write that follows a timeout
in LOST, the pulse's end (07, R140 to R144). -/

namespace Sys2Proof.Machine

/-! ## An entry into LOST (R142 to R144) -/

/-- Supervision in LOST: no reference, no timer, no run; a pulse begins where the profile enables it and the episode has not spent it. -/
theorem lose_eq (hrst : Bool) (u : Supervision) :
    u.lose hrst =
      { state := .lost
        reference := none
        timer := none
        run := 0
        pulse := if hrst = true ∧ u.spent = false then some 0 else u.pulse
        spent := u.spent || hrst } := by
  unfold Supervision.lose
  cases hrst <;> cases u.spent <;> rfl

/-- A change of the supervision state that comes with another code of the unit reports it (R143): what is handed on before the
report, to telltales and gauges, reports nothing. -/
theorem commitSup_reported {s : State} {u : Supervision} {c : FaultCode} (hnew : hostCode u.state = some c)
    (hold : hostCode s.sup.state ≠ some c) : Reported s (s.commitSup u) c := by
  intro hroom
  have hne : s.sup.state ≠ u.state := fun e => hold (e ▸ hnew)
  unfold State.commitSup
  dsimp only
  rw [if_neg hne, hnew]
  generalize hv : ((s.setSup u).evalLampsNaming readsSupervision).forEach (List.finRange 12) State.parkHostGauge = v
  have hbefore : v.fm.present = s.fm.present := by
    rw [← hv]
    exact ((Evolves.forEach parkHostGauge_evolves _ _).keeps .present (by decide)).trans
      ((evalLampsNaming_evolves _ _).keeps .present (by decide))
  have hafter : KeepsBut Part.images (v.reportChange (hostCode s.sup.state) (some c))
      (((v.reportChange (hostCode s.sup.state) (some c)).offer offStatus).setCause .host) :=
    (offer_evolves _ _).keeps.trans ((setCause_evolves _ _).keeps.mono (by decide))
  have hpresent := hafter .present (by decide)
  exact hpresent.symm ▸ reportChange_reported hold (hbefore ▸ hroom)

section

variable {s : State} {e : Nat}

/-- A command that enters LOST out of another state: the unit in LOST, HOST_LOST reported, the cause HOST set. -/
theorem gives_enterLost {c : Instr} (he : exec c s = .next s.enterLost) (hs : s.sup.state ≠ .lost) :
    Gives c s (.supervision :: Part.faults ++ Part.work) (fun t =>
      t.sup = s.sup.lose s.profile.hrst ∧
      Reported s t { kind := .hostLost, subject := 0 } ∧ t.causePending .host) := by
  have hold : hostCode s.sup.state ≠ some { kind := .hostLost, subject := 0 } := by
    cases hstate : s.sup.state with
    | starting => exact nofun
    | normal => exact nofun
    | lost => exact absurd hstate hs
  refine gives_work he (commitSup_evolves s _).keeps ⟨?_, ?_, ?_⟩
  · rw [takeWork_sup, commitSup_sup]
  · rw [Reported, takeWork_present]
    exact commitSup_reported rfl hold
  · rw [State.causePending, takeWork_path]
    exact commitSup_cause hs

/-! ## The expiries that have come -/

theorem exec_graceExpiry (hr : s.running) (hs : s.sup.state = .starting) (ht : s.sup.timer = some (.grace, e)) (he : 5000 ≤ e) :
    exec .graceExpiry s = .next s.enterLost := by
  have hdue : s.due .graceExpiry = true := by simp [hs, ht, he, Config.graceMs]
  exact congrArg Host.Outcome.next ((live_running hr _).trans (if_pos hdue))

theorem exec_timeoutExpiry (hr : s.running) (hs : s.sup.state = .normal) (ht : s.sup.timer = some (.timeout, e))
    (he : s.profile.supTimeout ≤ e) (ha : s.path.awaited = none) : exec .timeoutExpiry s = .next s.enterLost := by
  have hdue : s.due .timeoutExpiry = true := by simp [hs, ht, he, ha]
  exact congrArg Host.Outcome.next ((live_running hr _).trans (if_pos hdue))

theorem exec_timeoutExpiryInLost (hr : s.running) (hs : s.sup.state = .lost) (ht : s.sup.timer = some (.timeout, e))
    (he : s.profile.supTimeout ≤ e) (ha : s.path.awaited = none) :
    exec .timeoutExpiryInLost s = .next (s.setSup { s.sup with reference := none, run := 0, timer := none }) := by
  have hdue : s.due .timeoutExpiryInLost = true := by simp [hs, ht, he, ha]
  exact congrArg Host.Outcome.next ((live_running hr _).trans (if_pos hdue))

theorem exec_pulseEnd (hr : s.running) (hp : s.sup.pulse = some e) (he : 100 ≤ e) :
    exec .pulseEnd s = .next (s.setSup { s.sup with pulse := none }) := by
  have hdue : s.due .pulseEnd = true := by simp [hp, he, Config.pulseMs]
  exact congrArg Host.Outcome.next ((live_running hr _).trans (if_pos hdue))

end

end Sys2Proof.Machine

open Sys2Proof Sys2Proof.Machine

/-- Settles O46: the two expiries that enter LOST, the timeout in LOST, and the pulse's end. -/
theorem supervisionExpiries : Obligations.SupervisionExpiries := by
  refine fun e s hr => ⟨?_, fun hs ht he ha => ?_, fun hp he => ?_⟩
  · intro c hc
    rw [← lose_eq]
    rcases hc with ⟨rfl, hs, ht, he⟩ | ⟨rfl, hs, ht, he, ha⟩
    · exact gives_enterLost (exec_graceExpiry hr hs ht he) (hs ▸ nofun)
    · exact gives_enterLost (exec_timeoutExpiry hr hs ht he ha) (hs ▸ nofun)
  · exact ⟨_, exec_timeoutExpiryInLost hr hs ht he ha, (setSup_alone s _).keeps, rfl⟩
  · exact ⟨_, exec_pulseEnd hr hp he, (setSup_alone s _).keeps, rfl, rfl⟩

end

section
/-! The table of fault records under its reports: where a new record goes, which record it displaces, what an appearance and a
disappearance make of a code's record (08, R147 to R152). -/

namespace Sys2Proof.Machine

/-! ## The lowest empty slot, and the record to displace (R149, R150) -/

section

variable {fm : FaultMemory} {j : Fin 32}

theorem freeSlot_eq_none (h : ∀ i, (fm.records.get i).isSome = true) : fm.freeSlot = none := by
  refine List.find?_eq_none.mpr fun i _ hnone => ?_
  rw [Option.isNone_iff_eq_none] at hnone
  have hsome := h i
  rw [hnone] at hsome
  contradiction

/-- The element whose key is the least comes first. -/
theorem head_sortByKey {α : Type} {key : α → Nat} {l : List α} {a : α} (ha : a ∈ l) (hl : ∀ b ∈ l, b ≠ a → key a < key b) :
    (sortByKey key l).head? = some a := by
  have perm := sortByKey_perm key l
  have sorted := sortByKey_sorted key l
  cases hs : sortByKey key l with
  | nil =>
    rw [hs] at perm
    exact absurd (perm.mem_iff.mpr ha) List.not_mem_nil
  | cons x xs =>
    rw [hs] at perm sorted
    by_cases hx : x = a
    · rw [hx]
      rfl
    · have hlt : key a < key x := hl x (perm.mem_iff.mp List.mem_cons_self) hx
      have hmem : a ∈ xs := (List.mem_cons.mp (perm.mem_iff.mpr ha)).resolve_left (Ne.symm hx)
      have hle : key x ≤ key a := (List.pairwise_cons.mp sorted).1 a hmem
      omega

theorem lastAt_lt (r : Record) : r.lastAt < 2 ^ 56 := by
  unfold Record.lastAt
  cases r.last with
  | none => decide
  | some m =>
    have hcycle := m.cycle.isLt
    have hms := m.ms.isLt
    simp only [Option.map_some, Option.getD_some]
    omega

theorem displaceKey_eq {r : Record} (h : fm.records.get j = some r) :
    displaceKey fm j = ((255 - r.healing.toNat) * 2 ^ 56 + r.lastAt) * 32 + j.val := by
  unfold displaceKey
  rw [h]
  rfl

/-- The order of R150: the record `r` of slot `j` goes before the record `q` of slot `k`. -/
abbrev DisplacedBefore (r q : Record) (j k : Fin 32) : Prop :=
  q.healing.toNat < r.healing.toNat ∨ q.healing = r.healing ∧ (r.lastAt < q.lastAt ∨ r.lastAt = q.lastAt ∧ j < k)

theorem displaceKey_lt {k : Fin 32} {r q : Record} (hj : fm.records.get j = some r) (hk : fm.records.get k = some q)
    (h : DisplacedBefore r q j k) : displaceKey fm j < displaceKey fm k := by
  have hlast := lastAt_lt r
  have hhealing := r.healing.isLt
  rw [displaceKey_eq hj, displaceKey_eq hk]
  rcases h with h | ⟨heq, h | ⟨hsame, h⟩⟩
  · omega
  · rw [heq]
    omega
  · rw [heq, hsame]
    exact Nat.add_lt_add_left h _

/-- The slots whose record is PASSIVE. -/
def FaultMemory.passiveSlots (fm : FaultMemory) : List (Fin 32) :=
  (List.finRange 32).filter (fun i => (fm.records.get i).any (fun r => r.state = .passive))

theorem mem_passiveSlots : j ∈ fm.passiveSlots ↔ ∃ r, fm.records.get j = some r ∧ r.state = .passive := by
  simp [FaultMemory.passiveSlots, Option.any_eq_true]

theorem displaced_eq (fm : FaultMemory) : fm.displaced = (sortByKey (displaceKey fm) fm.passiveSlots).head? := rfl

/-- The PASSIVE record that comes before every other in the order of R150 is displaced. -/
theorem displaced_of_first {r : Record} (hj : fm.records.get j = some r) (hr : r.state = .passive)
    (hfirst : ∀ k q, k ≠ j → fm.records.get k = some q → q.state = .passive → DisplacedBefore r q j k) :
    fm.displaced = some j := by
  rw [displaced_eq]
  refine head_sortByKey (mem_passiveSlots.mpr ⟨r, hj, hr⟩) fun k hk hne => ?_
  obtain ⟨q, hq, hpassive⟩ := mem_passiveSlots.mp hk
  exact displaceKey_lt hj hq (hfirst k q hne hq hpassive)

theorem displaced_eq_none (h : ∀ i r, fm.records.get i = some r → r.state ≠ .passive) : fm.displaced = none := by
  have hempty : fm.passiveSlots = [] :=
    List.eq_nil_iff_forall_not_mem.mpr fun i hi => by
      obtain ⟨r, hr, hpassive⟩ := mem_passiveSlots.mp hi
      exact h i r hr hpassive
  rw [displaced_eq, hempty]
  rfl

end

/-! ## A record created (R149, R150) -/

theorem queueFor_fullness (fm : FaultMemory) (i : Fin 32) (k : FaultKind) :
    (fm.queueFor i k).full = fm.full ∧ (fm.queueFor i k).overflow = fm.overflow := by
  unfold FaultMemory.queueFor
  split
  · exact ⟨rfl, rfl⟩
  · obtain ⟨-, -, hoverflow, hfull, -⟩ := queue_keeps fm i
    exact ⟨hfull, hoverflow⟩

/-- The table `b` is `a` with the created record in slot `i`; the write queue keeps what it held. -/
structure CreatedAt (a b : FaultMemory) (i : Fin 32) (r : Record) : Prop where
  records : b.records = a.records.set i (some r)
  fullness : b.full = a.full ∧ b.overflow = a.overflow
  queued : ∀ j, j ∈ a.writeQueue → j ∈ b.writeQueue

section

variable {fm placed : FaultMemory} {c : FaultCode} {i : Fin 32} {confirm : Nat} {now : Moment} {frame : Option Frame}

/-- A record that found a place is PENDING there, or confirmed at once with a confirm time of 0. -/
theorem create_placed (h : fm.place { code := c, timer := some 0 } = (placed, some i))
    (hi : placed.records.get i = some { code := c, timer := some 0 }) :
    CreatedAt placed (fm.create c confirm now frame).1 i (createdRecord confirm now frame c) := by
  unfold FaultMemory.create createdRecord
  simp only [h]
  by_cases hc : confirm = 0
  · rw [if_pos hc, if_pos hc]
    exact ⟨queueFor_records _ _ _, queueFor_fullness _ _ _, fun j => mem_queueFor (fm := placed.put i _) i c.kind⟩
  · rw [if_neg hc, if_neg hc]
    exact ⟨(hi ▸ Table.set_get placed.records i).symm, ⟨rfl, rfl⟩, fun _ => id⟩

theorem create_free (h : fm.freeSlot = some i) :
    (fm.create c confirm now frame).1.records = fm.records.set i (some (createdRecord confirm now frame c)) := by
  have hplace : fm.place { code := c, timer := some 0 } = (fm.put i { code := c, timer := some 0 }, some i) := by
    unfold FaultMemory.place
    rw [h]
  exact (create_placed hplace (Table.get_set_self _ _ _)).records.trans (table_set_set _ _ _ _)

theorem create_displaces (hfree : fm.freeSlot = none) (h : fm.displaced = some i) :
    (fm.create c confirm now frame).1.records = fm.records.set i (some (createdRecord confirm now frame c)) ∧
      (fm.create c confirm now frame).1.full = false ∧ (fm.create c confirm now frame).1.overflow = fm.overflow ∧
      i ∈ (fm.create c confirm now frame).1.writeQueue := by
  have hplace : fm.place { code := c, timer := some 0 } =
      (((fm.empty i).put i { code := c, timer := some 0 }).queue i, some i) := by
    unfold FaultMemory.place
    rw [hfree, h]
  obtain ⟨-, hrecords, hoverflow, hfull, -⟩ := queue_keeps ((fm.empty i).put i { code := c, timer := some 0 }) i
  have created := create_placed (confirm := confirm) (now := now) (frame := frame) hplace
    ((congrArg (Table.get · i) hrecords).trans (Table.get_set_self _ _ _))
  refine ⟨?_, created.fullness.1.trans hfull, created.fullness.2.trans hoverflow,
    created.queued i (mem_queue.mpr (.inr rfl))⟩
  rw [created.records, hrecords]
  exact (table_set_set _ _ _ _).trans (table_set_set _ _ _ _)

/-- A full table without a PASSIVE record has no place for a new one. -/
theorem create_refused (hfree : fm.freeSlot = none) (h : fm.displaced = none) :
    (fm.create c confirm now frame).1 = { fm with overflow := satInc fm.overflow, full := true } := by
  have hplace : fm.place { code := c, timer := some 0 } = ({ fm with overflow := satInc fm.overflow, full := true }, none) := by
    unfold FaultMemory.place
    rw [hfree, h]
  unfold FaultMemory.create
  dsimp only
  rw [hplace]

end

/-! ## Appearances (R148, R149, R152) -/

section

variable {s : State} {c : FaultCode} {i : Fin 32} {r : Record}

/-- The table with one code more in its present set. -/
def FaultMemory.entered (fm : FaultMemory) (c : FaultCode) : FaultMemory := { fm with present := fm.present ++ [c] }

/-- The table with one code less in its present set. -/
def FaultMemory.left (fm : FaultMemory) (c : FaultCode) : FaultMemory :=
  { fm with present := fm.present.filter (fun x => x ≠ c) }

theorem appear_again (h : c ∈ s.fm.present) : s.appear c = s := if_pos (List.contains_iff_mem.mpr h)

theorem appear_beyond (h : c ∉ s.fm.present) (hl : Config.presentMax ≤ s.fm.present.length) :
    (s.appear c).fm = { s.fm with overflow := satInc s.fm.overflow } := by
  unfold State.appear
  rw [if_neg (mt List.contains_iff_mem.mp h), if_pos hl, commitFaults_fm]

/-- A code without a record that enters the present set has one created. -/
theorem appear_creates (h : c ∉ s.fm.present) (hl : s.fm.present.length < Config.presentMax) (hslot : s.fm.slotOf c = none) :
    (s.appear c).fm = ((s.fm.entered c).create c s.profile.confirm s.now s.freezeFrame).1 := by
  have hentered : FaultMemory.slotOf { s.fm with present := s.fm.present ++ [c] } c = none := hslot
  unfold State.appear
  rw [if_neg (mt List.contains_iff_mem.mp h), if_neg (Nat.not_le.mpr hl)]
  dsimp only
  rw [hentered, commitFaults_fm]
  rfl

/-- A code whose record is PASSIVE has it confirmed again. -/
theorem appear_reconfirms (h : c ∉ s.fm.present) (hl : s.fm.present.length < Config.presentMax) (hslot : s.fm.slotOf c = some i)
    (hi : s.fm.records.get i = some r) (hr : r.state = .passive) :
    (s.appear c).fm = ((s.fm.entered c).put i (r.reconfirm s.now)).queueFor i c.kind := by
  have hentered : FaultMemory.slotOf { s.fm with present := s.fm.present ++ [c] } c = some i := hslot
  unfold State.appear
  rw [if_neg (mt List.contains_iff_mem.mp h), if_neg (Nat.not_le.mpr hl)]
  dsimp only
  rw [hentered]
  dsimp only
  rw [hi]
  dsimp only
  rw [if_pos hr, commitFaults_fm]
  rfl

theorem appear_present_new (h : c ∉ s.fm.present) (hl : s.fm.present.length < Config.presentMax) :
    (s.appear c).fm.present = s.fm.present ++ [c] :=
  (appear_present s c).trans (if_neg (not_or.mpr ⟨h, Nat.not_le.mpr hl⟩))

/-! ## Disappearances (R148, R149, R151) -/

theorem disappear_absent (h : c ∉ s.fm.present) : s.disappear c = s := if_neg (mt List.contains_iff_mem.mp h)

/-- What a disappearance makes of the record that its code has. -/
theorem disappear_record (h : c ∈ s.fm.present) (hslot : s.fm.slotOf c = some i) (hi : s.fm.records.get i = some r) :
    (s.disappear c).fm =
      match r.state with
      | .pending => (s.fm.left c).empty i
      | .active => ((s.fm.left c).put i { r with state := .passive }).queueFor i c.kind
      | .passive => s.fm.left c := by
  have hleft : FaultMemory.slotOf { s.fm with present := s.fm.present.filter (fun x => x ≠ c) } c = some i := hslot
  unfold State.disappear
  rw [if_pos (List.contains_iff_mem.mpr h)]
  dsimp only
  rw [hleft]
  dsimp only
  rw [hi]
  dsimp only
  cases r.state with
  | pending => exact commitFaults_fm _ _ _ _
  | active => exact commitFaults_fm _ _ _ _
  | passive => rfl

theorem disappear_pending (h : c ∈ s.fm.present) (hslot : s.fm.slotOf c = some i) (hi : s.fm.records.get i = some r)
    (hr : r.state = .pending) : (s.disappear c).fm.records = s.fm.records.set i none ∧ (s.disappear c).fm.full = false := by
  rw [disappear_record h hslot hi, hr]
  exact ⟨rfl, rfl⟩

theorem disappear_active (h : c ∈ s.fm.present) (hslot : s.fm.slotOf c = some i) (hi : s.fm.records.get i = some r)
    (hr : r.state = .active) : (s.disappear c).fm.records = s.fm.records.set i (some { r with state := .passive }) := by
  rw [disappear_record h hslot hi, hr]
  exact queueFor_records _ _ _

theorem disappear_passive (h : c ∈ s.fm.present) (hslot : s.fm.slotOf c = some i) (hi : s.fm.records.get i = some r)
    (hr : r.state = .passive) : (s.disappear c).fm.records = s.fm.records := by
  rw [disappear_record h hslot hi, hr]
  rfl

end

end Sys2Proof.Machine
end

section
/-! A PASSIVE record confirmed again, and left by its code again (08, R152). -/

namespace Sys2Proof.Machine

/-- The slot of a code depends on the records alone: a record of the same code in the same slot is found there again. -/
theorem slotOf_set {a b : FaultMemory} {c : FaultCode} {i : Fin 32} {r x : Record} (h : a.slotOf c = some i)
    (hi : a.records.get i = some r) (hx : x.code = r.code) (hb : b.records = a.records.set i (some x)) : b.slotOf c = some i := by
  have hsame : (fun j => (b.records.get j).any (fun r => decide (r.code = c))) =
      fun j => (a.records.get j).any (fun r => decide (r.code = c)) := by
    funext j
    rw [hb]
    by_cases hj : i = j
    · subst hj
      rw [Table.get_set_self, hi]
      simp [hx]
    · rw [Table.get_set_ne _ hj]
  unfold FaultMemory.slotOf at h ⊢
  rwa [hsame]

end Sys2Proof.Machine

open Sys2Proof Sys2Proof.Machine

/-- Settles O48: the record as the appearance leaves it is ACTIVE in its slot, where the disappearance finds it. -/
theorem passiveRecordReappears : Obligations.PassiveRecordReappears := by
  intro s c i r habsent hroom hslot hi hcode hr
  have happear : (s.appear c).fm.records = s.fm.records.set i (some (r.reconfirm s.now)) := by
    rw [appear_reconfirms habsent hroom hslot hi hr]
    exact queueFor_records _ _ _
  have hpresent : c ∈ (s.appear c).fm.present := mem_appear hroom
  have hactive : (s.appear c).fm.records.get i = some (r.reconfirm s.now) := by
    rw [happear, Table.get_set_self]
  refine ⟨happear, ?_⟩
  rw [disappear_active hpresent (slotOf_set (x := r.reconfirm s.now) hslot hi rfl happear) hactive rfl, happear, table_set_set]
  refine congrArg (fun x => s.fm.records.set i (some x)) ?_
  rw [← hr]
  rfl

end

section
/-! The confirm expiry, the healing pass, and the reports put together (08, R147 to R151, R154 to R156, R158). -/

namespace Sys2Proof.Machine

/-! ## The confirm expiry (R149, R156) -/

section

variable {s : State} {i : Fin 32} {r : Record} {e : Nat}

theorem exec_confirmExpiry (hr : s.running) (hm : s.mode.mode ≠ .parked) (hi : s.fm.records.get i = some r)
    (hp : r.state = .pending) (ht : r.timer = some e) (he : s.profile.confirm ≤ e) :
    exec (.confirmExpiry i) s = .next (s.confirmSlot i).takeWork := by
  have hdue : s.due (.confirmExpiry i) = true := by simp [hm, hi, hp, ht, reached, he]
  exact congrArg Host.Outcome.next ((live_running hr _).trans (if_pos hdue))

/-- The table with the record of slot `i` confirmed and the slot queued. -/
def State.confirmedTable (s : State) (i : Fin 32) (r : Record) : FaultMemory :=
  (s.fm.put i (r.confirm s.now s.freezeFrame)).queueFor i r.code.kind

theorem confirmSlot_pending (hi : s.fm.records.get i = some r) (hp : r.state = .pending) :
    s.confirmSlot i = s.commitFaults (s.confirmedTable i r) [i] true := by
  unfold State.confirmSlot
  rw [hi]
  exact if_pos hp

theorem confirmedTable_records (s : State) (i : Fin 32) (r : Record) :
    (s.confirmedTable i r).records = s.fm.records.set i (some (r.confirm s.now s.freezeFrame)) := queueFor_records _ _ _

theorem confirmedTable_sameClear (s : State) (i : Fin 32) (r : Record) : s.fm.SameClear (s.confirmedTable i r) :=
  .putFor (.refl _) _ _ _

theorem volatileKind_eq_false {k : FaultKind} (hc : k ≠ .configMemory) (hb : k ≠ .profileBad) : volatileKind k = false := by
  simp [volatileKind, hc, hb]

theorem mem_queueFor_self {k : FaultKind} (h : volatileKind k = false) (fm : FaultMemory) (i : Fin 32) :
    i ∈ (fm.queueFor i k).writeQueue := by
  rw [queueFor_written h]
  exact mem_queue.mpr (.inr rfl)

/-- A commit of a confirmation sets FAULT, whatever it hands on after it. -/
theorem commitFaults_cause (s : State) (fm : FaultMemory) (slots : List (Fin 32)) :
    (s.commitFaults fm slots true).causePending .fault := by
  have hset : ((s.offerChanged (s.setFm fm) (recordOffsets slots ++ [offCountB, offStatus])).setCause .fault).causePending .fault :=
    setCause_pending _ _
  unfold State.commitFaults
  simp only [Bool.true_or, if_true]
  split
  · exact hset
  · exact (evalWarnings_alerts _ _).pending _ hset

theorem confirmSlot_keeps (hi : s.fm.records.get i = some r) (hp : r.state = .pending) :
    KeepsBut Part.faults s (s.confirmSlot i) := by
  rw [confirmSlot_pending hi hp]
  exact (faults_evolves s _ _ _ (confirmedTable_sameClear s i r) fun h => (h.put _ _).queueFor _ _).keeps

end

/-! ## The healing pass (R155) -/

theorem mem_foldl_queue {i : Fin 32} (l : List (Fin 32)) (fm : FaultMemory) :
    i ∈ (l.foldl FaultMemory.queue fm).writeQueue ↔ i ∈ fm.writeQueue ∨ i ∈ l := by
  induction l generalizing fm with
  | nil => simp
  | cons j l ih => rw [List.foldl_cons, ih, mem_queue, List.mem_cons, or_assoc]

theorem foldl_queue_full (l : List (Fin 32)) (fm : FaultMemory) : (l.foldl FaultMemory.queue fm).full = fm.full := by
  induction l generalizing fm with
  | nil => rfl
  | cons j l ih =>
    obtain ⟨-, -, -, hfull, -⟩ := queue_keeps fm j
    exact (ih _).trans hfull

section

variable {limit : Nat} {r : Record}

theorem heal_unaffected (h : r.state ≠ .passive ∨ r.seen = true) : r.heal limit = some r :=
  if_neg fun ⟨hp, hs⟩ => h.elim (absurd hp) fun e => Bool.noConfusion (e.symm.trans hs)

theorem heal_removed (hp : r.state = .passive) (hs : r.seen = false) (h0 : limit ≠ 0) (hl : limit ≤ (satInc r.healing).toNat) :
    r.heal limit = none :=
  (if_pos ⟨hp, hs⟩).trans (if_pos ⟨h0, hl⟩)

theorem heal_raised (hp : r.state = .passive) (hs : r.seen = false) (hl : limit = 0 ∨ (satInc r.healing).toNat < limit) :
    r.heal limit = some { r with healing := satInc r.healing } :=
  (if_pos ⟨hp, hs⟩).trans (if_neg fun ⟨h0, hle⟩ => hl.elim h0 (Nat.not_lt.mpr hle))

end

/-- The seen mark as a healing pass leaves it: the code is present or not. -/
def FaultMemory.mark (fm : FaultMemory) (r : Record) : Record := { r with seen := fm.present.contains r.code }

section

variable {fm : FaultMemory} {limit : Nat} {i : Fin 32} {r : Record}

theorem healed_get (fm : FaultMemory) (limit : Nat) (i : Fin 32) :
    (fm.healed limit).records.get i = ((fm.records.get i).bind (Record.heal limit)).map fm.mark := by
  unfold FaultMemory.healed
  rw [(foldl_queue_keeps _ _).2]
  simp only [Table.get_map]
  rfl

theorem healed_present (fm : FaultMemory) (limit : Nat) : (fm.healed limit).present = fm.present := (foldl_queue_keeps _ _).1

/-- A slot that a pass empties makes the memory-full flag clear. -/
theorem healed_full (hi : fm.records.get i = some r) (h : r.heal limit = none) : (fm.healed limit).full = false := by
  have hemptied : (List.finRange 32).any (fun i => (fm.records.get i).isSome &&
      ((fm.records.map fun r : Option Record => r.bind (Record.heal limit)).get i).isNone) = true :=
    List.any_eq_true.mpr ⟨i, List.mem_finRange i, by simp [hi, h]⟩
  unfold FaultMemory.healed
  rw [foldl_queue_full]
  dsimp only
  rw [hemptied]
  exact Bool.and_false _

/-- A written record that a pass removes or raises has its slot queued. -/
theorem healed_queued (hi : fm.records.get i = some r) (hv : volatileKind r.code.kind = false)
    (h : (fm.healed limit).records.get i = none ∨ ∃ q, (fm.healed limit).records.get i = some q ∧ q.healing ≠ r.healing) :
    i ∈ (fm.healed limit).writeQueue := by
  have hchanged : healQueued (some r) (r.heal limit) = true := by
    rw [healed_get, hi, Option.bind_some] at h
    cases hh : r.heal limit with
    | none => simp [healQueued, hv]
    | some x =>
      rw [hh] at h
      obtain hnone | ⟨q, hq, hne⟩ := h
      · exact absurd hnone nofun
      · obtain rfl : fm.mark x = q := Option.some.inj hq
        simpa [healQueued, hv] using (show x.healing ≠ r.healing from hne)
  unfold FaultMemory.healed
  refine (mem_foldl_queue _ _).mpr (.inr (List.mem_filter.mpr ⟨List.mem_finRange i, ?_⟩))
  rw [Table.get_map, hi]
  exact hchanged

end

/-! ## The statement's parts -/

section

variable {s : State} {i : Fin 32} {r : Record}

/-- The confirm expiry of a PENDING record (R149, R154, R156, R158). -/
theorem gives_confirmExpiry {e : Nat} (hr : s.running) (hm : s.mode.mode ≠ .parked) (hi : s.fm.records.get i = some r)
    (hp : r.state = .pending) (ht : r.timer = some e) (he : s.profile.confirm ≤ e) :
    Gives (.confirmExpiry i) s (Part.faults ++ Part.work) (fun t =>
      t.fm.records.get i = some (r.confirm s.now s.freezeFrame) ∧
      (∀ j, j ≠ i → t.fm.records.get j = s.fm.records.get j) ∧ t.fm.present = s.fm.present ∧ t.causePending .fault ∧
      (r.code.kind ≠ .configMemory → r.code.kind ≠ .profileBad →
        i ∈ t.fm.writeQueue ∨ ∃ snapshot, t.ctrl.operation = .slotWrite i snapshot false true)) := by
  have hcommit := confirmSlot_pending hi hp
  have hfm : (s.confirmSlot i).fm = s.confirmedTable i r := by
    rw [hcommit, commitFaults_fm]
  have hrecords : (s.confirmSlot i).takeWork.fm.records = s.fm.records.set i (some (r.confirm s.now s.freezeFrame)) := by
    have hkept : (s.confirmSlot i).takeWork.fm.records = (s.confirmSlot i).fm.records :=
      (takeWork_evolves _).keeps .records (by decide)
    rw [hkept, hfm, confirmedTable_records]
  refine gives_work (exec_confirmExpiry hr hm hi hp ht he) (confirmSlot_keeps hi hp) ⟨?_, fun j hj => ?_, ?_, ?_, fun hc hb => ?_⟩
  · rw [hrecords, Table.get_set_self]
  · rw [hrecords, Table.get_set_ne _ (Ne.symm hj)]
  · rw [takeWork_present, hfm]
    exact queueFor_present _ _ _
  · refine (takeWork_alerts _).pending _ ?_
    rw [hcommit]
    exact commitFaults_cause _ _ _
  · refine takeWork_queued ?_
    rw [hfm]
    exact mem_queueFor_self (volatileKind_eq_false hc hb) _ _

end

theorem healingPass_fm (s : State) : s.healingPass.fm = s.fm.healed s.profile.heal := commitFaults_fm _ _ _ _

end Sys2Proof.Machine

open Sys2Proof Sys2Proof.Machine

/-- Settles O47: the confirm expiry, the reports by what the present set and the table hold, the full table, and the healing pass by
the record of each slot. -/
theorem faultRecords : Obligations.FaultRecords := by
  refine ⟨fun i r e s hr hm hi hp ht he => gives_confirmExpiry hr hm hi hp ht he, fun s c => ?_,
    fun s c habsent hroom hslot hfull => ?_, fun s i => ?_⟩
  · refine ⟨appear_again, appear_beyond, fun habsent hroom => ⟨appear_present_new habsent hroom, fun j hslot hfree => ?_⟩,
      disappear_absent, fun hpresent => ⟨disappear_present s c, fun j r hslot hj =>
        ⟨disappear_pending hpresent hslot hj, disappear_active hpresent hslot hj, disappear_passive hpresent hslot hj⟩⟩⟩
    rw [appear_creates habsent hroom hslot]
    exact create_free hfree
  · have hfree : (s.fm.entered c).freeSlot = none := freeSlot_eq_none hfull
    rw [appear_creates habsent hroom hslot]
    refine ⟨fun j r hj hr hfirst => create_displaces hfree (displaced_of_first hj hr hfirst), fun hnone => ?_⟩
    rw [create_refused hfree (displaced_eq_none hnone)]
    exact ⟨rfl, rfl, rfl⟩
  · rw [healingPass_fm]
    refine ⟨fun hi => ?_, fun r hi => ⟨fun hp hs h0 hl => ?_, fun hp hs hl => ?_, fun hother => ?_, fun hc hb =>
      healed_queued hi (volatileKind_eq_false hc hb)⟩, healed_present _ _⟩
    · rw [healed_get, hi]
      rfl
    · refine ⟨?_, healed_full hi (heal_removed hp hs h0 hl)⟩
      rw [healed_get, hi, Option.bind_some, heal_removed hp hs h0 hl]
      rfl
    · rw [healed_get, hi, Option.bind_some, heal_raised hp hs hl]
      simp [FaultMemory.mark]
    · rw [healed_get, hi, Option.bind_some, heal_unaffected hother]
      simp [FaultMemory.mark]

end

section
/-! What the end of a page write leads to: the page written once more, or the controller free and its next work taken, with a report of
CONFIG_MEMORY where the page was dropped (11, R187, R188; 08, R153, R159). -/

namespace Sys2Proof.Machine

/-! ## Operations that write a page for the second time (R159, R188) -/

/-- The operation writes its page once more. -/
def Operation.again : Operation → Bool
  | .slotWrite _ _ retried _ => retried
  | .countersWrite _ retried => retried
  | .storeWrite _ _ _ _ retried => retried
  | .none | .startProfileRead | .startCountersRead | .startSlotsRead | .restartRead | .storeRead _ _ _ | .storeAbort _ => false

/-- The work that the controller takes begins with a first write. -/
theorem takeWork_again {s : State} (h : s.ctrl.operation.again = false) : s.takeWork.ctrl.operation.again = false := by
  have slot (t : State) (ht : t.ctrl.operation.again = false) : t.takeSlot.ctrl.operation.again = false := by
    unfold State.takeSlot
    split
    · exact ht
    · rfl
  have next : s.nextWork.ctrl.operation.again = false := by
    by_cases hfree : s.ctrl.operation = .none ∧ s.fm.loaded = true
    · by_cases hst : ∃ p n, s.ctrl.store = .waiting p n
      · obtain ⟨p, n, hst⟩ := hst
        rw [nextWork_store hfree hst]
        rfl
      · rw [nextWork_ranked hfree fun p n e => hst ⟨p, n, e⟩]
        unfold State.rankedWork
        split
        · rfl
        · split
          · rfl
          · exact slot s h
    · rwa [nextWork_busy hfree]
  by_cases hread : ∃ p n k, s.nextWork.ctrl.operation = .storeRead p n k
  · obtain ⟨p, n, k, hread⟩ := hread
    refine (congrArg Operation.again (serveReader_storeRead hread)).trans ?_
    split <;> rfl
  · refine (congrArg (fun t => t.ctrl.operation.again) (serveReader_other fun p n k e => hread ⟨p, n, k, e⟩)).trans next

/-! ## The work after a page write (R183, R187) -/

/-- A controller that writes a page takes nothing, and a park flush is not complete. -/
theorem workAndFlush_writing {s : State} (ho : s.ctrl.operation ≠ .none) (hr : ∀ p n k, s.ctrl.operation ≠ .storeRead p n k) :
    s.workAndFlush = s := by
  have hflush : s.flushDone = false := by simp [State.flushDone, ho]
  unfold State.workAndFlush
  rw [takeWork_busy ho hr, checkFlush_waits hflush, takeWork_busy ho hr]

theorem workAndFlush_again {s : State} (hf : s.flushHeld) (h : s.ctrl.operation.again = false) :
    s.workAndFlush.ctrl.operation.again = false := by
  rw [workAndFlush_held hf]
  exact takeWork_again (takeWork_again h)

theorem workAndFlush_held_keeps {s : State} (h : s.flushHeld) : KeepsBut Part.work s s.workAndFlush :=
  workAndFlush_parts (.inl ⟨h, rfl⟩)

/-- The controller free, with nothing waiting, stays free. -/
theorem workAndFlush_idle {s : State} (hf : s.flushHeld) (ho : s.ctrl.operation = .none) (hs : s.ctrl.store = .none)
    (hr : s.ctrl.restartWaiting = false) (hc : s.ctrl.countersPending = false) (hq : s.fm.writeQueue = []) :
    s.workAndFlush = s := by
  have idle : s.takeWork = s := takeWork_idle ho (fun _ _ e => Store.noConfusion (hs.symm.trans e)) hr hc hq
  rw [workAndFlush_held hf, idle, idle]

/-- A page written, and the operation that comes after it. -/
def State.pageEnded (s : State) (page : Nat) (bytes : List Byte) (o : Operation) : State := (s.writePage page bytes).setOperation o

theorem pageEnded_keeps (s : State) (page : Nat) (bytes : List Byte) (o : Operation) :
    KeepsBut [.operation, .cfg, .torn] s (s.pageEnded page bytes o) := writePage_keeps s page bytes o

theorem pageEnded_stores {s : State} (h : Memory.wf Config.cfgErased s.cfg = true) (page : Nat) {bytes : List Byte}
    (hl : bytes.length = 64) (o : Operation) : StoresPage s.cfg (s.pageEnded page bytes o).cfg page bytes :=
  writePage_stores h page hl

theorem not_mem_torn_pageEnded (s : State) (page : Nat) (bytes : List Byte) (o : Operation) :
    page ∉ (s.pageEnded page bytes o).ctrl.torn := not_mem_torn_writePage s page bytes

/-- A page that differs is written once more, and nothing else happens (R159, R188). -/
theorem gives_pageAgain {s : State} {c : Instr} {page : Nat} {bytes : List Byte} {o : Operation}
    (he : exec c s = .next (s.pageEnded page bytes o).workAndFlush) (ho : o ≠ .none) (hr : ∀ p n k, o ≠ .storeRead p n k)
    (hw : Memory.wf Config.cfgErased s.cfg = true) (hl : bytes.length = 64) :
    Gives c s [.operation, .cfg, .torn] (fun t => t.ctrl.operation = o ∧ StoresPage s.cfg t.cfg page bytes) := by
  rw [workAndFlush_writing ho hr] at he
  exact ⟨_, he, pageEnded_keeps s page bytes o, rfl, pageEnded_stores hw page hl o⟩

/-! ## A dropped page reported (R153, R159, R188) -/

theorem ReportedOnce.of_records {s t u v : State} {k : FaultKind} (h : ReportedOnce t u k) (hrecords : t.fm.records = s.fm.records)
    (hcycle : t.mode.cycle = s.mode.cycle) (htime : t.mode.time = s.mode.time) (hrec : v.fm.records = u.fm.records) :
    ReportedOnce s v k := by
  unfold ReportedOnce FaultMemory.slotOf at h ⊢
  rwa [hrecords, hcycle, htime, ← hrec] at h

theorem takeMomentary_flushHeld {s : State} (h : s.flushHeld) (k : FaultKind) : (s.takeMomentary k).flushHeld := by
  have reported := (takeMomentary_evolves s k).keeps
  intro hm
  refine (h ((reported .opMode (by decide)).symm.trans hm)).imp (fun hq => ?_) fun hc =>
    (reported .countersPending (by decide) : _ = _).trans hc
  obtain ⟨i, hi⟩ := List.exists_mem_of_ne_nil _ hq
  exact List.ne_nil_of_mem (takeMomentary_queued k hi)

/-- The page of `s` was dropped: one report of CONFIG_MEMORY was made, and the controller took its next work. -/
structure PageDropped (s t : State) : Prop where
  keeps : KeepsBut (Part.faults ++ Part.work) s t
  again : t.ctrl.operation.again = false
  reported : ReportedOnce s t .configMemory

theorem report_dropped {s : State} (hl : s.fm.loaded = true) (hf : s.flushHeld) (ho : s.ctrl.operation.again = false) :
    PageDropped s (s.momentary .configMemory).workAndFlush := by
  have reported := (takeMomentary_evolves s .configMemory).keeps
  have hheld := takeMomentary_flushHeld hf .configMemory
  have hoperation : (s.takeMomentary .configMemory).ctrl.operation = s.ctrl.operation := reported .operation (by decide)
  have worked := workAndFlush_held_keeps hheld
  rw [momentary_loaded _ _ hl]
  exact
    { keeps := (reported.mono (by decide)).trans (worked.mono (by decide))
      again := workAndFlush_again hheld (hoperation ▸ ho)
      reported := (takeMomentary_reportedOnce s .configMemory rfl).of_records rfl rfl rfl (worked .records (by decide)) }

end Sys2Proof.Machine
end

section
/-! The page writes of a fault slot and of the counters block settled, and the end of a clear (08, R159, R161; 11, R188). -/

namespace Sys2Proof.Machine

/-! ## The counters block (R188) -/

section

variable {s : State} {snapshot bytes : List Byte} {retried : Bool}

theorem exec_countersWrite (hr : s.running) (ho : s.ctrl.operation = .countersWrite snapshot retried) (o : PageOutcome) :
    exec (.countersWriteComplete o) s = .next (s.countersWriteDone snapshot retried o).workAndFlush := by
  simp only [exec, execCountersWriteComplete, live_running hr, ho]

theorem countersWriteDone_verified : s.countersWriteDone snapshot retried .stored = s.pageEnded countersPageNo snapshot .none :=
  if_pos rfl

theorem countersWriteDone_differs (hl : bytes.length = 64) (hne : bytes ≠ snapshot) :
    s.countersWriteDone snapshot retried (.differs bytes) =
      if retried then (s.pageEnded countersPageNo bytes .none).momentary .configMemory
      else s.pageEnded countersPageNo bytes (.countersWrite snapshot true) := by
  unfold State.countersWriteDone
  rw [writtenBytes_differs hl]
  exact if_neg hne

theorem gives_countersStored (hr : s.running) (hf : s.flushHeld) (hw : Memory.wf Config.cfgErased s.cfg = true)
    (ho : s.ctrl.operation = .countersWrite snapshot retried) (hl : snapshot.length = 64) :
    Gives (.countersWriteComplete .stored) s (.cfg :: .torn :: Part.work) (fun t =>
      StoresPage s.cfg t.cfg 0xA0 snapshot ∧ countersPageNo ∉ t.ctrl.torn ∧
      (s.ctrl.store = .none → s.ctrl.restartWaiting = false → s.ctrl.countersPending = false → s.fm.writeQueue = [] →
        t.ctrl.operation = .none)) := by
  have hended := pageEnded_keeps s countersPageNo snapshot .none
  have hheld := flushHeld_of_keeps hended (by decide) hf
  have worked := workAndFlush_held_keeps hheld
  refine ⟨_, exec_countersWrite hr ho .stored, ?_⟩
  rw [countersWriteDone_verified]
  refine ⟨(hended.mono (by decide)).trans (worked.mono (by decide)),
    (pageEnded_stores hw countersPageNo hl .none).of_keeps worked (by decide), ?_, fun hs hrw hc hq => ?_⟩
  · rw [(worked .torn (by decide) : _ = _)]
    exact not_mem_torn_pageEnded s countersPageNo snapshot .none
  · rw [workAndFlush_idle hheld rfl hs hrw hc hq]
    rfl

theorem gives_countersDropped (hr : s.running) (hf : s.flushHeld) (hloaded : s.fm.loaded = true)
    (hw : Memory.wf Config.cfgErased s.cfg = true) (ho : s.ctrl.operation = .countersWrite snapshot true)
    (hl : bytes.length = 64) (hne : bytes ≠ snapshot) :
    Gives (.countersWriteComplete (.differs bytes)) s (.cfg :: .torn :: Part.faults ++ Part.work) (fun t =>
      t.ctrl.operation ≠ .countersWrite snapshot true ∧ StoresPage s.cfg t.cfg 0xA0 bytes ∧
      ReportedOnce s t .configMemory) := by
  have hended := pageEnded_keeps s countersPageNo bytes .none
  have dropped := report_dropped (s := s.pageEnded countersPageNo bytes .none) hloaded
    (flushHeld_of_keeps hended (by decide) hf) rfl
  refine ⟨_, exec_countersWrite hr ho (.differs bytes), ?_⟩
  rw [countersWriteDone_differs hl hne, if_pos rfl]
  exact ⟨(hended.mono (by decide)).trans (dropped.keeps.mono (by decide)),
    fun e => Bool.noConfusion ((congrArg Operation.again e).symm.trans dropped.again),
    (pageEnded_stores hw countersPageNo hl .none).of_keeps dropped.keeps (by decide), dropped.reported.of_records rfl rfl rfl rfl⟩

end

/-! ## A slot done with, and the end of a clear (R161) -/

theorem endClear_goesOn {s : State} (h : ¬ (s.fm.clearing = true ∧ s.fm.outstanding = [])) : s.endClear = s := if_neg h

/-- The clear over, before its completion is handed to the requester. -/
def State.clearEnded (s : State) : State := s.offerStatus (s.setFm { s.fm with clearing := false, requester := none })

theorem clearEnded_keeps (s : State) : KeepsBut (.clear :: Part.images) s s.clearEnded :=
  ((setClear_evolves s false s.fm.outstanding none).keeps.mono (by decide)).trans
    ((offerStatus_evolves s _).keeps.mono (by decide))

theorem clearEnded_clear (s : State) : s.clearEnded.fm.clearing = false ∧ s.clearEnded.fm.outstanding = s.fm.outstanding := by
  obtain ⟨hclearing, houtstanding, -⟩ := (offerStatus_evolves s
    (s.setFm { s.fm with clearing := false, requester := none })).keeps .clear (by decide)
  exact ⟨hclearing, houtstanding⟩

theorem endClear_ends {s : State} (h : s.fm.clearing = true ∧ s.fm.outstanding = []) :
    s.endClear = if s.fm.requester = some .command then s.clearEnded.complete else s.clearEnded := if_pos h

/-- What the end of a slot's write leaves of the clear in progress, `slots` being what still counts for it. -/
structure ClearGoes (s t : State) (slots : List (Fin 32)) : Prop where
  outstanding : t.fm.outstanding = slots
  ended : s.fm.clearing = true → slots = [] → t.fm.clearing = false ∧
    (s.fm.requester = some .command → t.path.command = none ∧ t.path.result.value = .done ∧ t.causePending .command)
  goesOn : slots ≠ [] → t.fm.clearing = s.fm.clearing

/-- The controller's next work is no part of the clear. -/
theorem ClearGoes.worked {s u t : State} {slots : List (Fin 32)} (h : ClearGoes s u slots) (k : KeepsBut Part.work u t) :
    ClearGoes s t slots := by
  obtain ⟨hclearing, houtstanding, -⟩ := k .clear (by decide)
  refine ⟨houtstanding.trans h.outstanding, fun hc hempty => ?_, fun hne => hclearing.trans (h.goesOn hne)⟩
  obtain ⟨hover, hrequested⟩ := h.ended hc hempty
  refine ⟨hclearing.trans hover, fun hq => ?_⟩
  obtain ⟨hcommand, hresult, hcause⟩ := hrequested hq
  exact ⟨(k .command (by decide) : _ = _).trans hcommand,
    (congrArg Result.value (k .result (by decide))).trans hresult, (Alerts.same (k .attnPending (by decide))).pending _ hcause⟩

theorem endClear_goes (s : State) : ClearGoes s s.endClear s.fm.outstanding := by
  by_cases h : s.fm.clearing = true ∧ s.fm.outstanding = []
  · obtain ⟨hclearing, houtstanding⟩ := clearEnded_clear s
    rw [endClear_ends h]
    by_cases hc : s.fm.requester = some .command
    · obtain ⟨hcommand, hresult, hcause⟩ := finishCommand_path s.clearEnded .done .none
      obtain ⟨hclearing', houtstanding', -⟩ := (complete_evolves s.clearEnded).keeps .clear (by decide)
      rw [if_pos hc]
      exact ⟨houtstanding'.trans houtstanding,
        fun _ _ => ⟨hclearing'.trans hclearing, fun _ => ⟨hcommand, congrArg Result.value hresult, hcause⟩⟩,
        absurd h.2⟩
    · rw [if_neg hc]
      exact ⟨houtstanding, fun _ _ => ⟨hclearing, fun e => absurd e hc⟩, absurd h.2⟩
  · rw [endClear_goesOn h]
    exact ⟨rfl, fun hclearing hempty => absurd ⟨hclearing, hempty⟩ h, fun _ => rfl⟩

/-- The slots that still count for a clear when the write of slot `i` is done with. -/
def State.stillOutstanding (s : State) (i : Fin 32) (counts : Bool) : List (Fin 32) :=
  if counts then s.fm.outstanding.filter (fun j => j ≠ i) else s.fm.outstanding

theorem slotWritten_goes (s : State) (i : Fin 32) (counts : Bool) :
    ClearGoes s (s.slotWritten i counts) (s.stillOutstanding i counts) := by
  cases counts with
  | true =>
    have h := endClear_goes ((s.setOperation .none).setFm { s.fm with outstanding := s.fm.outstanding.filter (fun j => j ≠ i) })
    exact ⟨h.outstanding, h.ended, h.goesOn⟩
  | false =>
    have h := endClear_goes (s.setOperation .none)
    exact ⟨h.outstanding, h.ended, h.goesOn⟩

theorem slotWritten_free (s : State) (i : Fin 32) (counts : Bool) : (s.slotWritten i counts).ctrl.operation = .none := by
  have done (t : State) (ht : t.ctrl.operation = .none) : t.endClear.ctrl.operation = .none := by
    unfold State.endClear
    split
    · split
      · exact ((complete_evolves _).keeps .operation (by decide) : _ = _).trans ((clearEnded_keeps t .operation (by decide)).trans ht)
      · exact (clearEnded_keeps t .operation (by decide) : _ = _).trans ht
    · exact ht
  cases counts with
  | true => exact done _ rfl
  | false => exact done _ rfl

/-! ## The page write of a slot (R159) -/

section

variable {s : State} {i : Fin 32} {snapshot bytes : List Byte} {retried counts : Bool}

theorem exec_slotWrite (hr : s.running) (ho : s.ctrl.operation = .slotWrite i snapshot retried counts) (o : PageOutcome) :
    exec (.faultSlotWriteComplete o) s = .next (s.slotWriteDone i snapshot retried counts o).workAndFlush := by
  simp only [exec, execFaultSlotWriteComplete, live_running hr, ho]

theorem slotWriteDone_verified : s.slotWriteDone i snapshot retried counts .stored =
    (s.writePage (slotPageNo i) snapshot).slotWritten i counts := if_pos rfl

theorem slotWriteDone_differs (hl : bytes.length = 64) (hne : bytes ≠ snapshot) :
    s.slotWriteDone i snapshot retried counts (.differs bytes) =
      if retried then ((s.writePage (slotPageNo i) bytes).slotWritten i counts).momentary .configMemory
      else s.pageEnded (slotPageNo i) bytes (.slotWrite i snapshot true counts) := by
  unfold State.slotWriteDone
  rw [writtenBytes_differs hl]
  exact if_neg hne

/-- The page of a slot written for the last time: the page, the controller free, the clear. -/
structure SlotDone (s u : State) (i : Fin 32) (bytes : List Byte) (counts : Bool) : Prop where
  keeps : KeepsBut (Part.slotDone ++ [.cfg, .torn]) s u
  operation : u.ctrl.operation = .none
  page : StoresPage s.cfg u.cfg (slotPageNo i) bytes
  torn : slotPageNo i ∉ u.ctrl.torn
  clear : ClearGoes s u (s.stillOutstanding i counts)

theorem slotWritten_done (hw : Memory.wf Config.cfgErased s.cfg = true) (hl : bytes.length = 64) :
    SlotDone s ((s.writePage (slotPageNo i) bytes).slotWritten i counts) i bytes counts := by
  have written := (writePage_evolves s (slotPageNo i) bytes).keeps
  have done := (slotWritten_evolves (s.writePage (slotPageNo i) bytes) i counts).keeps
  obtain ⟨houtstanding, hended, hgoesOn⟩ := slotWritten_goes (s.writePage (slotPageNo i) bytes) i counts
  exact
    { keeps := (written.mono (by decide)).trans (done.mono (by decide))
      operation := slotWritten_free _ i counts
      page := (writePage_stores hw (slotPageNo i) hl).of_keeps done (by decide)
      torn := by
        rw [(done .torn (by decide) : _ = _)]
        exact not_mem_torn_writePage s (slotPageNo i) bytes
      clear := ⟨houtstanding, hended, hgoesOn⟩ }

theorem gives_slotStored (hr : s.running) (hf : s.flushHeld) (hw : Memory.wf Config.cfgErased s.cfg = true)
    (ho : s.ctrl.operation = .slotWrite i snapshot retried counts) (hl : snapshot.length = 64) :
    Gives (.faultSlotWriteComplete .stored) s (Part.slotDone ++ Part.work ++ [.cfg, .torn]) (fun t =>
      StoresPage s.cfg t.cfg (0x80 + i.val) snapshot ∧ slotPageNo i ∉ t.ctrl.torn ∧
      t.fm.outstanding = s.stillOutstanding i counts ∧
      (s.fm.clearing = true → t.fm.outstanding = [] →
        t.fm.clearing = false ∧
        (s.fm.requester = some .command → t.path.command = none ∧ t.path.result.value = .done ∧ t.causePending .command)) ∧
      (t.fm.outstanding ≠ [] → t.fm.clearing = s.fm.clearing)) := by
  have done := slotWritten_done (i := i) (counts := counts) hw hl
  refine ⟨_, exec_slotWrite hr ho .stored, ?_⟩
  rw [slotWriteDone_verified]
  generalize (s.writePage (slotPageNo i) snapshot).slotWritten i counts = u at *
  have worked := workAndFlush_held_keeps (flushHeld_of_keeps done.keeps (by decide) hf)
  have clear := done.clear.worked worked
  have htorn : u.workAndFlush.ctrl.torn = u.ctrl.torn := worked .torn (by decide)
  exact ⟨(done.keeps.mono (by decide)).trans (worked.mono (by decide)), done.page.of_keeps worked (by decide),
    htorn.symm ▸ done.torn, clear.outstanding, fun hc hempty => clear.ended hc (clear.outstanding ▸ hempty),
    fun hne => clear.goesOn (clear.outstanding ▸ hne)⟩

theorem gives_slotDropped (hr : s.running) (hf : s.flushHeld) (hloaded : s.fm.loaded = true)
    (hw : Memory.wf Config.cfgErased s.cfg = true) (ho : s.ctrl.operation = .slotWrite i snapshot true counts)
    (hl : bytes.length = 64) (hne : bytes ≠ snapshot) :
    Gives (.faultSlotWriteComplete (.differs bytes)) s (Part.pageDone ++ Part.work) (fun t =>
      t.fm.outstanding = s.stillOutstanding i counts ∧ t.ctrl.operation ≠ .slotWrite i snapshot true counts ∧
      StoresPage s.cfg t.cfg (0x80 + i.val) bytes ∧ ReportedOnce s t .configMemory) := by
  have done := slotWritten_done (i := i) (counts := counts) hw hl
  refine ⟨_, exec_slotWrite hr ho (.differs bytes), ?_⟩
  rw [slotWriteDone_differs hl hne, if_pos rfl]
  generalize (s.writePage (slotPageNo i) bytes).slotWritten i counts = u at *
  have hloaded' : u.fm.loaded = true := (done.keeps .loading (by decide)).1.trans hloaded
  obtain ⟨-, hcycle, htime⟩ := done.keeps .cycle (by decide)
  have dropped := report_dropped hloaded' (flushHeld_of_keeps done.keeps (by decide) hf) (congrArg Operation.again done.operation)
  exact ⟨(done.keeps.mono (by decide)).trans (dropped.keeps.mono (by decide)),
    (dropped.keeps .clear (by decide)).2.1.trans done.clear.outstanding,
    fun e => Bool.noConfusion ((congrArg Operation.again e).symm.trans dropped.again),
    done.page.of_keeps dropped.keeps (by decide),
    dropped.reported.of_records (done.keeps .records (by decide)) hcycle htime rfl⟩

end

end Sys2Proof.Machine

open Sys2Proof Sys2Proof.Machine

/-- Settles O49: the page that agrees, the page written once more, and the page dropped. -/
theorem faultSlotWrites : Obligations.FaultSlotWrites := by
  refine fun i snapshot bytes retried counts s hr hf hloaded ho hsnapshot hbytes hne hw =>
    ⟨gives_slotStored hr hf hw ho hsnapshot, ?_, ?_⟩
  · rintro rfl
    refine gives_pageAgain ?_ Operation.noConfusion (fun _ _ _ => Operation.noConfusion) hw hbytes
    rw [exec_slotWrite hr ho, slotWriteDone_differs hbytes hne]
    rfl
  · rintro rfl
    exact gives_slotDropped hr hf hloaded hw ho hbytes hne

/-- Settles O50: the page that agrees, the page written once more, and the page dropped. -/
theorem countersWrites : Obligations.CountersWrites := by
  refine fun snapshot bytes retried s hr hf hloaded ho hsnapshot hbytes hne hw =>
    ⟨gives_countersStored hr hf hw ho hsnapshot, ?_, ?_⟩
  · rintro rfl
    refine gives_pageAgain ?_ Operation.noConfusion (fun _ _ _ => Operation.noConfusion) hw hbytes
    rw [exec_countersWrite hr ho, countersWriteDone_differs hbytes hne]
    rfl
  · rintro rfl
    exact gives_countersDropped hr hf hloaded hw ho hbytes hne

end

section
/-! Responses on the service line and the timers of the service unit: the transmission with its echo check, the tester-active flag, and
the end of the LAMP test (09, R167, R168, R170, R175, R177). -/

namespace Sys2Proof.Machine

section

variable {s : State} {c : ServiceChar} {b : Byte} {e : Nat}

/-! ## The transmission (R167, R168) -/

theorem exec_replyTurnaround (hr : s.running) (ht : s.svc.turnaround = some e) (he : 3 ≤ e) :
    exec .replyTurnaround s = .next s.beginTransmission := by
  have hdue : s.due .replyTurnaround = true := reached_iff.mpr ⟨e, ht, he⟩
  exact congrArg Host.Outcome.next ((live_running hr _).trans (if_pos hdue))

theorem exec_responseCharacter (hr : s.running) : exec (.responseCharacter c) s = .next (s.readBack c) :=
  congrArg Host.Outcome.next (live_running hr _)

/-- While a response is sent, a character read back is judged against the one that was sent. -/
theorem readBack_sending (ht : s.svc.transmitting = true) (hb : s.svc.response[s.svc.sent]? = some b) :
    s.readBack c =
      if c.good ∧ c.data = b then
        if s.svc.sent + 1 = s.svc.response.length then s.setSvc s.svc.endResponse.idle
        else s.setSvc { s.svc with sent := s.svc.sent + 1 }
      else s.setSvc { s.svc.endResponse.skip with echoLosses := satInc s.svc.echoLosses } := by
  unfold State.readBack
  rw [ht, hb]

theorem readBack_next (ht : s.svc.transmitting = true) (hb : s.svc.response[s.svc.sent]? = some b) (hg : c.good = true)
    (hd : c.data = b) (hmore : s.svc.sent + 1 ≠ s.svc.response.length) :
    s.readBack c = s.setSvc { s.svc with sent := s.svc.sent + 1 } :=
  (readBack_sending ht hb).trans ((if_pos ⟨hg, hd⟩).trans (if_neg hmore))

theorem readBack_last (ht : s.svc.transmitting = true) (hb : s.svc.response[s.svc.sent]? = some b) (hg : c.good = true)
    (hd : c.data = b) (hlast : s.svc.sent + 1 = s.svc.response.length) : s.readBack c = s.setSvc s.svc.endResponse.idle :=
  (readBack_sending ht hb).trans ((if_pos ⟨hg, hd⟩).trans (if_pos hlast))

theorem readBack_lost (ht : s.svc.transmitting = true) (hb : s.svc.response[s.svc.sent]? = some b)
    (h : c.good = false ∨ c.data ≠ b) :
    s.readBack c = s.setSvc { s.svc.endResponse.skip with echoLosses := satInc s.svc.echoLosses } := by
  refine (readBack_sending ht hb).trans (if_neg ?_)
  rintro ⟨hg, hd⟩
  rcases h with h | h
  · exact Bool.noConfusion (h.symm.trans hg)
  · exact h hd

/-- A command that is a character read back. -/
theorem gives_readBack {u : State} {P : State → Prop} (hr : s.running) (hu : s.readBack c = u) (hP : P u) :
    Gives (.responseCharacter c) s [.service] P :=
  ⟨u, (exec_responseCharacter hr).trans (congrArg _ hu), hu ▸ (readBack_evolves s c).keeps, hP⟩

/-! ## The tester-active flag (R170) -/

theorem exec_testerActiveExpiry (hr : s.running) (ht : s.svc.testerTimer = some e) (he : 5000 ≤ e) :
    exec .testerActiveExpiry s = .next s.testerExpiry := by
  have hdue : s.due .testerActiveExpiry = true := reached_iff.mpr ⟨e, ht, he⟩
  exact congrArg Host.Outcome.next ((live_running hr _).trans (if_pos hdue))

/-- The flag is clear, its timer idle, and the cause TESTER pending. -/
theorem testerExpiry_clears (s : State) : s.testerExpiry.svc.testerActive = false ∧ s.testerExpiry.svc.testerTimer = none ∧
    s.testerExpiry.causePending .tester := by
  unfold State.testerExpiry
  generalize hx : s.setSvc { s.svc with testerActive := false, testerTimer := none } = x
  have hkeeps : KeepsBut Part.images x ((s.offerStatus x).setCause .tester) :=
    (offerStatus_evolves s x).keeps.trans ((setCause_evolves _ _).keeps.mono (by decide))
  obtain ⟨hactive, htimer⟩ := hkeeps .tester (by decide)
  subst hx
  exact ⟨hactive, htimer, setCause_pending _ _⟩

/-! ## The end of the LAMP test (R175, R177) -/

theorem exec_lampTestTimerExpiry (hr : s.running) (hlamp : s.svc.test = .lamp) (ht : s.svc.testTimer = some e)
    (he : 1000 * s.svc.testDuration ≤ e) : exec .lampTestTimerExpiry s = .next (s.endTest .completed) := by
  have hdue : s.due .lampTestTimerExpiry = true := by simp [hlamp, ht, he]
  exact congrArg Host.Outcome.next ((live_running hr _).trans (if_pos hdue))

end

/-- The end of a LAMP test ends with an evaluation of every telltale. -/
theorem endTest_lamp {s : State} (h : s.svc.test = .lamp) (o : TestOutcome) : ∃ u : State, s.endTest o = u.evalAllLamps := by
  unfold State.endTest
  rw [h]
  exact ⟨_, if_neg (by decide)⟩

/-- Every telltale returns to its sources. -/
theorem endTest_lamps {s : State} (h : s.svc.test = .lamp) (o : TestOutcome) (k : Fin 48) :
    ((s.endTest o).ind.lamps.get k).commanded = (s.endTest o).commanded k := by
  obtain ⟨u, hu⟩ := endTest_lamp h o
  rw [hu]
  exact evalAllLamps_settled u k

end Sys2Proof.Machine

open Sys2Proof Sys2Proof.Machine

/-- Settles O59: the turnaround, the three outcomes of a character read back, and the two timers. -/
theorem responsesAndServiceTimers : Obligations.ResponsesAndServiceTimers := by
  refine ⟨fun b c s hr => ⟨fun e ht he => ?_, fun ht hb => ⟨fun hg hd hmore => ?_, fun hg hd hlast => ?_, fun hlost => ?_⟩⟩,
    fun s hr => ⟨fun e ht he => ?_, fun e hlamp ht he => ?_⟩⟩
  · exact ⟨_, exec_replyTurnaround hr ht he, (beginTransmission_evolves s).keeps, rfl, rfl, rfl, rfl⟩
  · exact gives_readBack hr (readBack_next ht hb hg hd hmore) ⟨rfl, rfl, ht⟩
  · exact gives_readBack hr (readBack_last ht hb hg hd hlast) ⟨rfl, rfl, rfl⟩
  · exact gives_readBack hr (readBack_lost ht hb hlost) ⟨rfl, rfl, rfl, rfl⟩
  · exact ⟨_, exec_testerActiveExpiry hr ht he, (testerExpiry_evolves s).keeps, testerExpiry_clears s⟩
  · obtain ⟨hnone, htimer, houtcome⟩ := endTest_ended s .completed (by rw [hlamp]; decide)
    exact ⟨_, exec_lampTestTimerExpiry hr hlamp ht he, (endTest_evolves s .completed).keeps, hnone, houtcome, htimer,
      endTest_lamps hlamp .completed⟩

end

section
/-! Requests refused or dropped, and STOP_TEST: the order of a request's checks, what a functional request is answered, and the response
that a unit has begun (09, R167, R169, R170, R176). -/

namespace Sys2Proof.Machine

/-! ## The checks in their order (R169) -/

section

variable {s : State} {r : Request} {a tester : Byte} {params : List Byte}

theorem judgeRequest_badRequest (hc : r.countOk params = false) :
    s.judgeRequest r.code params = (s, .refusal .badRequest) := by
  unfold State.judgeRequest
  rw [ofCode_code]
  exact if_pos (by rw [hc]; rfl)

theorem judgeRequest_outOfRange (hc : r.countOk params = true) (hg : r.rangeOk params = false) :
    s.judgeRequest r.code params = (s, .refusal .outOfRange) := by
  unfold State.judgeRequest
  rw [ofCode_code]
  exact (if_neg (by rw [hc]; decide)).trans (if_pos (by rw [hg]; rfl))

/-! ## Requests to the functional address (R169) -/

theorem functionalAnswer_acts (h : r.isRead = false) : s.functionalAnswer r.code params = none := by
  unfold State.functionalAnswer
  rw [ofCode_code]
  exact if_neg (by rw [h]; decide)

theorem functionalAnswer_refused {u : State} {x : Refused} (h : s.judgeRequest r.code params = (u, .refusal x)) :
    s.functionalAnswer r.code params = none := by
  unfold State.functionalAnswer
  rw [ofCode_code, h]
  exact ite_self _

/-- A functional request that acts, or that fails its checks, is not answered. -/
theorem functionalAnswer_dropped (h : r.countOk params = false ∨ r.rangeOk params = false ∨ r.isRead = false) :
    s.functionalAnswer r.code params = none := by
  cases hc : r.countOk params with
  | false => exact functionalAnswer_refused (judgeRequest_badRequest hc)
  | true =>
    rcases h with h | hg | hact
    · exact absurd (hc.symm.trans h) (by decide)
    · exact functionalAnswer_refused (judgeRequest_outOfRange hc hg)
    · exact functionalAnswer_acts hact

theorem takeRequestFrame_dropped {code : Byte} (h : s.functionalAnswer code params = none) :
    s.takeRequestFrame true tester code params = s.testerSeen := by
  unfold State.takeRequestFrame
  rw [if_pos rfl, h]

/-- A request that is dropped leaves the reception as it stood when its last character came. -/
theorem testerSeen_service (s : State) : Part.Same s s.testerSeen .service :=
  (testerSeen_evolves s).keeps .service (by decide)

end

/-! ## A response begun (R167, R170) -/

/-- The state `t` in which a unit is about to answer a request that it took in `s`: the response waits for its turnaround, its check
makes the exclusive-or zero, and the tester-active flag is set. -/
structure Answering (s t : State) : Prop where
  line : t.svc.line = .reply
  turnaround : t.svc.turnaround = some 0
  transmitting : t.svc.transmitting = false
  sent : t.svc.sent = 0
  active : t.svc.testerActive = true
  timer : t.svc.testerTimer = some 0
  cause : s.svc.testerActive = false → t.causePending .tester
  checked : xorAll t.svc.response = 0

theorem answered_answering (tester code : Byte) (p : State × Answer) : Answering p.1 (answered tester code p) := by
  obtain ⟨hactive, htimer, hcause⟩ := testerSeen_seen p.1
  exact ⟨rfl, rfl, rfl, rfl, hactive, htimer, hcause, xorAll_checked _⟩

section

variable {s : State} {r : Request} {a tester : Byte} {params : List Byte}

/-- The refusal that a request's parameters meet, in the order of the checks. -/
theorem judgeRequest_refused {reason : Byte}
    (h : r.countOk params = false ∧ reason = 0x10 ∨ r.countOk params = true ∧ r.rangeOk params = false ∧ reason = 0x11) :
    ∃ x : Refused, x.code = reason ∧ ∀ s : State, s.judgeRequest r.code params = (s, .refusal x) := by
  rcases h with ⟨hc, rfl⟩ | ⟨hc, hg, rfl⟩
  · exact ⟨.badRequest, rfl, fun _ => judgeRequest_badRequest hc⟩
  · exact ⟨.outOfRange, rfl, fun _ => judgeRequest_outOfRange hc hg⟩

/-- A request to the physical address given whole is answered what its checks and its row give. -/
theorem exec_judged {p : State × Answer} (hr : s.running) (hl : s.serviceListens = true)
    (hline : s.svc.line = .idle ∨ s.svc.line = .receiving) (ha : s.svc.address = some a) (hne : a ≠ 0x7F)
    (hlo : 0x80 ≤ tester.toNat) (hhi : tester.toNat ≤ 0xFE) (hp : params.length ≤ 15)
    (hj : s.requestHeard.judgeRequest r.code params = p) :
    exec (r.row .physical tester params) s = .next (answered tester r.code p) := by
  rw [exec_request hr, requestFrame_heard hl hline ha hne hlo hhi hp, ← hj]
  rfl

/-- A request to the functional address given whole that is dropped. -/
theorem gives_dropped (hr : s.running) (hl : s.serviceListens = true) (hline : s.svc.line = .idle ∨ s.svc.line = .receiving)
    (ha : s.svc.address = some a) (hne : a ≠ 0x7F) (hlo : 0x80 ≤ tester.toNat) (hhi : tester.toNat ≤ 0xFE)
    (hp : params.length ≤ 15) (hd : s.requestHeard.functionalAnswer r.code params = none) :
    Gives (r.row .functional tester params) s (.service :: .wakeChar :: .tester :: Part.images) (fun t =>
      t.svc.line = .idle ∧ t.svc.testerActive = true ∧ t.svc.testerTimer = some 0) := by
  obtain ⟨hidle, -⟩ := testerSeen_service s.requestHeard
  obtain ⟨hactive, htimer, -⟩ := testerSeen_seen s.requestHeard
  refine ⟨s.requestHeard.testerSeen, ?_, ?_, hidle, hactive, htimer⟩
  · rw [exec_request hr, requestFrame_heard hl hline ha hne hlo hhi hp]
    exact congrArg _ (takeRequestFrame_dropped hd)
  · exact ((requestHeard_evolves s).keeps.mono (by decide)).trans ((testerSeen_evolves _).keeps.mono (by decide))

theorem stopTest_none (h : s.svc.test = .none) : s.stopTest = (s, .refusal .conditions) := if_pos h

theorem stopTest_stops (h : s.svc.test ≠ .none) : s.stopTest = (s.endTest .stopped, .positive []) := if_neg h

end

end Sys2Proof.Machine

open Sys2Proof Sys2Proof.Machine

/-- Settles O56: the refusal by the first check that fails, and a functional request that is not answered. -/
theorem requestsRefusedOrDropped : Obligations.RequestsRefusedOrDropped := by
  refine fun r a tester reason params s hr hl hline ha hne hlo hhi hp => ⟨fun h => ?_, fun h => ?_⟩
  · obtain ⟨x, rfl, hx⟩ := judgeRequest_refused h
    have hans := answered_answering tester r.code (s.requestHeard, .refusal x)
    exact gives_answer (l := []) (exec_judged hr hl hline ha hne hlo hhi hp (hx _)) .refl (by decide) (fun _ h => h) fun _ =>
      ⟨hans.line, hans.active, answered_response (p := (s.requestHeard, .refusal x)) ha, hans.checked⟩
  · exact gives_dropped hr hl hline ha hne hlo hhi hp (functionalAnswer_dropped h)

/-- Settles O58: no test to stop, a test stopped, and the functional request, which acts. -/
theorem stopTestRequest : Obligations.StopTestRequest := by
  intro a tester s hr hm hline ha hne hlo hhi
  have hl : s.serviceListens = true := by simpa [State.serviceListens] using hm
  have he := exec_answered (r := .stopTest) (params := []) hr hl hline ha hne hlo hhi (by decide) rfl rfl
  refine ⟨fun hnone => ?_, fun htest => ?_, ?_⟩
  · rw [show s.requestHeard.perform .stopTest [] = _ from stopTest_none hnone] at he
    exact gives_refusal ha he
  · rw [show s.requestHeard.perform .stopTest [] = _ from stopTest_stops htest] at he
    have hkeeps := (endTest_evolves s.requestHeard .stopped).keeps
    refine gives_answer he hkeeps (by decide) (by decide) fun hans => ?_
    obtain ⟨hnone, -, houtcome⟩ := endTest_ended s.requestHeard .stopped htest
    obtain ⟨htest', -, -, houtcome'⟩ := hans .test (by decide)
    exact ⟨htest'.trans hnone, houtcome'.trans houtcome, answered_positive ha hkeeps (by decide)⟩
  · obtain ⟨t, hexec, hkeeps, hidle, -⟩ := gives_dropped (r := .stopTest) (params := []) hr hl hline ha hne hlo hhi
      (by decide) (functionalAnswer_acts rfl)
    exact ⟨t, hexec, hkeeps, hidle⟩

end

section
/-! The read-type requests: the listed fault records, the bytes of each response, and a request that finds the device in PARKED (09,
R157, R169 to R172, R178; 12, Table 12-6). -/

namespace Sys2Proof.Machine

/-! ## Numbers as bytes (chapter 12) -/

theorem leBytes_map (k v : Nat) : leBytes k v = (List.range k).map (fun i => BitVec.ofNat 8 (v / 256 ^ i)) := by
  induction k generalizing v with
  | zero => rfl
  | succ k ih =>
    rw [leBytes, ih, List.range_succ_eq_map, List.map_cons, List.map_map, pow_zero, Nat.div_one]
    refine congrArg _ (List.map_congr_left fun i _ => ?_)
    rw [Nat.div_div_eq_div_mul, ← Nat.pow_succ']
    rfl

/-- The bytes that a response carries of a number are those that the statements name. -/
theorem leBytes_toNat {n : Nat} (k : Nat) (v : BitVec n) : leBytes k v.toNat = littleEndian k v := by
  rw [leBytes_map]
  refine List.map_congr_left fun i _ => BitVec.eq_of_toNat_eq ?_
  rw [BitVec.toNat_ofNat, BitVec.toNat_setWidth, BitVec.toNat_ushiftRight, Nat.shiftRight_eq_div_pow, Nat.pow_mul]

theorem toNat_flag (b : Bool) (k : Nat) : k * b.toNat = if b then k else 0 := by
  cases b
  · exact Nat.mul_zero k
  · exact Nat.mul_one k

/-! ## A list sorted with what is sorted along (R157) -/

theorem insertByKey_map {α β : Type} (f : α → β) (key : β → Nat) (x : α) (l : List α) :
    insertByKey key (f x) (l.map f) = (insertByKey (fun a => key (f a)) x l).map f := by
  induction l with
  | nil => rfl
  | cons y ys ih =>
    simp only [List.map_cons, insertByKey]
    split
    · rfl
    · rw [List.map_cons, ih]

theorem sortByKey_map {α β : Type} (f : α → β) (key : β → Nat) (l : List α) :
    sortByKey key (l.map f) = (sortByKey (fun a => key (f a)) l).map f := by
  induction l with
  | nil => rfl
  | cons x xs ih =>
    simp only [List.map_cons, sortByKey]
    rw [ih, insertByKey_map]

/-- The order of a sorted list: by the key, and elements of one key as they stood, in the order `R`. -/
abbrev StableOrder {α : Type} (key : α → Nat) (R : α → α → Prop) (a b : α) : Prop := key a < key b ∨ key a = key b ∧ R a b

theorem insertByKey_stable {α : Type} {key : α → Nat} {R : α → α → Prop} {x : α} {l : List α} (hx : ∀ y ∈ l, R x y)
    (h : l.Pairwise (StableOrder key R)) : (insertByKey key x l).Pairwise (StableOrder key R) := by
  induction l with
  | nil => exact List.pairwise_singleton ..
  | cons y ys ih =>
    obtain ⟨hy, hys⟩ := List.pairwise_cons.mp h
    unfold insertByKey
    split
    · next hle =>
      refine List.pairwise_cons.mpr ⟨fun z hz => ?_, h⟩
      have hyz : key y ≤ key z := by
        rcases List.mem_cons.mp hz with rfl | hz
        · exact Nat.le_refl _
        · rcases hy z hz with hlt | ⟨heq, -⟩
          · exact Nat.le_of_lt hlt
          · exact Nat.le_of_eq heq
      exact (Nat.lt_or_eq_of_le (Nat.le_trans hle hyz)).imp_right fun heq => ⟨heq, hx z hz⟩
    · next hgt =>
      refine List.pairwise_cons.mpr ⟨fun z hz => ?_, ih (fun z hz => hx z (List.mem_cons_of_mem _ hz)) hys⟩
      rcases List.mem_cons.mp ((insertByKey_perm key x ys).mem_iff.mp hz) with rfl | hz
      · exact .inl (Nat.lt_of_not_le hgt)
      · exact hy z hz

/-- Sorting is stable: elements of one key keep the order in which they stood. -/
theorem sortByKey_stable {α : Type} {key : α → Nat} {R : α → α → Prop} {l : List α} (h : l.Pairwise R) :
    (sortByKey key l).Pairwise (StableOrder key R) := by
  induction l with
  | nil => exact .nil
  | cons x xs ih =>
    obtain ⟨hx, hxs⟩ := List.pairwise_cons.mp h
    exact insertByKey_stable (fun y hy => hx y ((sortByKey_perm key xs).mem_iff.mp hy)) (ih hxs)

/-! ## The listed records (R157, R172) -/

theorem rows_eq_map {n : Nat} {α : Type} (t : Table n α) : t.rows = (List.finRange n).map t.get := by
  refine List.ext_getElem (by rw [List.length_map, List.length_finRange, t.size]) fun i hi _ => ?_
  rw [List.getElem_map, List.getElem_finRange]
  rfl

theorem filterMap_filter_map_some {α : Type} (p : α → Bool) (l : List (Option α)) :
    ((l.filterMap id).filter p).map some = l.filter (fun x => x.any p) := by
  induction l with
  | nil => rfl
  | cons x xs ih =>
    cases x with
    | none => exact ih
    | some x =>
      cases hp : p x with
      | false => simpa [hp] using ih
      | true => simpa [hp] using ih

/-- A slot's record is listed: it is there, and it is not PENDING. -/
def slotListed (x : Option Record) : Bool := x.any (fun r => r.state ≠ .pending)

/-- First seen of a slot's record. -/
def slotFirst (x : Option Record) : Nat := (x.map Record.firstAt).getD 0

/-- The slots of the listed records, in their order. -/
def FaultMemory.listedSlots (fm : FaultMemory) : List (Fin 32) :=
  sortByKey (fun i => slotFirst (fm.records.get i)) (fm.records.indices slotListed)

section

variable {s : State}

theorem slotListed_iff {x : Option Record} : slotListed x = true ↔ ∃ r, x = some r ∧ r.state ≠ .pending := by
  cases x with
  | none => simp [slotListed]
  | some r => simp [slotListed]

theorem mem_listedSlots {fm : FaultMemory} {i : Fin 32} :
    i ∈ fm.listedSlots ↔ ∃ r, fm.records.get i = some r ∧ r.state ≠ .pending := by
  rw [FaultMemory.listedSlots, (sortByKey_perm _ _).mem_iff, mem_indices, slotListed_iff]

/-- Slot by slot, the listed slots hold what the table lists. -/
theorem indices_slotListed (fm : FaultMemory) : (fm.records.indices slotListed).map fm.records.get =
    ((fm.records.rows.filterMap id).filter (fun r => r.state ≠ .pending)).map some := by
  rw [filterMap_filter_map_some, rows_eq_map, List.filter_map]
  rfl

/-- The listed records are those of the listed slots, one by one. -/
theorem listedSlots_held (fm : FaultMemory) : fm.listedSlots.map fm.records.get = fm.listed.map some := by
  unfold FaultMemory.listedSlots FaultMemory.listed
  rw [← sortByKey_map fm.records.get slotFirst, indices_slotListed, sortByKey_map]
  rfl

theorem listedSlots_order (fm : FaultMemory) : fm.listedSlots.Pairwise (fun i j => ∀ r q, fm.records.get i = some r →
    fm.records.get j = some q → r.firstAt < q.firstAt ∨ r.firstAt = q.firstAt ∧ i < j) := by
  refine (sortByKey_stable ((List.pairwise_lt_finRange 32).filter _)).imp fun {i j} h r q hr hq => ?_
  have horder : slotFirst (fm.records.get i) < slotFirst (fm.records.get j) ∨
      slotFirst (fm.records.get i) = slotFirst (fm.records.get j) ∧ i < j := h
  rw [hr, hq] at horder
  exact horder

theorem lists_listed (s : State) : s.Lists s.fm.listedSlots s.fm.listed :=
  ⟨fun _ => mem_listedSlots, listedSlots_held s.fm, listedSlots_order s.fm⟩

theorem mem_listed {fm : FaultMemory} {r : Record} :
    r ∈ fm.listed ↔ ∃ i, fm.records.get i = some r ∧ r.state ≠ .pending := by
  have hmem : r ∈ fm.listed ↔ some r ∈ fm.listedSlots.map fm.records.get := by
    rw [listedSlots_held]
    simp
  rw [hmem, List.mem_map]
  refine exists_congr fun i => ?_
  rw [mem_listedSlots]
  constructor
  · rintro ⟨⟨q, hq, hstate⟩, hr⟩
    cases hq.symm.trans hr
    exact ⟨hr, hstate⟩
  · rintro ⟨hr, hstate⟩
    exact ⟨⟨r, hr, hstate⟩, hr⟩

/-! ## The data of each response (Table 12-6) -/

theorem faultEntry_bytes (r : Record) : faultEntry r =
    [BitVec.ofNat 8 r.code.kind.toNat, r.code.subject, r.occurrence, r.healing,
      BitVec.ofNat 8 (r.state.toNat + (if r.frame.isSome then 0x80 else 0))] ++
      littleEndian 3 (momentCycle r.first) ++ littleEndian 3 (momentCycle r.last) ++ littleEndian 4 (momentMs r.last) := by
  simp only [faultEntry, leBytes_toNat, toNat_flag]

theorem freezeEntry_bytes (e : FreezeEntry) :
    freezeEntry e = [e.signal] ++ littleEndian 2 e.value ++ [BitVec.ofNat 8 e.quality.toNat] := by
  rw [freezeEntry, leBytes_toNat]

theorem identifyData_data (s : State) (params : List Byte) : Request.Data s params s.identifyData .identify := by
  simp only [Request.Data, State.identifyData, leBytes_toNat]
  rfl

theorem faultsData_data (s : State) (params : List Byte) :
    Request.Data s params (s.faultsData (params.getD 0 0).toNat) .readFaults := by
  refine ⟨_, _, lists_listed s, ?_⟩
  simp only [State.faultsData, funext faultEntry_bytes]

theorem freezeData_data {i : Fin 32} {r : Record} {params : List Byte} (hr : s.fm.records.get i = some r)
    (hstate : r.state ≠ .pending) (hkind : BitVec.ofNat 8 r.code.kind.toNat = params.getD 0 0)
    (hsubject : r.code.subject = params.getD 1 0) : Request.Data s params (freezeData r) .readFreeze := by
  refine ⟨i, r, hr, hstate, hkind, hsubject, fun hf => ?_, fun f hf => ?_⟩
  · simp only [freezeData, hf, hkind, hsubject]
    rfl
  · simp only [freezeData, hf, hkind, hsubject, funext freezeEntry_bytes, leBytes_toNat]
    rfl

theorem signalEntry_bytes (s : State) (p : Byte) : s.signalEntry p =
    [p] ++ littleEndian 2 (s.value p.toFin) ++ [BitVec.ofNat 8 (s.quality p.toFin).toNat] ++
      littleEndian 2 (s.sig.entries.get p.toFin).age := by
  simp only [State.signalEntry, leBytes_toNat]
  rfl

theorem signalsData_data (s : State) (params : List Byte) :
    Request.Data s params (params.flatMap s.signalEntry) .readSignals := by
  simp only [Request.Data, funext (signalEntry_bytes s)]

theorem doorEntry_bytes (c : DoorCfg) (x : Door) : doorEntry c x =
    [BitVec.ofNat 8 (x.state.toNat + (if c.present then 0x10 else 0) + (if x.countsOpen then 0x20 else 0)),
      BitVec.ofNat 8 (x.source.toNat + 4 * x.cause.toNat)] ++ littleEndian 4 x.openCycles ++ littleEndian 4 x.obstructions := by
  simp only [doorEntry, leBytes_toNat, toNat_flag]

theorem doorsData_data (s : State) (params : List Byte) : Request.Data s params s.doorsData .readDoors := by
  have hlocked : BitVec.ofNat 8 s.door.allLocked.toNat = if s.door.allLocked then 1 else 0 := by
    cases s.door.allLocked <;> rfl
  simp only [Request.Data, State.doorsData, doorEntry_bytes, hlocked]

theorem lineData_data {l : Fin 3} {params : List Byte} (hl : l.val = (params.getD 0 0).toNat) :
    Request.Data s params (lineData (s.rx.lines.get l)) .readLines := by
  refine ⟨l, hl, ?_⟩
  simp only [lineData, LineCounts.list, leBytes_toNat, toNat_flag]

theorem workshopData_data (s : State) (params : List Byte) : Request.Data s params s.workshopData .workshopStatus := by
  have hlevel : s.svc.level.toNat = if s.svc.level then 1 else 0 := by cases s.svc.level <;> rfl
  simp only [Request.Data, State.workshopData, leBytes_toNat, toNat_flag, hlevel]

/-! ## What a read-type request is answered (R169, R171, R172) -/

section

variable {r : Request} {params : List Byte}

/-- The record that READ_FREEZE finds is a listed one of the code that its parameters name. -/
theorem listedFor_some {kind subject : Byte} {x : Record} (h : s.listedFor kind subject = some x) :
    ∃ i, s.fm.records.get i = some x ∧ x.state ≠ .pending ∧ BitVec.ofNat 8 x.code.kind.toNat = kind ∧
      x.code.subject = subject := by
  obtain ⟨i, hi, hstate⟩ := mem_listed.mp (List.mem_of_find?_eq_some h)
  have hcode := List.find?_some h
  rw [Bool.and_eq_true, decide_eq_true_eq, decide_eq_true_eq] at hcode
  exact ⟨i, hi, hstate, hcode⟩

theorem listedFor_none_iff {kind subject : Byte} : s.listedFor kind subject = none ↔
    ∀ i x, s.fm.records.get i = some x → x.state ≠ .pending →
      ¬ (BitVec.ofNat 8 x.code.kind.toNat = kind ∧ x.code.subject = subject) := by
  unfold State.listedFor
  rw [List.find?_eq_none]
  simp only [Bool.and_eq_true, decide_eq_true_eq, mem_listed]
  exact ⟨fun h i x hx hstate => h x ⟨i, hx, hstate⟩, fun h x ⟨i, hx, hstate⟩ => h i x hx hstate⟩

theorem perform_freeze {x : Record} (h : s.listedFor (params.getD 0 0) (params.getD 1 0) = some x) :
    s.perform .readFreeze params = (s, .positive (freezeData x)) := by
  unfold State.perform
  dsimp only
  rw [h]

theorem perform_noFreeze (h : s.listedFor (params.getD 0 0) (params.getD 1 0) = none) :
    s.perform .readFreeze params = (s, .refusal .outOfRange) := by
  unfold State.perform
  dsimp only
  rw [h]

theorem perform_line {l : Fin 3} (hl : l.val = (params.getD 0 0).toNat) :
    s.perform .readLines params = (s, .positive (lineData (s.rx.lines.get l))) := by
  unfold State.perform
  dsimp only
  rw [← hl, get?_val]

/-- A read-type request that passes its checks changes nothing by what it asks, and is answered the data of Table 12-6. -/
theorem perform_reads (hread : r.isRead = true) (hg : r.rangeOk params = true)
    (hfreeze : r = .readFreeze → ∃ i x, s.fm.records.get i = some x ∧ x.state ≠ .pending ∧
      BitVec.ofNat 8 x.code.kind.toNat = params.getD 0 0 ∧ x.code.subject = params.getD 1 0) :
    ∃ data, s.perform r params = (s, .positive data) ∧ r.Data s params data := by
  cases r with
  | identify => exact ⟨_, rfl, identifyData_data s params⟩
  | readFaults => exact ⟨_, rfl, faultsData_data s params⟩
  | readFreeze =>
    cases hfound : s.listedFor (params.getD 0 0) (params.getD 1 0) with
    | none =>
      obtain ⟨i, x, hx, hstate, hcode⟩ := hfreeze rfl
      exact absurd hcode (listedFor_none_iff.mp hfound i x hx hstate)
    | some x =>
      obtain ⟨i, hx, hstate, hkind, hsubject⟩ := listedFor_some hfound
      exact ⟨_, perform_freeze hfound, freezeData_data hx hstate hkind hsubject⟩
  | readSignals => exact ⟨_, rfl, signalsData_data s params⟩
  | readDoors => exact ⟨_, rfl, doorsData_data s params⟩
  | readLines =>
    have hline : (params.getD 0 0).toNat < 3 := Nat.lt_succ_of_le (of_decide_eq_true hg)
    exact ⟨_, perform_line (l := ⟨_, hline⟩) rfl, lineData_data rfl⟩
  | workshopStatus => exact ⟨_, rfl, workshopData_data s params⟩
  | clearFaults => exact absurd hread (by decide)
  | outputTest => exact absurd hread (by decide)
  | stopTest => exact absurd hread (by decide)

/-- The owners' state is the same while the unit takes the request. -/
theorem data_requestHeard {data : List Byte} (h : r.Data s.requestHeard params data) : r.Data s params data := by
  cases r with
  | readFaults =>
    obtain ⟨slots, records, ⟨members, held, order⟩, hdata⟩ := h
    exact ⟨slots, records, ⟨members, held, order⟩, hdata⟩
  | _ => exact h

theorem functionalAnswer_reads {u : State} {data : List Byte} (hread : r.isRead = true)
    (h : s.judgeRequest r.code params = (u, .positive data)) : s.functionalAnswer r.code params = some data := by
  unfold State.functionalAnswer
  rw [ofCode_code, h]
  exact if_pos hread

theorem takeRequestFrame_functional {tester code : Byte} {data : List Byte} (h : s.functionalAnswer code params = some data) :
    s.takeRequestFrame true tester code params = answered tester code (s, .positive data) := by
  unfold State.takeRequestFrame
  rw [if_pos rfl, h]
  rfl

/-- A read-type request has few parameters. -/
theorem params_of_reads (hread : r.isRead = true) (hc : r.countOk params = true) : params.length ≤ 15 := by
  cases r with
  | readSignals =>
    obtain ⟨-, hcount⟩ := Bool.and_eq_true_iff.mp hc
    exact Nat.le_trans (of_decide_eq_true hcount) (by decide)
  | clearFaults => exact absurd hread (by decide)
  | outputTest => exact absurd hread (by decide)
  | stopTest => exact absurd hread (by decide)
  | _ =>
    have hcount := of_decide_eq_true hc
    omega

/-- A read-type request given whole, to either address, is answered alike (R169). -/
theorem exec_reads {a tester : Byte} {data : List Byte} {target : Target} (hr : s.running) (hl : s.serviceListens = true)
    (hline : s.svc.line = .idle ∨ s.svc.line = .receiving) (ha : s.svc.address = some a) (hne : a ≠ 0x7F)
    (hlo : 0x80 ≤ tester.toNat) (hhi : tester.toNat ≤ 0xFE) (hread : r.isRead = true) (hc : r.countOk params = true)
    (hg : r.rangeOk params = true) (hdata : s.requestHeard.perform r params = (s.requestHeard, .positive data)) :
    exec (r.row target tester params) s = .next (answered tester r.code (s.requestHeard, .positive data)) := by
  have hp := params_of_reads hread hc
  have hj := (judgeRequest_performs hc hg).trans hdata
  cases target with
  | physical => exact exec_judged hr hl hline ha hne hlo hhi hp hj
  | functional =>
    rw [exec_request hr, requestFrame_heard hl hline ha hne hlo hhi hp]
    exact congrArg _ (takeRequestFrame_functional (functionalAnswer_reads hread hj))

end

/-! ## A request that finds the device in PARKED (R178) -/

theorem exec_requestParked {r : Request} {target : Target} {tester : Byte} {params : List Byte} (hr : s.running)
    (hp : s.mode.mode = .parked) : exec (r.row target tester params) s =
      .next (s.serviceWake.setSvc s.serviceWake.svc.endWakeChar).takeWork := by
  have hl : ¬ s.serviceListens = true := by simp [State.serviceListens, hp]
  rw [exec_request hr]
  exact congrArg _ ((if_neg hl).trans (if_pos hp))

end

end Sys2Proof.Machine

open Sys2Proof Sys2Proof.Machine

/-- Settles O55: the data of each read-type request, READ_FREEZE of a code that is not listed, and a request in PARKED. -/
theorem readRequests : Obligations.ReadRequests := by
  refine ⟨fun r target a tester params s hr hl hline ha hne hlo hhi hread hc hg => ⟨fun hfreeze => ?_, ?_⟩,
    fun r target tester params s hr hp => ?_⟩
  · obtain ⟨data, hperform, hdata⟩ := perform_reads (s := s.requestHeard) hread hg hfreeze
    have hans := answered_answering tester r.code (s.requestHeard, .positive data)
    refine gives_answer (l := []) (exec_reads hr hl hline ha hne hlo hhi hread hc hg hperform) .refl (by decide) (fun _ h => h)
      fun _ => ⟨hans.line, hans.turnaround, hans.transmitting, hans.sent, hans.active, hans.timer, hans.cause, ?_, hans.checked⟩
    obtain ⟨check, hresponse⟩ := answered_response (tester := tester) (code := r.code) (p := (s.requestHeard, .positive data)) ha
    refine ⟨data, check, data_requestHeard hdata, ?_⟩
    rw [hresponse, Nat.add_comm 1]
    rfl
  · rintro rfl rfl hnone
    have hrefused := perform_noFreeze (s := s.requestHeard) (listedFor_none_iff.mpr hnone)
    have hj := (judgeRequest_performs hc hg).trans hrefused
    have hans := answered_answering tester Request.readFreeze.code (s.requestHeard, .refusal .outOfRange)
    exact gives_answer (l := []) (exec_judged hr hl hline ha hne hlo hhi (params_of_reads hread hc) hj) .refl (by decide)
      (fun _ h => h) fun _ => ⟨answered_response (p := (s.requestHeard, .refusal .outOfRange)) ha, hans.checked⟩
  · have hwake := (serviceWake_evolves s).keeps
    have hend := (endWakeChar_evolves s.serviceWake).keeps
    have woken := wake_woken hp { service := true }
    obtain ⟨-, -, -, hresponse, -⟩ := hwake .service (by decide)
    obtain ⟨hactive, -⟩ := hwake .tester (by decide)
    refine gives_work (exec_requestParked hr hp) ((hwake.mono (by decide)).trans (hend.mono (by decide))) ?_
    rw [State.causePending, takeWork_svc, takeWork_mode, takeWork_path]
    exact ⟨rfl, rfl, rfl, hresponse, hactive, rfl, woken.cause, woken.alert, woken.mode⟩

end

section
/-! Reception on the service line, character by character: the first, a later and the last character of a request, quiet and gap, and
start edges (09, R165 to R167, R169, R170, R178). -/

namespace Sys2Proof.Machine

section

variable {s : State} {c : ServiceChar} {e : Nat}

theorem exec_serviceCharacter (hr : s.running) : exec (.serviceCharacter c) s = .next (s.serviceCharacter c) :=
  congrArg Host.Outcome.next (live_running hr _)

theorem exec_serviceStartEdge (hr : s.running) : exec .serviceStartEdge s = .next s.serviceEdge.takeWork :=
  congrArg Host.Outcome.next (live_running hr _)

/-! ## A start edge, by the state of the line (R166, R167, R178) -/

theorem not_parked_of_listens (hl : s.serviceListens = true) : s.mode.mode ≠ .parked := by
  rcases mode_of_listens hl with h | h <;> rw [h] <;> decide

theorem serviceEdge_idle (hm : s.mode.mode ≠ .parked) (hline : s.svc.line = .idle) :
    s.serviceEdge = s.setSvc { s.svc with wakeChar := false } := by
  unfold State.serviceEdge
  rw [if_neg hm, hline]

theorem serviceEdge_receiving (hm : s.mode.mode ≠ .parked) (hline : s.svc.line = .receiving) :
    s.serviceEdge = s.setSvc { s.svc with gap := none } := by
  unfold State.serviceEdge
  rw [if_neg hm, hline]

/-- A start edge in the turnaround abandons the response (R167). -/
theorem serviceEdge_abandons (hm : s.mode.mode ≠ .parked) (hline : s.svc.line = .reply) (ht : s.svc.turnaround.isSome = true) :
    s.serviceEdge =
      s.setSvc { s.svc with line := .receiving, received := [], gap := none, response := [], turnaround := none } := by
  unfold State.serviceEdge
  rw [if_neg hm, hline]
  exact if_pos ht

/-! ## A character, by the state of the line (R165, R166, R178) -/

theorem serviceCharacter_woke (hl : s.serviceListens = true) (hline : s.svc.line = .idle) (hw : s.svc.wakeChar = true) :
    s.serviceCharacter c = s.setSvc s.svc.endWakeChar := by
  unfold State.serviceCharacter
  rw [if_pos hl, hline]
  exact if_pos hw

theorem serviceCharacter_first (hl : s.serviceListens = true) (hline : s.svc.line = .idle) (hw : s.svc.wakeChar = false) :
    s.serviceCharacter c = s.firstCharacter c := by
  unfold State.serviceCharacter
  rw [if_pos hl, hline]
  exact if_neg (by rw [hw]; decide)

theorem serviceCharacter_later (hl : s.serviceListens = true) (hline : s.svc.line = .receiving) (hreceived : s.svc.received ≠ []) :
    s.serviceCharacter c = s.laterCharacter c := by
  unfold State.serviceCharacter
  rw [if_pos hl, hline]
  exact if_neg hreceived

theorem serviceCharacter_skipped (hl : s.serviceListens = true) (hline : s.svc.line = .skip) :
    s.serviceCharacter c = s.setSvc { s.svc with gap := some 0 } := by
  unfold State.serviceCharacter
  rw [if_pos hl, hline]

/-- The first character is a target, or the unit skips what follows it. -/
theorem firstCharacter_leaves (s : State) (c : ServiceChar) :
    if c.good = true ∧ 1 ≤ c.data.toNat ∧ c.data.toNat ≤ 0x7F then
      (s.firstCharacter c).svc.line = .receiving ∧ (s.firstCharacter c).svc.received = [c.data] ∧
        (s.firstCharacter c).svc.gap = some 0
    else (s.firstCharacter c).svc.line = .skip ∧ (s.firstCharacter c).svc.received = [] ∧
      (s.firstCharacter c).svc.gap = some 0 := by
  unfold State.firstCharacter
  split <;> exact ⟨rfl, rfl, rfl⟩

/-! ## A later character (R166) -/

theorem laterCharacter_bad (hg : c.good = false) : s.laterCharacter c = s.setSvc s.svc.skip := if_pos (by rw [hg]; rfl)

/-- The third character is a length that no request has. -/
theorem laterCharacter_badLength (hg : c.good = true) (hlen : s.svc.received.length = 2) (hd : c.data = 0 ∨ 16 < c.data.toNat) :
    s.laterCharacter c = s.setSvc s.svc.skip := by
  have hthird : (s.svc.received ++ [c.data]).getD 2 0 = c.data := by
    rw [List.getD_append_right _ _ _ _ (Nat.le_of_eq hlen), hlen]
    rfl
  refine (if_neg (by rw [hg]; decide)).trans (if_pos ⟨by rw [List.length_append, hlen]; rfl, ?_⟩)
  rw [hthird]
  exact hd.imp_left (congrArg BitVec.toNat)

/-- A character after which the request is not yet complete. -/
theorem laterCharacter_goesOn (hg : c.good = true)
    (h : s.svc.received.length = 1 ∨ s.svc.received.length = 2 ∧ c.data ≠ 0 ∧ c.data.toNat ≤ 16 ∨
      3 ≤ s.svc.received.length ∧ s.svc.received.length < (s.svc.received.getD 2 0).toNat + 3) :
    s.laterCharacter c = s.setSvc { s.svc with received := s.svc.received ++ [c.data], gap := some 0 } := by
  have hframe : (s.svc.received ++ [c.data]).length = s.svc.received.length + 1 := by rw [List.length_append]; rfl
  refine (if_neg (by rw [hg]; decide)).trans ((if_neg ?_).trans (if_neg ?_)) <;> rw [hframe]
  · rintro ⟨hthree, hbad⟩
    have hlen : s.svc.received.length = 2 := by omega
    obtain ⟨-, hne, hle⟩ := (h.resolve_left (by omega)).resolve_right (by omega)
    rw [List.getD_append_right _ _ _ _ (Nat.le_of_eq hlen), hlen] at hbad
    rcases hbad with hz | hlong
    · exact hne (BitVec.eq_of_toNat_eq hz)
    · exact absurd hle (Nat.not_le_of_lt hlong)
  · rintro ⟨hlong, hlast⟩
    rw [List.getD_append _ _ _ _ (by omega)] at hlast
    omega

/-! ## The last character (R166) -/

theorem laterCharacter_completes {target tester length code : Byte} {params : List Byte} (hg : c.good = true)
    (hreceived : s.svc.received = [target, tester, length, code] ++ params) (hlen : length.toNat = params.length + 1) :
    s.laterCharacter c = s.frameComplete (s.svc.received ++ [c.data]) := by
  have hframe : (s.svc.received ++ [c.data]).length = params.length + 5 := by rw [hreceived]; simp
  have hlength : (s.svc.received ++ [c.data]).getD 2 0 = length := by rw [hreceived]; rfl
  refine (if_neg (by rw [hg]; decide)).trans ((if_neg ?_).trans (if_pos ?_)) <;> rw [hframe]
  · omega
  · exact ⟨by omega, by rw [hlength]; omega⟩

theorem xorAll_concat (l : List Byte) (x : Byte) : xorAll (l ++ [x]) = xorAll l ^^^ x := by
  unfold xorAll
  rw [List.foldl_append]
  rfl

/-- A check that makes the exclusive-or zero is that of the characters before it. -/
theorem check_of_xorAll {l : List Byte} {x : Byte} (h : xorAll (l ++ [x]) = 0) : x = xorAll l := by
  rw [xorAll_concat] at h
  exact (BitVec.xor_eq_zero_iff.mp h).symm

theorem frameComplete_dropped {target tester : Byte} {rest : List Byte}
    (h : xorAll (target :: tester :: rest) ≠ 0 ∨ tester.toNat < 0x80 ∨ 0xFE < tester.toNat ∨
      target ≠ 0x7F ∧ s.svc.address ≠ some target) :
    s.frameComplete (target :: tester :: rest) = s.setSvc s.svc.idle := by
  by_cases hvalid : xorAll (target :: tester :: rest) = 0 ∧ 0x80 ≤ tester.toNat ∧ tester.toNat ≤ 0xFE
  · obtain ⟨hcheck, hlo, hhi⟩ := hvalid
    rcases h with h | h | h | ⟨hfunctional, hphysical⟩
    · exact absurd hcheck h
    · omega
    · omega
    · exact (if_pos ⟨hcheck, hlo, hhi⟩).trans ((if_neg hfunctional).trans (if_neg hphysical))
  · exact if_neg hvalid

/-- A request whose last character has come is taken as the same request given whole (log entry 13). -/
theorem requestFrame_receiving {r : Request} {target : Target} {t tester : Byte} {params : List Byte}
    (hl : s.serviceListens = true) (hline : s.svc.line = .receiving) (hbyte : s.targetByte target = some t)
    (ht : t = Config.functionalAddress ∨ s.svc.address = some t) (hlo : 0x80 ≤ tester.toNat) (hhi : tester.toNat ≤ 0xFE)
    (hp : params.length ≤ 15) :
    s.requestFrame r target tester params =
      (s.setSvc s.svc.idle).takeRequestFrame (decide (t = Config.functionalAddress)) tester r.code params := by
  have hedge := serviceEdge_receiving (not_parked_of_listens hl) hline
  have hline' : s.serviceEdge.svc.line = .receiving := by
    rw [hedge]
    exact hline
  unfold State.requestFrame
  rw [if_pos hl]
  dsimp only
  rw [hline', hbyte]
  refine (if_pos hp).trans ?_
  rw [hedge]
  exact frameComplete_request (s := s.setSvc { s.svc with gap := none }) ht hlo hhi

/-- The last character of a request to this unit: the request is taken (R166, R169). -/
theorem serviceCharacter_takes {target tester length code : Byte} {params : List Byte} (hl : s.serviceListens = true)
    (hline : s.svc.line = .receiving) (hg : c.good = true)
    (hreceived : s.svc.received = [target, tester, length, code] ++ params) (hlen : length.toNat = params.length + 1)
    (hcheck : xorAll (s.svc.received ++ [c.data]) = 0) (hlo : 0x80 ≤ tester.toNat) (hhi : tester.toNat ≤ 0xFE)
    (ht : target = Config.functionalAddress ∨ s.svc.address = some target) :
    s.serviceCharacter c =
      (s.setSvc s.svc.idle).takeRequestFrame (decide (target = Config.functionalAddress)) tester code params := by
  rw [serviceCharacter_later hl hline (by rw [hreceived]; exact List.cons_ne_nil _ _),
    laterCharacter_completes hg hreceived hlen, check_of_xorAll hcheck, hreceived]
  exact frameComplete_request ht hlo hhi

/-! ## Requests of no listed code (R169) -/

theorem ofCode_unlisted {code : Byte} (h : ∀ r : Request, r.code ≠ code) : Request.ofCode code = none :=
  List.find?_eq_none.mpr fun r _ hr => h r (of_decide_eq_true hr)

theorem judgeRequest_unlisted {code : Byte} {params : List Byte} (h : ∀ r : Request, r.code ≠ code) :
    s.judgeRequest code params = (s, .refusal .badRequest) := by
  unfold State.judgeRequest
  rw [ofCode_unlisted h]

theorem functionalAnswer_unlisted {code : Byte} {params : List Byte} (h : ∀ r : Request, r.code ≠ code) :
    s.functionalAnswer code params = none := by
  unfold State.functionalAnswer
  rw [ofCode_unlisted h]

/-! ## Quiet and gap (R165, R166) -/

theorem exec_serviceGapExpiry (hr : s.running) (hline : s.svc.line = .receiving) (hgap : s.svc.gap = some e) (he : 20 < e) :
    exec .serviceGapExpiry s = .next (s.setSvc s.svc.idle) := by
  have hdue : s.due .serviceGapExpiry = true := by simp [hline, hgap, he, Config.serviceGapMs]
  exact congrArg Host.Outcome.next ((live_running hr _).trans (if_pos hdue))

theorem exec_quietExpiry (hr : s.running) (hline : s.svc.line = .skip) (hgap : s.svc.gap = some e) (he : 20 < e) :
    exec .quietExpiry s = .next (s.setSvc s.svc.idle) := by
  have hdue : s.due .quietExpiry = true := by simp [hline, hgap, he, Config.serviceGapMs]
  exact congrArg Host.Outcome.next ((live_running hr _).trans (if_pos hdue))

/-! ## Commands that change the service line alone -/

/-- A character that changes the reception alone. -/
theorem gives_character {x : ServiceUnit} {l : List Part} {P : State → Prop} (hr : s.running)
    (hx : s.serviceCharacter c = s.setSvc x) (hk : Evolves l s (s.setSvc x)) (hP : P (s.setSvc x)) :
    Gives (.serviceCharacter c) s l P := ⟨_, (exec_serviceCharacter hr).trans (congrArg _ hx), hk.keeps, hP⟩

/-- A start edge that changes the service line alone, with the controller's work after it. -/
theorem gives_edge {x : ServiceUnit} {l : List Part} {P : State → Prop} (hr : s.running) (hx : s.serviceEdge = s.setSvc x)
    (hk : Evolves l s (s.setSvc x)) (hP : ∀ t : State, t.svc = x → P t) : Gives .serviceStartEdge s (l ++ Part.work) P :=
  gives_work ((exec_serviceStartEdge hr).trans (congrArg (fun t => Host.Outcome.next t.takeWork) hx)) hk.keeps
    (hP _ (takeWork_svc _))

/-! ## A request received, and its last character (R165, R166, R169) -/

/-- A request on its way: a later character by what it is, the gap timer, and a start edge (R165, R166). -/
theorem reception_goesOn (hr : s.running) (hl : s.serviceListens = true) (hm : s.mode.mode ≠ .parked)
    (hline : s.svc.line = .receiving) (hreceived : s.svc.received ≠ []) :
    (c.good = false →
      Gives (.serviceCharacter c) s [.service] (fun t => t.svc.line = .skip ∧ t.svc.received = [] ∧ t.svc.gap = some 0)) ∧
    (c.good = true → s.svc.received.length = 2 → c.data = 0 ∨ 16 < c.data.toNat →
      Gives (.serviceCharacter c) s [.service] (fun t => t.svc.line = .skip ∧ t.svc.received = [] ∧ t.svc.gap = some 0)) ∧
    (c.good = true →
      s.svc.received.length = 1 ∨ s.svc.received.length = 2 ∧ c.data ≠ 0 ∧ c.data.toNat ≤ 16 ∨
        3 ≤ s.svc.received.length ∧ s.svc.received.length < (s.svc.received.getD 2 0).toNat + 3 →
      Gives (.serviceCharacter c) s [.service] (fun t =>
        t.svc.line = .receiving ∧ t.svc.received = s.svc.received ++ [c.data] ∧ t.svc.gap = some 0)) ∧
    (s.svc.gap = some e → 20 < e →
      Gives .serviceGapExpiry s [.service] (fun t => t.svc.line = .idle ∧ t.svc.received = [] ∧ t.svc.gap = none)) ∧
    Gives .serviceStartEdge s (.service :: Part.work) (fun t =>
      t.svc.line = .receiving ∧ t.svc.received = s.svc.received ∧ t.svc.gap = none) := by
  have hlater := serviceCharacter_later (c := c) hl hline hreceived
  refine ⟨fun hg => ?_, fun hg hlen hd => ?_, fun hg h => ?_, fun hgap he => ?_, ?_⟩
  · exact gives_character hr (hlater.trans (laterCharacter_bad hg)) (svcSkip_evolves s) ⟨rfl, rfl, rfl⟩
  · exact gives_character hr (hlater.trans (laterCharacter_badLength hg hlen hd)) (svcSkip_evolves s) ⟨rfl, rfl, rfl⟩
  · exact gives_character hr (hlater.trans (laterCharacter_goesOn hg h)) (setReceiving_evolves s s.svc.line _ _)
      ⟨hline, rfl, rfl⟩
  · exact ⟨_, exec_serviceGapExpiry hr hline hgap he, (svcIdle_evolves s).keeps, rfl, rfl, rfl⟩
  · refine gives_edge (l := [.service]) hr (serviceEdge_receiving hm hline)
      (setReceiving_evolves s s.svc.line s.svc.received none) fun t ht => ?_
    rw [ht]
    exact ⟨hline, rfl, rfl⟩

section

variable {target tester length code : Byte} {params : List Byte}

/-- The last character of a request that is not for this unit, or not valid: it is dropped (R166). -/
theorem gives_droppedFrame (hr : s.running) (hl : s.serviceListens = true) (hline : s.svc.line = .receiving) (hg : c.good = true)
    (hreceived : s.svc.received = [target, tester, length, code] ++ params) (hlen : length.toNat = params.length + 1)
    (h : xorAll (s.svc.received ++ [c.data]) ≠ 0 ∨ tester.toNat < 0x80 ∨ 0xFE < tester.toNat ∨
      target ≠ 0x7F ∧ s.svc.address ≠ some target) :
    Gives (.serviceCharacter c) s [.service] (fun t =>
      t.svc.line = .idle ∧ t.svc.received = [] ∧ t.svc.gap = none ∧ t.svc.response = s.svc.response ∧
      t.svc.turnaround = s.svc.turnaround ∧ t.svc.echoLosses = s.svc.echoLosses) := by
  have hdropped : s.frameComplete (s.svc.received ++ [c.data]) = s.setSvc s.svc.idle := by
    rw [hreceived] at h ⊢
    exact frameComplete_dropped h
  have hlater := serviceCharacter_later (c := c) hl hline (by rw [hreceived]; exact List.cons_ne_nil _ _)
  exact gives_character hr (hlater.trans ((laterCharacter_completes hg hreceived hlen).trans hdropped)) (svcIdle_evolves s)
    ⟨rfl, rfl, rfl, rfl, rfl, rfl⟩

/-- A request of no listed code to the functional address sets the tester-active flag only (R169, R170). -/
theorem gives_unlistedFunctional (hr : s.running) (hunlisted : ∀ r : Request, r.code ≠ code)
    (htaken : s.serviceCharacter c = (s.setSvc s.svc.idle).takeRequestFrame true tester code params) :
    Gives (.serviceCharacter c) s (.service :: .tester :: Part.images) (fun t =>
      t.svc.line = .idle ∧ t.svc.received = [] ∧ t.svc.response = s.svc.response ∧
      t.svc.testerActive = true ∧ t.svc.testerTimer = some 0 ∧ (s.svc.testerActive = false → t.causePending .tester)) := by
  obtain ⟨hidle, hempty, -, hresponse, -⟩ := testerSeen_service (s.setSvc s.svc.idle)
  refine ⟨_, (exec_serviceCharacter hr).trans (congrArg _ (htaken.trans
    (takeRequestFrame_dropped (functionalAnswer_unlisted hunlisted)))), ?_, hidle, hempty, hresponse, testerSeen_seen _⟩
  exact ((svcIdle_evolves s).keeps.mono (by decide)).trans ((testerSeen_evolves _).keeps.mono (by decide))

/-- A request of no listed code to the physical address is refused BAD_REQUEST (R169). -/
theorem gives_unlistedPhysical (hr : s.running) (ha : s.svc.address = some target) (hunlisted : ∀ r : Request, r.code ≠ code)
    (htaken : s.serviceCharacter c = (s.setSvc s.svc.idle).takeRequestFrame false tester code params) :
    Gives (.serviceCharacter c) s (.service :: .tester :: Part.images) (fun t =>
      t.svc.line = .reply ∧ t.svc.turnaround = some 0 ∧ t.svc.testerActive = true ∧ t.svc.testerTimer = some 0 ∧
      (∃ check, t.svc.response = [tester, target, 3, 0x7F, code, 0x10, check]) ∧ xorAll t.svc.response = 0) := by
  generalize hp : (s.setSvc s.svc.idle, Answer.refusal .badRequest) = p
  have hanswered : s.serviceCharacter c = answered tester code p := by
    rw [htaken, ← hp, ← judgeRequest_unlisted hunlisted]
    rfl
  have hans := answered_answering tester code p
  have hkeeps : KeepsBut (.service :: .tester :: Part.images) s p.1 := hp ▸ (svcIdle_evolves s).keeps.mono (by decide)
  refine ⟨_, (exec_serviceCharacter hr).trans (congrArg _ hanswered), hkeeps.trans (answered_keeps tester code p), hans.line,
    hans.turnaround, hans.active, hans.timer, ?_, hans.checked⟩
  subst hp
  exact answered_response (p := (s.setSvc s.svc.idle, .refusal .badRequest)) ha

/-- A request of a listed code: its last character has the effect of the request given whole (R169; log entry 13). -/
theorem exec_lastCharacter {r : Request} {kind : Target} (hr : s.running) (hl : s.serviceListens = true)
    (hline : s.svc.line = .receiving) (hbyte : s.targetByte kind = some target)
    (ht : target = Config.functionalAddress ∨ s.svc.address = some target) (hlo : 0x80 ≤ tester.toNat)
    (hhi : tester.toNat ≤ 0xFE) (hp : params.length ≤ 15)
    (htaken : s.serviceCharacter c =
      (s.setSvc s.svc.idle).takeRequestFrame (decide (target = Config.functionalAddress)) tester r.code params) :
    exec (.serviceCharacter c) s = exec (r.row kind tester params) s := by
  rw [exec_serviceCharacter hr, exec_request hr, htaken, requestFrame_receiving hl hline hbyte ht hlo hhi hp]

end

end

end Sys2Proof.Machine

open Sys2Proof Sys2Proof.Machine

/-- Settles O54: the line's state by state, the last character by what the request is, and the start edges. -/
theorem serviceReception : Obligations.ServiceReception := by
  intro c e s hr hl
  have hm := not_parked_of_listens hl
  refine ⟨fun hline hw => ⟨?_, ?_⟩, fun hline hw => ?_, reception_goesOn hr hl hm,
    fun target tester length code params hline hg hreceived hlen hp =>
      ⟨gives_droppedFrame hr hl hline hg hreceived hlen, fun hcheck hlo hhi => ?_⟩,
    fun hline => ⟨?_, fun hgap he => ?_⟩, fun hline ht => ?_⟩
  · exact gives_character hr (serviceCharacter_woke hl hline hw) (endWakeChar_evolves s) ⟨rfl, rfl, rfl, rfl⟩
  · refine gives_edge (l := [.wakeChar]) hr (serviceEdge_idle hm hline) (setWakeChar_evolves s false) fun t ht => ?_
    rw [ht]
    exact ⟨hline, rfl⟩
  · exact ⟨_, (exec_serviceCharacter hr).trans (congrArg _ (serviceCharacter_first hl hline hw)),
      (firstCharacter_evolves s c).keeps, firstCharacter_leaves s c⟩
  · have htaken := serviceCharacter_takes hl hline hg hreceived hlen hcheck hlo hhi
    have hfunctional : target = 0x7F → s.serviceCharacter c = (s.setSvc s.svc.idle).takeRequestFrame true tester code params :=
      fun ht => (htaken (.inl ht)).trans (by rw [decide_eq_true (show target = Config.functionalAddress from ht)])
    have hphysical : target ≠ 0x7F → s.svc.address = some target →
        s.serviceCharacter c = (s.setSvc s.svc.idle).takeRequestFrame false tester code params :=
      fun hne ha => (htaken (.inr ha)).trans (by rw [decide_eq_false (show target ≠ Config.functionalAddress from hne)])
    refine ⟨fun r hcode => ?_, fun hunlisted => ⟨fun ht => ?_, fun hne ha => ?_⟩⟩
    · subst hcode
      refine ⟨fun ht => ?_, fun _ ha => exec_lastCharacter hr hl hline ha (.inr ha) hlo hhi hp (htaken (.inr ha))⟩
      exact exec_lastCharacter hr hl hline (congrArg some ht.symm) (.inl ht) hlo hhi hp (htaken (.inl ht))
    · exact gives_unlistedFunctional hr hunlisted (hfunctional ht)
    · exact gives_unlistedPhysical hr ha hunlisted (hphysical hne ha)
  · exact gives_character hr (serviceCharacter_skipped hl hline) (setReceiving_evolves s s.svc.line s.svc.received (some 0))
      ⟨hline, rfl⟩
  · exact ⟨_, exec_quietExpiry hr hline hgap he, (svcIdle_evolves s).keeps, rfl, rfl, rfl⟩
  · refine gives_edge (l := [.service]) hr (serviceEdge_abandons hm hline ht) (abandon_evolves s) fun t hx => ?_
    rw [hx]
    exact ⟨rfl, rfl, rfl, rfl, rfl⟩

end

section
/-! The command at the front of the queue, which a step takes before it runs it: the other half of `step_empty`. -/

namespace Sys2Proof.Machine

/-- A queue that is set twice is the one set last. -/
@[simp] theorem State.setPending_setPending (s : State) (l m : List Instr) : (s.setPending l).setPending m = s.setPending m := rfl

theorem step_cons {c : Instr} {rest : List Instr} {s : State} (h : s.pending = c :: rest) :
    step s = exec c (s.setPending rest) := by
  unfold step
  rw [h]

end Sys2Proof.Machine

open Sys2Proof Sys2Proof.Machine

/-- Settles O1: the queue that was set has the command at its front, and taking the command sets the queue to the rest. -/
theorem stepTakesTheFrontCommand : Obligations.StepTakesTheFrontCommand := by
  intro c rest s
  calc step (s.setPending (c :: rest))
      _ = exec c ((s.setPending (c :: rest)).setPending rest) := step_cons (s.setPending_pending (c :: rest))
      _ = exec c (s.setPending rest) := by rw [State.setPending_setPending]

end
